-- ==== Sys2Proof/Word.lean ====
section
/-! DEFINITION. The words the registers, records and frames of the EPD16 are made of (R4): 32-bit register words, 64-bit
fields, bytes, little-endian layout, and named bit fields. -/

namespace Sys2Proof

/-- A register is 32 bits wide (R36). -/
abbrev Word := BitVec 32

/-- A 64-bit field of a descriptor or record. -/
abbrev Quad := BitVec 64

/-- One byte of memory. -/
abbrev Byte := BitVec 8

/-- A word from a number, modulo 2^32. -/
abbrev Word.ofNat (n : Nat) : Word := BitVec.ofNat 32 n

end Sys2Proof
end

