-- ==== Sys2Proof/Types.lean ====
section
/-! DEFINITION. The kinds of thing that the commands of the block carry and its state holds: who makes an access, the names
of events and statuses, memory spaces. -/

namespace Sys2Proof.Machine

/-- Who makes a register or memory access (R5: the access codes hold for any requester; some registers tell requesters
apart). -/
inductive Src where
  /-- The driver of a function of the manager's endpoint: 0 the PF, `n` the VF `n` (R50). -/
  | host (fn : Nat)
  /-- Management firmware. -/
  | mgmt
  /-- SCHED. -/
  | sched
  /-- The TIME block. -/
  | time
  deriving DecidableEq, Repr

/-- The names of events and completion statuses (R450, the catalogue). -/
inductive Nm where
  | success | duplicate | duplicateStale
  | ctxFaultAddr | ctxFaultCmd | ctxFaultTimeout | creditTimeout | readTimeout | dataPoisoned | unitLost
  | lateCompletion | vfResetDone
  | poisonFound | pageRetired | ceThreshold | dramFail
  | poolEmpty | poolQuota | poolCfgReject | refcountOverflow | refcountUnderflow | staleHandle
  | ventBlocked | debugUnlocked | fwAuthFail | attestFail
  | launchLate | timeLocked | timeUnlocked
  | unitJoined | unitQuarantined | linkReplay | linkDown | slotAttention | slotPresence
  | pivotSmall | rangeExceeded | dimLimit | bitstreamError | concealed | recovering | nmsTruncated | encBusy
  | thermalThrottle | thermalTrip | powerCap | heartbeatMissed
  deriving DecidableEq, Repr

/-- A status of an operation: its name and the block type code of the block that failed it (R450, R451). -/
structure Status where
  nm : Nm
  blk : Nat
  deriving DecidableEq, Repr

/-- An address of an HCMD: SPACE 0 the host bus, SPACE 1 the manager's usable DRAM (R96). -/
structure HAddr where
  dram : Bool
  addr : Nat
  deriving DecidableEq, Repr

/-- What the boot ROM found of the image of the slot it loaded (R403, R423): whether each image verified, their security
version numbers, the management image's version, its REVOKE mask and signing slot, and whether its firmware comes up. The verdict comes from outside: the cryptography is no part of the
model. -/
structure ImageCheck where
  ok : Bool
  /-- the firmware comes up and sets MGMT_STAT.RUNNING -/
  runs : Bool
  codec : Bool
  reason : Nat
  mgmtSvn : Nat
  codecSvn : Nat
  version : Nat
  revoke : Nat
  signSlot : Nat
  deriving DecidableEq, Repr

/-- An event before it is written to a ring (R89, R91; the event record): its name, the block that reports it, the
context it names, and its detail words. -/
structure Event where
  nm : Nm
  blk : Nat
  inst : Nat := 0
  ctx : Option Nat := none
  unit : Nat := 0
  plane : Nat := 0
  time : Nat := 0
  d0 : Nat := 0
  d1 : Nat := 0
  d2 : Nat := 0
  d3 : Nat := 0
  deriving DecidableEq, Repr

/-! ### What codec firmware reads in a bitstream (R162-R166). The standards H.264 and HEVC are no part of the model: what
parsing and decoding of an access unit give comes with the command. -/

/-- A rectangle of samples. -/
structure Rect where
  x : Nat := 0
  y : Nat := 0
  w : Nat := 0
  h : Nat := 0
  deriving DecidableEq, Repr

/-- A sequence parameter set (R162): its profile, level and formats; `plain`: no FMO, ASO or redundant pictures, no
interlaced coding, no scalable, multiview, range or screen-content extension; the coded size and cropping window; the
decoded pictures it needs, and the level's maximum. -/
structure Sps where
  hevc : Bool
  profile : Nat
  level : Nat
  mainTier : Bool
  plain : Bool
  chroma : Nat
  bits : Nat
  w : Nat
  h : Nat
  crop : Rect
  dpb : Nat
  dpbMax : Nat
  deriving DecidableEq, Repr

/-- The parameter set that an access unit activates: none new, one that fails to parse, or a parsed one. -/
inductive SpsRead where
  | same | broken | parsed (p : Sps)
  deriving DecidableEq, Repr

/-- The start points of R165: none, an IDR or IRAP picture, a picture with a recovery point SEI. -/
inductive StartPt where
  | no | key | sei
  deriving DecidableEq, Repr

/-- What the headers of an access unit say (R163, R165, R166): its start point and parameter set, whether it uses a refused or
ignored one, whether it is a RASL picture of the CRA that the stream started at, whether a reference it names is missing,
and the handles of the pictures it refers to. -/
structure AuRead where
  start : StartPt
  sps : SpsRead
  usesBad : Bool
  rasl : Bool
  missing : Bool
  refs : List Nat
  deriving DecidableEq, Repr

/-- What decoding a picture gives (R164, R166, R168, R173): the blocks concealed, whether it stays a reference, the handles
that the output process outputs now in output order, those that are no longer references, and whether recovery completes
with the first of the outputs. -/
structure PicRead where
  concealed : Nat
  keep : Bool
  out : List Nat
  drop : List Nat
  recovered : Bool
  deriving DecidableEq, Repr

/-- A slot controller as polled (R383): its STATUS bits, and whether it answers; its CONTROL byte. -/
structure SlotPoll where
  present : Bool
  powerGood : Bool
  button : Bool
  answers : Bool
  control : Nat := 0
  deriving DecidableEq, Repr

/-- What a Grenlink peer reports in training (R366, R367): its serial number, ROLE strap, whether it is addressed, its address, the
serial number of its manager, QUARANTINE, its slot; and the lanes that trained. -/
structure PeerRep where
  serial : Nat
  mgr : Bool
  addressed : Bool
  addr : Nat
  mgrSerial : Nat
  quar : Bool
  slot : Nat
  lanes : Nat
  deriving DecidableEq, Repr

/-- What management firmware carries in FIRMWARE frames. The payload is no interface (the MGMT SUB table); these are the
contents the rules name: routes and epochs (R379), interrupts (R31), events, resets (R419), sleep (R400), boot images (R426),
attestation (R411), link keys (R412), link reports (R380), the commands that the manager's SCHED sends to a unit and their
ends, and a context's teardown (R344). -/
inductive FwMsg where
  | routes (epoch : Nat) (table : List Nat)
  | routesAck (epoch : Nat)
  | switch (epoch ts : Nat)
  | drained (epoch : Nat)
  | irq (vector : Nat)
  | event (e : Event)
  | chainReset
  | chainResetAck
  | sleep
  | awake
  | image
  | attest (ok : Bool) (check : Nat)
  /-- a key for the idle phase of a port, and the switch to it once both ends hold theirs (R412) -/
  | key (port salt : Nat)
  | keyUse (port : Nat)
  | keyHeld (port : Nat)
  | linkReport (port : Nat) (up : Bool) (serial : Nat)
  | conflict (serial : Nat)
  | timeLocked (on : Bool)
  | cmd (c slotPrio quota coreset seq : Nat) (words : List Word) (data : List Byte)
  | cmdDone (c seq : Nat) (st : Status) (result : Nat) (data : List Byte)
  | fault (c : Nat) (st : Status) (d2 core : Nat)
  | teardown (c : Nat)
  | teardownDone (c : Nat)
  /-- a worker asks for the reset of a context (R401, R414) -/
  | ctxReset (c : Nat)
  /-- a unit that has taken an address: its serial number and slot -/
  | addressed (serial slot : Nat)
  | disablePort (port : Nat)
  /-- the owner of a stream tells the manager the base and the buffer size of its bitstream pool -/
  | streamBound (k base size : Nat)
  /-- an access unit copied into a bitstream buffer of the owner (R159) -/
  | au (k h addr len tag cts : Nat) (est discont start : Bool)
  | requarantine
  /-- the home unit of a route tells the others whether it is a coach route, its core ends, its steps and its end (R338-R343) -/
  | routeKind (r : Nat) (coach : Bool)
  | coreEnd (r core : Nat)
  | stepStart (r addr : Nat) (table : List Byte)
  | intakeFail (r addr seat : Nat)
  | routeEnd (r : Nat)
  /-- a worker's SLV job for a SOLVE: its result record, to be written at OUT before the job's own record follows (R99) -/
  | solveOut (c seq : Nat) (data : List Byte)
  | solveOutDone (c seq : Nat)
  /-- a clip for the VENC of another unit, its answer (R317), its finished object for DEST, and that the object is written -/
  | clipPush (id c camera : Nat) (timed : Bool) (desc masks : List Byte)
  | clipAns (id : Nat) (st : Status)
  | clipData (id c dest : Nat) (data : List Byte)
  | clipWritten (id : Nat)
  /-- a MODEL_LOAD failed on another unit -/
  | modelDrop (m : Nat)
  deriving DecidableEq, Repr

/-- A Grenlink frame (R368 and the frame header table). `fw` is the content of a FIRMWARE payload. The CRC and the GCM tag
are not kept: a frame that fails one arrives as FRAME_CRC_FAILURE. -/
structure Frame where
  cls : Nat
  enc : Bool := false
  kph : Bool := false
  vc : Nat := 0
  dst : Nat := 0
  src : Nat := 0
  hops : Nat := 15
  seq : Nat := 0
  ack : Nat := 0
  nak : Bool := false
  epoch : Nat := 0
  sub : Nat := 0
  arg : Nat := 0
  txid : Nat := 0
  payload : List Byte := []
  fw : Option FwMsg := none
  deriving DecidableEq, Repr

/-- A metadata record before it has an MQ count (R100): its context, its 16 words with PHASE 0, the block type code of its
producer and the producer's job number, and for a record from a worker the unit and transaction it came with. -/
structure MRec where
  ctx : Nat
  words : List Word
  blk : Nat
  job : Nat := 0
  unit : Nat := 0
  txid : Nat := 0
  deriving DecidableEq, Repr

/-- A management message answered: protocol (0 SPDM, 1 MCTP control, 2 PLDM), request code, completion code, and the fields
the rules name. -/
structure MgmtReply where
  proto : Nat
  code : Nat
  status : Nat
  data : List Nat
  deriving DecidableEq, Repr

end Sys2Proof.Machine
end

