-- ==== Sys2Proof/Syntax.lean ====
section
/-! DEFINITION. The commands of the block: one constructor per row of the spec's table of steps (spec/opcode_table.json),
with what each carries from outside. What a step finds in the state (a fetched host command, a queued job, a core's next
command) is not carried: it is read from the state. -/

namespace Sys2Proof

open Machine

/-- The commands of the block. -/
inductive Instr where
  /-- POWER_ON (R418): Rails enter tolerance after power was absent; the unit runs its power-on reset. -/
  | powerOn
  /-- STRAP_SAMPLE (R421): 10 ms after rails are in tolerance, the unit samples ROLE, SMB_ADDR, SLOT_ID, BOOT_ALT and TEST_MODE into TOP_STRAP. -/
  | strapSample (straps : Word)
  /-- PERST_N_ASSERT (R418): PERST_N is asserted while main power is on; the manager resets and runs a chain reset. -/
  | perstNAssert
  /-- PERST_N_RELEASE (R422): PERST_N is released; the manager starts link training and the boot stages. -/
  | perstNRelease
  /-- HOT_RESET (R418): A PCIe hot reset resets the manager except the keep set and runs a chain reset. -/
  | hotReset
  /-- PCIE_LINK_DOWN (R74): The host link goes down outside D3cold; the manager resets as for a hot reset. -/
  | pcieLinkDown
  /-- MAIN_RAIL_LOSS (R439): A main rail leaves tolerance for at least 10 us with standby on; every island except always-on is switched off. -/
  | mainRailLoss
  /-- IMAGE_VERIFIED (R423): The boot ROM finishes loading and verifying a slot image and runs it, or marks the slot FAILED and tries the next. -/
  | imageVerified (img : ImageCheck)
  /-- SLOT_RUNNING_TIMEOUT (R423): Firmware of a started slot has not set MGMT_STAT.RUNNING within 20 ms; the slot fails. -/
  | slotRunningTimeout
  /-- MEMC_TRAINING_DONE (R152): DRAM training of a channel ends, passed or failed. -/
  | memcTrainingDone (ch rate cap ranks : Nat) (ok : Bool)
  /-- ZERO_DONE (R420): Zeroisation of reset pool extents or all usable DRAM ends; ZEROING clears and waiting pool enables proceed. -/
  | zeroDone
  /-- CONFIG_REQUEST (R71): A configuration request is completed, with RRS before readiness or during PF FLR. -/
  | configRequest (fn dw : Nat) (wr : Option (Word × Nat))
  /-- VF_ENABLE (R50): A write of VF Enable is accepted or refused by NumVFs and ARI. -/
  | vfEnable (on : Bool)
  /-- BAR_SIZE (R54): A write of the Resizable BAR size field changes BAR 2 size, ignored while Memory Space Enable is 1. -/
  | barSize (enc : Nat)
  /-- BUS_MASTER_ENABLE (R461): Setting Bus Master Enable issues the queued writes, messages and reads of the function in order. -/
  | busMasterEnable (fn : Nat)
  /-- PF_FLR (R72): Initiate FLR on the PF resets the manager, clears VF Enable and runs a chain reset. -/
  | pfFlr
  /-- VF_FLR (R73): Initiate FLR on a VF tears down its contexts' work and blocks everything towards the VF. -/
  | vfFlr (n : Nat)
  /-- VF_RESET_DONE (R73): The VF teardown ends; the VF's pages reset, HIF_VF_DONE is set and VF_RESET_DONE goes to the PF. -/
  | vfResetDone (n : Nat)
  /-- D3HOT (R397): PMCSR written to D3hot drains the HIF, sleeps the chain, freezes islands and puts DRAM in self-refresh. -/
  | d3hot
  /-- PMCSR_D0 (R398): PMCSR written to D0 unfreezes islands in reverse order and resumes work. -/
  | pmcsrD0
  /-- HIF_LINK_CTL_RETRAIN (R46): A write of RETRAIN retrains the PCIe link under the speed and width caps. -/
  | hifLinkCtlRetrain (v : Word)
  /-- BAR2_WRITE (R103): A host or peer write to BAR 2 or VF BAR 2 is forwarded to MEMC in order, poison applied, lines discarded. -/
  | bar2Write (req fn off : Nat) (data : List Byte) (poisoned ecrcBad : Bool)
  /-- BAR2_READ (R107): A BAR 2 or VF BAR 2 read is served from read-ahead lines or DRAM, checked by the Vent per byte. -/
  | bar2Read (req fn off len : Nat) (ecrcBad : Bool)
  /-- ACQUIRE_READ (R108): A read of a page that is not PREFETCH_OK, or of BAR 0 or BAR 4, discards the requester's lines. -/
  | acquireRead (req fn bar off len : Nat) (ecrcBad : Bool)
  /-- READAHEAD_LINE_EXPIRY (R109): A read-ahead line is discarded at most 100 us after its fill. -/
  | readaheadLineExpiry (req fn line : Nat)
  /-- COMPLETION_RECEIVED (R62): A completion for a device read arrives and is delivered, or discarded when its tag is quarantined. -/
  | completionReceived (tag : Nat) (data : List Byte) (last poisoned ecrcBad : Bool)
  /-- READ_TIMEOUT (R61): The completion timeout of a device read expires; the read fails, the context faults and the tag is quarantined. -/
  | readTimeout (tag : Nat)
  /-- TAG_QUARANTINE_END (R61): A tag's quarantine of twice the effective timeout ends and the tag is free. -/
  | tagQuarantineEnd (tag : Nat)
  /-- PTM_REQUEST (R66): At the programmed interval the HIF issues a PTM request and hands the result to TIME. -/
  | ptmRequest
  /-- ASPM_L1_ENTRY (R68): The HIF transmit queue has been idle for 16 us and the link enters ASPM L1. -/
  | aspmL1Entry
  /-- GPIO_WAKE_EDGE (R399): An enabled GPIO edge wakes the unit in D3hot or D3cold. -/
  | gpioWakeEdge (pin : Nat) (rising : Bool)
  /-- WAKE_TIMER_EXPIRY (R399): PWR_WAKE_TIMER expires and wakes the unit. -/
  | wakeTimerExpiry
  /-- REGISTER_WRITE (R36): A write to a register that has no row of its own is served under the access-width rules. -/
  | registerWrite (src : Src) (bar off : Nat) (ws : List (Word × Nat)) (poisoned ecrcBad : Bool)
  /-- BLK_IRQ_STAT_WRITE (R30): A W1C write of BLK_IRQ_STAT clears bits and sends one message if the request stays asserted. -/
  | blkIrqStatWrite (page : Nat) (v : Word)
  /-- BLK_IRQ_EN_WRITE (R29): A write of BLK_IRQ_EN sends one message if it leaves the request asserted. -/
  | blkIrqEnWrite (page : Nat) (v : Word)
  /-- BLK_IRQ_SET (R30): A write of 1 to BLK_IRQ_SET sets assigned status bits as their sources would. -/
  | blkIrqSet (page : Nat) (v : Word)
  /-- BLK_ERR_CAPT_VALID (R32): Writing 1 to BLK_ERR_CAPT0.VALID re-arms first-error capture and clears MORE. -/
  | blkErrCaptValid (page : Nat) (v : Word)
  /-- SRST (R38): Writing BLK_CTL.SRST quiesces and soft-resets the block's page group. -/
  | srst (page : Nat) (v : Word)
  /-- SRST_DONE (R38): The block soft reset ends and SRST clears. -/
  | srstDone (page : Nat)
  /-- QUIESCE_REQ (R25): Writing BLK_CTL.QUIESCE_REQ asks the block to stop and drain its transfers. -/
  | quiesceReq (page : Nat) (v : Word)
  /-- QUIESCED (R25): The block has no transfer outstanding and reports quiesced. -/
  | quiesced (page : Nat)
  /-- PERF_FREEZE (R33): Writing BLK_CTL.PERF_FREEZE holds or releases every counter of the page. -/
  | perfFreeze (page : Nat) (v : Word)
  /-- NOC_PORT_ISO_SET (R25): Isolates island local ports, refusing islands not quiesced. -/
  | nocPortIsoSet (v : Word)
  /-- NOC_PORT_ISO_CLR (R25): Releases isolation of island local ports. -/
  | nocPortIsoClr (v : Word)
  /-- CLK_ISL_FREQ (R24): A frequency request for an island stops its clock and retunes it, or is refused by range or supply. -/
  | clkIslFreq (isl : Nat) (v : Word)
  /-- ISLAND_RELOCK (R24): The island's synthesiser locks and its handshakes resume. -/
  | islandRelock (isl : Nat)
  /-- PWR_ISL_CTL (R14): A write switches an island on or off, with retention, or sets its VSEL. -/
  | pwrIslCtl (isl : Nat) (v : Word)
  /-- REMOTE_READ (R40): A read in a remote window is forwarded to unit u in a MGMT frame, or returns 0 for a lost unit. -/
  | remoteRead (src : Src) (unit off : Nat)
  /-- REMOTE_WRITE (R40): A write in a remote window is forwarded to unit u, or dropped for a lost unit. -/
  | remoteWrite (src : Src) (unit off : Nat) (v : Word) (be : Nat)
  /-- REMOTE_READ_TIMEOUT (R43): A remote read unanswered for 50 us returns 0 and records REMOTE_LOST. -/
  | remoteReadTimeout (txid : Nat)
  /-- BPM_RETURN (R12): The BPM leaves reset and applies held reference operations and owner lookups in order. -/
  | bpmReturn
  /-- SCHED_RESET_END (R12): SCHED leaves reset and acts on the latched doorbell values. -/
  | schedResetEnd
  /-- STAGED_EVENT_WRITE (R12): A staged event is written when its ring accepts it, carrying the lost count. -/
  | stagedEventWrite (plane : Nat)
  /-- CTX_OPEN (R78): A write of CTX_CTL.OPEN opens a closed context or is refused with CFG_ERR. -/
  | ctxOpen (src : Src) (c : Nat) (v : Word)
  /-- CTX_RESET (R90): A write of CTX_CTL.RESET tears down the context's work without a fault event. -/
  | ctxReset (src : Src) (c : Nat) (v : Word)
  /-- CTX_RESET_DONE (R90): The context reset clears counts and windows and the context reaches CLOSED. -/
  | ctxResetDone (c : Nat)
  /-- DEV_EVENTS (R91): A write of CTX_CTL.DEV_EVENTS makes the context's EQ the device event ring, or is ignored. -/
  | devEvents (src : Src) (c : Nat) (v : Word)
  /-- DB_SQ_TAIL (R83): A write of the SQ producer count announces commands, or is ignored and counted. -/
  | dbSqTail (src : Src) (c : Nat) (v : Word) (be : Nat)
  /-- DB_CQ_HEAD (R83): A write of the CQ consumer count frees completion space. -/
  | dbCqHead (src : Src) (c : Nat) (v : Word) (be : Nat)
  /-- DB_EQ_HEAD (R83): A write of the EQ consumer count frees event space. -/
  | dbEqHead (src : Src) (c : Nat) (v : Word) (be : Nat)
  /-- DB_MQ_HEAD (R83): A write of the MQ consumer count frees metadata space. -/
  | dbMqHead (src : Src) (c : Nat) (v : Word) (be : Nat)
  /-- CTX_IN_DB (R158): A write of a stream's ingress doorbell announces ingress entries, or is ignored and counted. -/
  | ctxInDb (src : Src) (c : Nat) (v : Word) (be : Nat)
  /-- NOP (R96): The NOP host command completes with RESULT 0. -/
  | hostNop (c : Nat)
  /-- MODEL_LOAD (R227): Loads and checks a model image and pins its weights on the units of UNIT_MASK. -/
  | modelLoad (c : Nat)
  /-- MODEL_UNLOAD (R210): Stops the model's routes, then frees its image and pinned weights. -/
  | modelUnload (c : Nat)
  /-- GRAPH_LAUNCH (R338): Maps a model onto cores, runs the launch steps and starts a free or coach route. -/
  | graphLaunch (c : Nat)
  /-- GRAPH_STOP (R339): Closes boarding of a route, lets boarded steps end, releases waiting pictures and ends the route. -/
  | graphStop (c : Nat)
  /-- STREAM_ATTACH (R154): Attaches a stream to a unit, binds a decode engine and initialises its ingress ring. -/
  | streamAttach (c : Nat)
  /-- STREAM_DETACH (R176): Ends a stream's fetching, queues, retention and DPB and frees the stream ID. -/
  | streamDetach (c : Nat)
  /-- SOLVE (R295): Copies a solver job record to the SLV queue of UNIT and writes the result record at OUT. -/
  | solve (c : Nat)
  /-- CLIP_REQUEST (R317): Checks a clip descriptor, assigns a clip ID and queues the clip on the owning unit's VENC. -/
  | clipRequest (c : Nat)
  /-- TT_ARM (R356): Writes a timetable entry and makes the context its owner, or refuses for another owner. -/
  | ttArm (c : Nat)
  /-- TT_DISARM (R356): Sets an owned timetable entry's ACTION to NONE at one TCLK edge. -/
  | ttDisarm (c : Nat)
  /-- BUF_ALLOC (R125): Allocates a buffer for the context slot, immediately or blocking, under admission and the ledger. -/
  | bufAlloc (c : Nat)
  /-- BUF_REF (R129): Increments a buffer's count and raises the slot's ledger entry. -/
  | bufRef (c : Nat)
  /-- BUF_UNREF (R129): Decrements a buffer's count and the slot's ledger entry, freeing the buffer at zero. -/
  | bufUnref (c : Nat)
  /-- POOL_CONFIG (R122): Applies a pool configuration record and requester table, or refuses it with a reason. -/
  | poolConfig (c : Nat)
  /-- COMMAND_COMPLETE (R88): A host command finishes and its completion record is written, held while the CQ is full. -/
  | commandComplete (c : Nat)
  /-- TEARDOWN_DONE (R344): Teardown of a faulted context ends on every unit and the fault event is written. -/
  | teardownDone (c : Nat)
  /-- METADATA_RECORD (R100): A metadata record is accepted by the manager HIF with an MQ producer count and written, waiting while the MQ is full. -/
  | metadataRecord (c : Nat)
  /-- MODERATION_TIMEOUT (R95): TIME_US has passed since the first unannounced record and the ring becomes due. -/
  | moderationTimeout (c ring : Nat)
  /-- CTX_PF_CTL (R112): A write of range enables enables PREFETCH_OK ranges or refuses them. -/
  | ctxPfCtl (src : Src) (c : Nat) (v : Word)
  /-- POOL_ENABLE (R460): A write of BPM_POOL_CFG2 enables, disables or changes a pool under the checks, retiring table pages. -/
  | poolEnable (p : Nat) (v : Word)
  /-- BPM_RQ_QUOTA (R122): A write sets the selected requester's quota in the selected pool under the checks. -/
  | bpmRqQuota (v : Word)
  /-- BPM_RQ_RESERVE (R122): A write sets the selected requester's reserve in the selected pool under the checks. -/
  | bpmRqReserve (v : Word)
  /-- BPM_OWN_ADDR_HI (R135): A write starts an owner-table lookup of a DRAM address. -/
  | bpmOwnAddrHi (v : Word)
  /-- ALLOC (R121): An allocation by an engine, core or remote frame is admitted or fails or waits. -/
  | alloc (rq ctx pool : Nat) (blocking : Bool) (tag : Nat) (via : Option (Nat × Frame))
  /-- INC (R129): A reference increment by an engine, core or remote frame is applied once. -/
  | inc (rq ctx h tag : Nat) (via : Option (Nat × Frame))
  /-- DEC (R130): A reference decrement by an engine, core or remote frame is applied once, freeing or retiring at zero. -/
  | dec (rq ctx h tag : Nat) (via : Option (Nat × Frame))
  /-- BPM_WAIT_TIMEOUT (R125): A blocking allocation's timeout expires and it fails with its last failed check. -/
  | bpmWaitTimeout (id : Nat)
  /-- SCRUB_READ (R147): The scrubber reads, corrects and writes back a sector as one serialised access. -/
  | scrubRead
  /-- RAS_RETIRE_PAGE (R151): A firmware write restores a retirement table entry. -/
  | rasRetirePage (src : Src) (v : Word)
  /-- RAS_INJ_CTL (R457): A write arms an error injection consumed by the next write to the named sector. -/
  | rasInjCtl (v : Word)
  /-- IDLE (R372): An IDLE frame returns credits and acknowledgements. -/
  | idle (p : Nat) (f : Frame)
  /-- FRAME_CRC_FAILURE (R370): A Grenlink frame arrives with a failing CRC or GCM tag; it is discarded, counted, and NAK is sent once. -/
  | frameCrcFailure (p : Nat) (tagBad : Bool)
  /-- REPLAY_TIMEOUT (R370): GLK_REPLAY_TMO passes without the ACK advancing and unacknowledged frames are resent. -/
  | replayTimeout (p : Nat)
  /-- LANE_LOCK_LOSS (R371): Every lane of a port loses lock for 1 us. -/
  | laneLockLoss (p : Nat)
  /-- CHAIN_RESET (R419): A worker receives a chain reset and releases its slots, pools, streams, routes and entries. -/
  | chainReset
  /-- PF_FLR_DONE (R72): The PF FLR and its chain reset complete, HIF_FLR_STAT.PF clears, and configuration requests stop receiving RRS. -/
  | pfFlrDone
  /-- UNIT_SRST (R419): A write of TOP_CTL.UNIT_SRST soft-resets the unit, refused on a worker in use. -/
  | unitSrst
  /-- CHAIN_RST (R418): A write of TOP_CTL.CHAIN_RST on the manager resets every worker. -/
  | chainRst
  /-- STANDBY_POWER_LOSS (R375): The standby rails are removed, so the always-on island loses the reservation table, wake registers and trip record. -/
  | standbyPowerLoss
  /-- INGRESS_ENTRY (R159): CHAIN checks an ingress entry, copies its payload into a bitstream buffer and advances CONS. -/
  | ingressEntry (stream : Nat) (onePic start : Bool)
  /-- PICTURE_DECODE_START (R156): A ready stream takes its engine at a picture boundary and decoding of its picture starts. -/
  | pictureDecodeStart (engine : Nat) (au : AuRead)
  /-- PICTURE_DECODE_DONE (R173): A picture's decode completes; outputs go to the ready queue and references move. -/
  | pictureDecodeDone (engine : Nat) (pic : PicRead)
  /-- SEND (R213): Sends a message from the AS to a channel, waiting for credit. -/
  | send (core : Nat) (halo : Bool)
  /-- RECV (R214): Releases slots with their credits, then waits for AWAIT messages. -/
  | recv (core : Nat)
  /-- SIGNAL (R219): Adds VALUE to a signal counter of a target core. -/
  | signal (core : Nat)
  /-- WAIT (R219): Waits until a signal counter reaches VALUE and subtracts it. -/
  | wait (core : Nat)
  /-- BARRIER (R220): Joins a range of logical cores through counter 15. -/
  | barrier (core : Nat)
  /-- LOOP (R221): Runs the following body COUNT times. -/
  | loop (core : Nat)
  /-- BRANCH (R221): Branches to TARGET when its condition holds. -/
  | branch (core : Nat)
  /-- TIMEWAIT (R222): Stops issue until shop time reaches T. -/
  | timewait (core : Nat)
  /-- TIMEWAIT_REACHED (R222): Shop time reaches T and issue resumes within 50 ns. -/
  | timewaitReached (core : Nat)
  /-- SEQ_WAIT_TIMEOUT (R216): A RECV, WAIT or BARRIER has waited SEQ_WAIT_TMO and fails with CTX_FAULT_TIMEOUT. -/
  | seqWaitTimeout (core : Nat)
  /-- MOVE (R226): Copies rows between AS, DRAM, IMEM and LUT. -/
  | move (core : Nat)
  /-- WSTREAM (R206): Streams weights into a weight-stage half, alone or by multicast. -/
  | wstream (core : Nat)
  /-- WSU_MCAST_TIMEOUT (R208): Not all multicast members joined within WSU_MCAST_TMO; waiting members fail. -/
  | wsuMcastTimeout (group : Nat)
  /-- MATMUL (R228): Runs a matrix product pass on the MXU with its epilogue. -/
  | matmul (core sub : Nat) (par : Bool)
  /-- CONV (R243): Runs a convolution through the ADG and MXU with its epilogue. -/
  | conv (core sub : Nat) (par : Bool)
  /-- DWCONV (R250): Runs a depthwise or grouped convolution on the VEC depthwise path. -/
  | dwconv (core : Nat)
  /-- VEC (R273): Runs the vector program at ENTRY TILES times in bank 0. -/
  | vec (core : Nat)
  /-- EPILOGUE_TILE (R272): A vector-program epilogue runs on one output tile in bank 1. -/
  | epilogueTile (core : Nat)
  /-- VNOP (R256): Vector no-operation. -/
  | vnop (core : Nat)
  /-- VADD (R257): Adds vectors on active lanes. -/
  | vadd (core : Nat)
  /-- VSUB (R257): Subtracts vectors on active lanes. -/
  | vsub (core : Nat)
  /-- VMUL (R257): Multiplies vectors on active lanes. -/
  | vmul (core : Nat)
  /-- VFMA (R257): Fused multiply-add on F32 lanes. -/
  | vfma (core : Nat)
  /-- VMIN (R257): Lane-wise minimum. -/
  | vmin (core : Nat)
  /-- VMAX (R257): Lane-wise maximum. -/
  | vmax (core : Nat)
  /-- VABS (R257): Lane-wise absolute value. -/
  | vabs (core : Nat)
  /-- VNEG (R257): Lane-wise negation. -/
  | vneg (core : Nat)
  /-- VDIV (R257): Correctly rounded F32 division. -/
  | vdiv (core : Nat)
  /-- VSQRT (R257): Correctly rounded F32 square root. -/
  | vsqrt (core : Nat)
  /-- VMULQ (R258): Exact I32 product with rounding shift, saturated. -/
  | vmulq (core : Nat)
  /-- VAND (R256): Bitwise AND. -/
  | vand (core : Nat)
  /-- VOR (R256): Bitwise OR. -/
  | vor (core : Nat)
  /-- VXOR (R256): Bitwise XOR. -/
  | vxor (core : Nat)
  /-- VSHL (R256): Shift left by b mod 32. -/
  | vshl (core : Nat)
  /-- VSHR (R256): Shift right, arithmetic for I32 and logical for U32. -/
  | vshr (core : Nat)
  /-- VCVT (R258): Converts between integer and F32. -/
  | vcvt (core : Nat)
  /-- VCMP (R256): Compares lanes into a predicate. -/
  | vcmp (core : Nat)
  /-- PAND (R256): Predicate AND. -/
  | pand (core : Nat)
  /-- POR (R256): Predicate OR. -/
  | por (core : Nat)
  /-- PNOT (R256): Predicate NOT. -/
  | pnot (core : Nat)
  /-- PFIRST (R256): Sets a predicate for lanes below s[A]. -/
  | pfirst (core : Nat)
  /-- VSEL (R256): Selects per lane by predicate. -/
  | vsel (core : Nat)
  /-- VPERM (R256): Permutes lanes. -/
  | vperm (core : Nat)
  /-- VBCAST (R256): Broadcasts a scalar to every lane. -/
  | vbcast (core : Nat)
  /-- VIOTA (R256): Writes the lane index into each lane. -/
  | viota (core : Nat)
  /-- VEXT (R256): Extracts a lane into a scalar. -/
  | vext (core : Nat)
  /-- VINS (R256): Inserts a scalar into a lane. -/
  | vins (core : Nat)
  /-- VRED (R258): Reduces active lanes in ascending order into a scalar. -/
  | vred (core : Nat)
  /-- VACT (R262): Applies an activation function. -/
  | vact (core : Nat)
  /-- VLUT (R263): Table interpolation over a LUT table. -/
  | vlut (core : Nat)
  /-- VLD (R259): Loads AS elements into lanes with conversion. -/
  | vld (core : Nat)
  /-- VST (R259): Stores lanes to AS elements with conversion. -/
  | vst (core : Nat)
  /-- SLD (R256): Loads a 32-bit scalar from the AS. -/
  | sld (core : Nat)
  /-- SST (R256): Stores a 32-bit scalar to the AS. -/
  | sst (core : Nat)
  /-- VTIN (R272): Loads a tile row into a vector in bank 1. -/
  | vtin (core : Nat)
  /-- VSEND (R213): Sends a message from the AS under the channel rules. -/
  | vsend (core : Nat)
  /-- SADD (R256): Scalar wrapping add. -/
  | sadd (core : Nat)
  /-- SSUB (R256): Scalar wrapping subtract. -/
  | ssub (core : Nat)
  /-- SMUL (R256): Scalar wrapping multiply. -/
  | smul (core : Nat)
  /-- SLI (R256): Loads an immediate into a scalar. -/
  | sli (core : Nat)
  /-- SAND (R256): Scalar AND. -/
  | sand (core : Nat)
  /-- SOR (R256): Scalar OR. -/
  | sor (core : Nat)
  /-- SSHL (R256): Scalar shift left. -/
  | sshl (core : Nat)
  /-- SSHR (R256): Scalar shift right. -/
  | sshr (core : Nat)
  /-- JMP (R273): Jumps to an IMEM index. -/
  | jmp (core : Nat)
  /-- BZ (R273): Branches when s[A] is zero. -/
  | bz (core : Nat)
  /-- BNZ (R273): Branches when s[A] is not zero. -/
  | bnz (core : Nat)
  /-- VEND (R272): Ends the tile program or the VEC iteration. -/
  | vend (core : Nat)
  /-- JOB_PUSH_HI (R177): A write of JOB_PUSH_HI pushes a JPEG or PPU job, or refuses it. -/
  | jobPushHi (q : Nat) (src : Src) (v : Word)
  /-- DPP_JOB_PUSH_HI (R277): A write pushes a DPP job or refuses it. -/
  | dppJobPushHi (src : Src) (v : Word)
  /-- SLV_JOB_PUSH_HI (R294): A write pushes an SLV job or refuses it. -/
  | slvJobPushHi (src : Src) (v : Word)
  /-- END (R223): Stops issue and reports program completion when slots free. -/
  | end_ (core : Nat)
  /-- CCMD_COMPLETE (R199): A core command's writes are acknowledged; its slot frees and dependents may issue. -/
  | ccmdComplete (core id : Nat)
  /-- CREDIT_TIMEOUT (R216): A SEND has waited for credit for MBX_CREDIT_TMO and faults the context. -/
  | creditTimeout (core sub : Nat)
  /-- MXU_PREEMPT_TIMEOUT (R240): A started pass has not reached its front within MXU_PREEMPT_TMO and is cut. -/
  | mxuPreemptTimeout (core : Nat)
  /-- PREEMPT (R336): SCHED preempts a core program for a strictly higher priority and saves its state. -/
  | preempt (core : Nat)
  /-- RESUME (R337): A preempted program becomes runnable and is restored on its core. -/
  | resume (core : Nat)
  /-- STEP_START (R343): The previous step has ended; the seat table is written and core programs start. -/
  | stepStart (r : Nat)
  /-- SEAT_RELEASE (R343): A seat's jobs have completed and it releases its picture reference. -/
  | seatRelease (r q : Nat)
  /-- STEP_END (R343): Every core reached END and every seat was released; the step ends. -/
  | stepEnd (r : Nat)
  /-- SCHED_CORE_OFF (R348): A write takes cores out of service or returns them, refusing mapped cores. -/
  | schedCoreOff (src : Src) (v : Word)
  /-- JPEG_JOB_START (R180): The JPEG decoder starts a job, parses up to SOF and checks it before allocating. -/
  | jpegJobStart
  /-- JPEG_JOB_DONE (R182): A JPEG job completes and its output reference passes to the seat or ledger. -/
  | jpegJobDone (blocks : Nat)
  /-- PPU_JOB_START (R194): A PPU starts a job, checks it and takes its references. -/
  | ppuJobStart (n : Nat)
  /-- PPU_JOB_DONE (R178): A PPU job's writes are acknowledged; references release, status, NOTIFY and IRQ follow. -/
  | ppuJobDone (n : Nat)
  /-- DECODE_NMS (R282): A DPP job decodes candidates, sorts them, suppresses overlaps and emits detections. -/
  | decodeNms
  /-- EMIT (R286): A DPP job checks and emits core-built records in buffer order. -/
  | emit
  /-- DPP_JOB_DONE (R288): Every record of a DPP job is accepted; status, NOTIFY and completion follow. -/
  | dppJobDone
  /-- HEARTBEAT (R290): Once per CTX_HB_PERIOD firmware emits a HEARTBEAT record to the context. -/
  | heartbeat (c : Nat)
  /-- FACTOR (R302): Factors a symmetric system by LDLT, solves and refines. -/
  | factor
  /-- ASSEMBLE (R308): Assembles normal equations for one camera and optionally solves. -/
  | assemble
  /-- TRIANGULATE (R309): Solves one 3-D point from views and emits POSITION_3D. -/
  | triangulate
  /-- TRACK_UPDATE (R310): Applies Kalman updates to entries of a track table. -/
  | trackUpdate
  /-- BUNDLE (R311): Starts a bundle adjustment of cameras and points. -/
  | bundle
  /-- BUNDLE_SUBOP (R312): One bundle sub-operation runs after queued live jobs. -/
  | bundleSubop
  /-- SLV_JOB_DONE (R294): An SLV job completes; result record, record emission, NOTIFY and IRQ follow. -/
  | slvJobDone
  /-- CLIP_START (R319): VENC accepts a clip, selects its first start point and takes span references. -/
  | clipStart
  /-- CLIP_WAIT_EXPIRY (R319): WAIT_MS passes before END_CTS arrives and the span stops growing with END_SHORT. -/
  | clipWaitExpiry (id : Nat)
  /-- ENCODE_PICTURE (R323): VENC masks, scales and encodes one decoded clip picture. -/
  | encodePicture (bytes qp : Nat)
  /-- CLIP_CLOSE (R328): The clip closes; the object is encrypted and copied to DEST. -/
  | clipClose
  /-- SUBMIT (R360): A due entry adds N to the owner's DB_SQ_TAIL count. -/
  | submit (e : Nat)
  /-- CLOSE (R361): A due entry closes a capture instant and hands it to the route. -/
  | close (e : Nat)
  /-- PPU (R360): A due entry pushes a PPU descriptor as a TIME push. -/
  | ppu (e : Nat)
  /-- CLIP (R360): A due entry requests a clip as a TIME push. -/
  | clip (e : Nat)
  /-- SYNC (R360): A due entry drives SYNC_OUT high for ARG microseconds. -/
  | sync (e : Nat)
  /-- SYNC_PULSE_END (R360): A SYNC pulse's duration expires and SYNC_OUT falls. -/
  | syncPulseEnd
  /-- LATE_RETRY (R362): Every 100 us a refused RUN_LATE push is retried. -/
  | lateRetry (e : Nat)
  /-- SYNC_IN (R355): A rising edge of SYNC_IN is captured in shop time. -/
  | syncIn
  /-- TIME_STEP_HI (R352): A write applies the signed step to shop time. -/
  | timeStepHi (src : Src) (v : Word)
  /-- TIME_FRAME_SEND (R353): Every 1 ms a unit sends TIME frames downstream and delay exchanges. -/
  | timeFrameSend
  /-- TIME (R354): A TIME frame is received; the worker measures its error and corrects shop time. -/
  | time (p origin corr delay : Nat)
  /-- TIME_FRAME_LOSS (R354): No TIME frame for 10 ms clears lock. -/
  | timeFrameLoss
  /-- PTM_RESPONSE (R66): A PTM response from the host completes the HIF's PTM exchange, and its result is handed to TIME for discipline and lock evaluation. -/
  | ptmResponse (master : Nat)
  /-- HELD_REPORT_RELEASE (R363): The 100 ms limit for an entry's LAUNCH_LATE expires and the held report is raised with its accumulated counts. -/
  | heldReportRelease (e : Nat)
  /-- GOVERNOR_EVAL (R388): Every 1 ms the governor compares power with the cap and moves GOV_LEVEL. -/
  | governorEval (mw : Nat)
  /-- THERMAL_SAMPLE (R392): Every 1 ms the hottest sensor moves THERM_LEVEL. -/
  | thermalSample (readings : List Int)
  /-- PWR_PROFILE (R390): A write sets PWR_CAP and PWR_LVL_MIN together. -/
  | pwrProfile (v : Word)
  /-- FUMAROLE (R394): A request enters Fumarole, or is refused with a reason. -/
  | fumarole (v : Word)
  /-- FUMAROLE_EXIT (R396): A D0 request or an accepted DETECTION returns the unit from Fumarole. -/
  | fumaroleExit (req : Option Word)
  /-- UNIT_LOST (R381): The manager declares a worker lost and tears down its contexts, streams and routes. -/
  | unitLost (u reason : Nat)
  /-- KEEPALIVE_TIMEOUT (R381): A worker unanswered for 5 ms is declared lost. -/
  | keepaliveTimeout (u : Nat)
  /-- WAKE_REPORT_TIMEOUT (R400): A worker has not reported awake 100 ms after the manager's wake and is declared LOST. -/
  | wakeReportTimeout (u : Nat)
  /-- QUARANTINE_TIMEOUT (R377): Join conditions still unmet 10 s after entry raise UNIT_QUARANTINED with TIMEOUT. -/
  | quarantineTimeout (u : Nat)
  /-- EPOCH_SWITCH (R379): At T_s every unit stamps new frames with the next epoch and reissues transactions. -/
  | epochSwitch
  /-- OFFLINE_REQ (R382): A request removes a unit at the next epoch, or is refused with OFF_REFUSED. -/
  | offlineReq (slot : Nat) (v : Word)
  /-- CHAIN_ADMIT (R377): A write admits quarantined units for joining. -/
  | chainAdmit (v : Word)
  /-- CHAIN_RES_SER_HI (R375): A write sets or clears the reserved serial number of an address. -/
  | chainResSerHi (v : Word)
  /-- I2C_POLL (R383): Every CHAIN_I2C_PERIOD the manager polls slot controllers and mirrors them. -/
  | i2cPoll (polls : List SlotPoll)
  /-- GLK_LINK_UP (R367): A Grenlink port finishes training, checks roles and resumes or restarts replay state. -/
  | glkLinkUp (p : Nat) (r : PeerRep)
  /-- GLK_CTL_RETRAIN (R367): A write of RETRAIN retrains a Grenlink port. -/
  | glkCtlRetrain (p : Nat) (v : Word)
  /-- LOSS_HOLD_EXPIRY (R381): A link stays down beyond CHAIN_LOSS_HOLD; replay state and keys go and loss may follow. -/
  | lossHoldExpiry (u p : Nat)
  /-- KEEPALIVE_TICK (R381): Every 1 ms the manager sends KEEPALIVE frames. -/
  | keepaliveTick
  /-- LINK_KEY_ROLLOVER (R412): After 2^40 frames or 24 h a link direction gets a new key. -/
  | linkKeyRollover (u p : Nat)
  /-- WATCHDOG_EXPIRY (R427): The 500 ms MGMT watchdog expires; MGMT restarts or halts. -/
  | watchdogExpiry
  /-- SEC_LC_REQ_PROVISIONED (R401): A lifecycle request moves BLANK to PROVISIONED or is refused. -/
  | secLcReqProvisioned (auth : Bool) (owner dbgMax ev : Nat) (kek : Bool)
  /-- SEC_LC_REQ_SEALED (R401): A lifecycle request seals the unit at the next power-on or is refused. -/
  | secLcReqSealed (auth : Bool)
  /-- SEC_LC_REQ_DECOMMISSIONED (R401): A lifecycle request decommissions the unit and erases keys and memory. -/
  | secLcReqDecommissioned (auth : Bool)
  /-- SEC_COMMIT (R404): Raises SVN floors and sets revocation bits irreversibly. -/
  | secCommit (v : Word)
  /-- DBG_CHAL0 (R414): A read of DBG_CHAL0 draws a fresh nonce. -/
  | dbgChal0 (req : Nat)
  /-- DBG_UNLOCK (R414): A token is checked, contexts reset and zeroisation starts, or the unlock is refused. -/
  | dbgUnlock (tap : Bool) (tok : List Byte) (sig : Bool)
  /-- DEBUG_UNLOCKED (R414): Zeroisation ends and the debug level opens. -/
  | debugUnlocked
  /-- DBG_LOCK (R413): Lowers the debug level. -/
  | dbgLock (v : Word)
  /-- DBG_MEMORY_READ (R406): A TAP or DBG memory read is served with blocked classes as zeros. -/
  | dbgMemoryRead (req : Nat) (core : Option Nat) (a len : Nat)
  /-- GET_VERSION (R409): An SPDM GET_VERSION request is answered. -/
  | getVersion
  /-- GET_CAPABILITIES (R409): An SPDM GET_CAPABILITIES request is answered. -/
  | getCapabilities
  /-- NEGOTIATE_ALGORITHMS (R409): An SPDM NEGOTIATE_ALGORITHMS request is answered. -/
  | negotiateAlgorithms
  /-- GET_DIGESTS (R409): An SPDM GET_DIGESTS request is answered. -/
  | getDigests
  /-- GET_CERTIFICATE (R409): An SPDM GET_CERTIFICATE request returns a slot's chain. -/
  | getCertificate (slot off len : Nat)
  /-- CHALLENGE (R409): An SPDM CHALLENGE is signed. -/
  | challenge (slot : Nat)
  /-- GET_MEASUREMENTS (R410): Returns measurement blocks 1-7. -/
  | getMeasurements (index : Nat) (sign : Bool)
  /-- MGMT_UPD_CTL (R424): START verifies a bundle and writes it into the inactive slot as PENDING. -/
  | mgmtUpdCtl (v : Word)
  /-- UPD_DONE (R424): A firmware update ends DONE or FAILED. -/
  | updDone (img : ImageCheck) (flashOk : Bool)
  /-- STATUS (R429): SMBus block read of unit status. -/
  | status (withPec : Bool)
  /-- ALERT (R429): SMBus block read of TOP_ALERT_STAT. -/
  | alert (withPec : Bool)
  /-- ALERT_CLEAR (R429): SMBus block write clears alert bits. -/
  | alertClear (v : Word) (p : Option Byte)
  /-- SERIAL (R429): SMBus block read of the serial number. -/
  | serial (withPec : Bool)
  /-- TRIP (R429): SMBus block read of PWR_TRIP_REC. -/
  | trip (withPec : Bool)
  /-- ALERT_RESPONSE_ADDRESS (R430): An ARA read is answered and ALERT_N released. -/
  | alertResponseAddress
  /-- SET_ENDPOINT_ID (R431): MCTP control sets the endpoint ID. -/
  | setEndpointId (eid : Nat)
  /-- GET_ENDPOINT_ID (R431): MCTP control returns the endpoint ID. -/
  | getEndpointId
  /-- GET_MCTP_VERSION_SUPPORT (R431): MCTP control returns version support. -/
  | getMctpVersionSupport
  /-- GET_MESSAGE_TYPE_SUPPORT (R431): MCTP control returns message types. -/
  | getMessageTypeSupport
  /-- GETTID (R431): PLDM Type 0 GetTID. -/
  | gettid
  /-- GETPLDMVERSION (R431): PLDM Type 0 GetPLDMVersion. -/
  | getpldmversion
  /-- GETPLDMTYPES (R431): PLDM Type 0 GetPLDMTypes. -/
  | getpldmtypes
  /-- GETPLDMCOMMANDS (R431): PLDM Type 0 GetPLDMCommands. -/
  | getpldmcommands (type : Nat)
  /-- GETSENSORREADING (R432): PLDM Type 2 returns a sensor reading. -/
  | getsensorreading (id : Nat)
  /-- GETPDRREPOSITORYINFO (R431): PLDM Type 2 returns PDR repository information. -/
  | getpdrrepositoryinfo
  /-- GETPDR (R431): PLDM Type 2 returns a PDR. -/
  | getpdr (h : Nat)
  /-- SETEVENTRECEIVER (R431): PLDM Type 2 sets the event receiver. -/
  | seteventreceiver (eid : Nat)
  /-- TIME_NOW_LO (R350): A read returns shop time and latches HI and FRAC. -/
  | timeNowLo (req : Nat)
  /-- VENT_LAST_ADDR_LO (R407): A read returns the captured address, latches HI and restarts capture. -/
  | ventLastAddrLo (req : Nat)
  /-- MESSAGE (R213): A message lands in its channel slot and ARRIVED advances once. -/
  | message (core ch : Nat) (via : Option (Nat × Frame))
  /-- CREDIT (R212): Returned credits reach the sender's outbound table. -/
  | credit (core : Nat) (via : Option (Nat × Frame))
  /-- SIGNAL_FRAME (R219): A SIGNAL from another unit adds to a counter of a route bank. -/
  | signalFrame (p : Nat) (f : Frame)
  /-- WRITE (R374): A DATA WRITE frame is applied once at its destination. -/
  | write (p : Nat) (f : Frame)
  /-- READ (R374): A DATA READ frame is applied once and answered. -/
  | read (p : Nat) (f : Frame)
  /-- RESPONSE (R374): A response completes its outstanding transaction or is discarded. -/
  | response (p : Nat) (f : Frame)
  /-- RECORD (R288): Metadata records from a worker reach the manager's HIF. -/
  | record (p : Nat) (f : Frame)
  /-- REG_READ (R42): A remote register read is applied once at the target. -/
  | regRead (p : Nat) (f : Frame)
  /-- REG_WRITE (R42): A remote register write is applied once at the target. -/
  | regWrite (p : Nat) (f : Frame)
  /-- REG_RESP (R43): A remote read response completes the read or is discarded when late. -/
  | regResp (p : Nat) (f : Frame)
  /-- KEEPALIVE (R381): A worker's hardware answers a KEEPALIVE. -/
  | keepalive (p : Nat) (f : Frame)
  /-- JOIN (R376): The manager chooses an address for a new peer and sends a directed waybill. -/
  | join (p : Nat) (f : Frame)
  /-- FIRMWARE (R411): A firmware MGMT frame carries routes, attestation, keys, events or boot images. -/
  | firmware (p : Nat) (f : Frame)
  /-- SLEEP (R400): A worker receives SLEEP, drains, freezes and takes its links down. -/
  | sleep (fr : Option (Nat × Frame))
  /-- WAYBILL (R375): A waybill is received; an unaddressed unit takes an address and forwards or returns it. -/
  | waybill (p : Nat) (f : Frame)
  /-- PCIE_LINK_UP (R46): PCIe link training ends and the link becomes active at a negotiated speed and width, updating HIF_LINK_STAT and raising LINK_CHANGE. -/
  | pcieLinkUp (speed width : Nat)
  deriving DecidableEq, Repr

end Sys2Proof
end

