-- ==== Sys2Proof/Decode.lean ====
section
/-! DEFINITION. The words that spell commands. The table of the spec's steps (spec/opcode_table.json) gives no row any bits: no word
spells a command of this block. -/

namespace Sys2Proof

/-- The command that a word of `nbits` bits spells: none, since no row of the table has bits. -/
def decodeTableWord (_nbits _w : Nat) : Option Instr := none

end Sys2Proof
end

