-- ==== Sys2Proof/Config.lean ====
section
/-! DEFINITION. What the spec leaves open: uninterpreted functions without a body. Nothing can be proved of a value of one
of them, so whatever is proved of the model holds for every such value. -/

namespace Sys2Proof

/-- A free number: the value a read of an RsvdP field or of a field with a base-specification default returns, and every
other plain number the spec leaves open (R5, R49). The argument is a tag that tells the uses apart. -/
opaque Config.freeNat : Nat → Nat → Nat

/-- Free bytes: content whose computation the spec refers to an external standard. First argument: which content; second:
a draw counter of the state; third: how many bytes are asked. -/
opaque Config.freeByte : Nat → Nat → Nat → Byte

end Sys2Proof
end

