-- ==== Sys2Proof/Machine/Bits.lean ====
section
/-! DEFINITION. Bit fields, saturation, byte order (R4) and signed readings of the words of the spec. -/

namespace Sys2Proof

/-- The field of `len` bits whose lowest bit is `lo`. -/
def Word.fld (w : Word) (lo len : Nat) : Nat := (w.toNat >>> lo) % 2 ^ len

/-- Bit `i`. -/
def Word.bit (w : Word) (i : Nat) : Bool := w.getLsbD i

/-- The word with the field of `len` bits at `lo` replaced by `v`. -/
def Word.setFld (w : Word) (lo len v : Nat) : Word :=
  Word.ofNat (w.toNat - w.fld lo len * 2 ^ lo + v % 2 ^ len * 2 ^ lo)

/-- The word with bit `i` set to `b`. -/
def Word.setBit (w : Word) (i : Nat) (b : Bool) : Word := w.setFld i 1 (if b then 1 else 0)

/-- A field of a number, as `Word.fld`. -/
def fldN (v lo len : Nat) : Nat := (v >>> lo) % 2 ^ len

/-- Bit `i` of a number. -/
def bitN (v i : Nat) : Bool := v.testBit i

/-- `n + d`, saturating at `cap`. -/
def satAdd (cap n d : Nat) : Nat := min cap (n + d)

/-- 0 or 1. -/
def bN (b : Bool) : Nat := if b then 1 else 0

/-- The `k` low bytes of `v`, least significant first (R4). -/
def bytesOf (k v : Nat) : List Byte :=
  match k with
  | 0 => []
  | k + 1 => BitVec.ofNat 8 v :: bytesOf k (v / 256)

/-- The number that bytes spell, least significant first (R4). -/
def natOf : List Byte → Nat
  | [] => 0
  | b :: r => b.toNat + 256 * natOf r

/-- The bytes of a list of words, each word little-endian. -/
def bytesOfWords (ws : List Word) : List Byte := ws.flatMap fun w => bytesOf 4 w.toNat

/-- `v` read as a signed number of `n` bits. -/
def toSigned (n v : Nat) : Int := if v % 2 ^ n < 2 ^ (n - 1) then (v % 2 ^ n : Nat) else ((v % 2 ^ n : Nat) : Int) - (2 ^ n : Nat)

/-- A word as INT32. -/
def Word.int (w : Word) : Int := toSigned 32 w.toNat

/-- The `n`-bit two's complement pattern of an integer. -/
def ofSigned (n : Nat) (v : Int) : Nat := (v % ((2 ^ n : Nat) : Int)).toNat

end Sys2Proof
end

