-- ==== Sys2Proof/Machine/Tab.lean ====
section
/-! DEFINITION. A table from numbers to values held as plain data: the pairs whose value differs from the table's default,
keys strictly rising. The memories, register files and buffer tables of the unit are such tables. -/

namespace Sys2Proof.Machine

/-- A sparse table: (key, value) pairs. -/
abbrev Tab (α : Type) := List (Nat × α)

variable {α : Type}

/-- The value at key `k`; an unlisted key reads `d k`. -/
def Tab.get (d : Nat → α) : Tab α → Nat → α
  | [], k => d k
  | (j, v) :: r, k => if k = j then v else Tab.get d r k

/-- The table with `k` listed at its place in the order. -/
def Tab.put (k : Nat) (v : α) : Tab α → Tab α
  | [] => [(k, v)]
  | (j, w) :: r => if k < j then (k, v) :: (j, w) :: r else if k = j then (k, v) :: r else (j, w) :: Tab.put k v r

/-- The table with `k` unlisted. -/
def Tab.del (k : Nat) : Tab α → Tab α
  | [] => []
  | (j, w) :: r => if k = j then Tab.del k r else (j, w) :: Tab.del k r

/-- The table in which `k` reads `v`; writing the default unlists the key. -/
def Tab.set [DecidableEq α] (d : Nat → α) (t : Tab α) (k : Nat) (v : α) : Tab α :=
  if v = d k then Tab.del k t else Tab.put k v t

/-- `set` by a function of the value read. -/
def Tab.upd [DecidableEq α] (d : Nat → α) (t : Tab α) (k : Nat) (f : α → α) : Tab α := Tab.set d t k (f (Tab.get d t k))

/-- Every key of the table is above `n`, keys rise strictly, and no value equals the default of its key. -/
def Tab.above [DecidableEq α] (d : Nat → α) (n : Nat) : Tab α → Bool
  | [] => true
  | (j, v) :: r => decide (n < j) && decide (v ≠ d j) && Tab.above d j r

/-- The canonical form: equal tables are equal data. -/
def Tab.wf [DecidableEq α] (d : Nat → α) : Tab α → Bool
  | [] => true
  | (j, v) :: r => decide (v ≠ d j) && Tab.above d j r

end Sys2Proof.Machine
end

