-- ==== Sys2Proof/Machine/State.lean ====
section
/-! DEFINITION. The state of one EPD16 unit: the registers of its control map, and beside them every table, queue, buffer
and memory the spec gives the block, as plain data. The unit is the manager or a worker by its ROLE strap (R365). -/

namespace Sys2Proof.Machine

/-- An event staged for a ring (R12): `ring` below 256 the EQ of that context, 256 the device event ring. -/
structure Staged where
  plane : Nat
  ring : Nat
  ev : Event
  deriving DecidableEq, Repr

/-- PCIe messages the HIF sends. -/
inductive PcieMsg where
  | ltr (req : Bool) (snoop noSnoop : Nat)
  | pme
  | ptmRequest
  /-- The port trains again, up to a speed code and a width (R46). -/
  | retrain (speed width : Nat)
  | errCor | errNonFatal | errFatal
  deriving DecidableEq, Repr

/-- AER errors (R63). -/
inductive Aer where
  | dataLinkProtocol | poisonedTlp | completionTimeout | completerAbort | unexpectedCompletion | receiverOverflow
  | malformedTlp | ecrc | unsupportedRequest | uncorrectableInternal
  deriving DecidableEq, Repr

/-- Pins that the unit drives. -/
inductive OutPin where
  | wakeN | alertN | syncOut | thermtripN
  deriving DecidableEq, Repr

/-- What the unit puts on its links and pins. The list of these is the model's own trace of the outside: no command reads
it. -/
inductive Out where
  /-- A posted write to host memory (R98). -/
  | hostWr (fn addr : Nat) (data : List Byte)
  /-- An MSI-X message (R56). -/
  | msix (fn vec : Nat)
  /-- A read request to host memory. -/
  | hostRd (fn tag addr len : Nat)
  /-- A completion of a read by a requester: successful, with the EP bit. -/
  | cpl (req : Nat) (data : List Byte) (ep : Bool)
  /-- An Unsupported Request completion. -/
  | cplUr (req : Nat)
  /-- A TAP access to a frozen island (R416). -/
  | tapBusy (req : Nat)
  /-- A configuration completion. -/
  | cfgCpl (fn : Nat) (v : Word)
  /-- A configuration completion with Request Retry Status. -/
  | cfgRrs (fn : Nat)
  | pcie (m : PcieMsg)
  /-- An error logged and signalled under AER (R63, R454). -/
  | aer (e : Aer) (fatal : Bool)
  /-- A block interrupt message to management firmware (R31). -/
  | mgmtIrq (page : Nat)
  | pin (p : OutPin) (level : Bool)
  /-- A frame put on a Grenlink port. -/
  | frame (port : Nat) (f : Frame)
  /-- A byte string answered on the SMBus. -/
  | smbus (data : List Byte)
  /-- An SMBus NACK. -/
  | smbusNack
  /-- A management message answered over DOE, MCTP or PLDM, named and with its words. -/
  | mgmtMsg (m : MgmtReply)
  deriving DecidableEq, Repr

/-! ### Contexts (R76-R95) -/

/-- A started host command (R84-R86). `fin` holds its status and result once it has finished and until its completion
record is written. -/
structure Run where
  seq : Nat
  op : Nat
  cid : Nat
  noCpl : Bool
  irq : Bool
  /-- duplicates fetched while it runs: (CID, IRQ) of each (R86) -/
  dups : List (Nat × Bool) := []
  /-- units whose part of the command is awaited -/
  await : List Nat := []
  /-- the status and result kept while parts are awaited -/
  part : Option (Status × Nat) := none
  words : List Word := []
  /-- on a worker: the result record that goes with the answer (R295) -/
  data : List Byte := []
  deriving DecidableEq, Repr

/-- A completion that waits to be written to the CQ (R88, R93). -/
structure Cpl where
  seq : Nat
  result : Nat
  cid : Nat
  status : Nat
  orig : Nat
  irq : Bool
  deriving DecidableEq, Repr

/-- The teardown of a context (R344, R90): the fault's status and the faulting sequence number, or a reset. -/
structure Tear where
  /-- `none`: a context reset or a VF FLR, which report no event -/
  status : Option Status
  seq : Nat
  d2 : Nat
  core : Nat
  /-- shop time in ns at which it began -/
  t0 : Nat := 0
  deriving DecidableEq, Repr

/-- What a context holds besides the registers of its pages. -/
structure Ctx where
  /-- the counts the doorbells hold (R83): SQ producer, CQ, EQ and MQ consumer -/
  sqTail : Nat := 0
  cqHead : Nat := 0
  eqHead : Nat := 0
  mqHead : Nat := 0
  /-- doorbell values latched while FAULTED (R77): doorbell index, value -/
  latched : List (Nat × Nat) := []
  /-- SQ entries whose fetch has been issued -/
  sqIssued : Nat := 0
  /-- fetched SQ entries that arrived ahead of an earlier one: count, words -/
  sqArr : List (Nat × List Word) := []
  /-- fetched host commands not yet started, oldest first (R84) -/
  sq : List (List Word) := []
  run : List Run := []
  /-- finished commands whose completion records are not written, oldest first (R93) -/
  fin : List Cpl := []
  /-- whether the operand record of the command at the front of `sq` has been asked of host memory, and the bytes that
  arrived -/
  opAsked : Bool := false
  opData : Option (List Byte) := none
  /-- on a worker: the operand data that came with the commands in `sq`, by sequence number -/
  wdata : List (Nat × List Byte) := []
  /-- records of the CQ, EQ and MQ that no message has announced (R95) -/
  un1 : Nat := 0
  un2 : Nat := 0
  un3 : Nat := 0
  /-- metadata records that wait for an MQ place, oldest first (R94, R100) -/
  mqWait : List MRec := []
  tear : Option Tear := none
  /-- a VF FLR has begun: nothing reaches the VF (R73, R91) -/
  flr : Bool := false
  /-- the HEARTBEAT sequence number (R290), and the records accepted and pictures decoded since the last one -/
  hbSeq : Nat := 0
  hbRecs : Nat := 0
  hbPics : Nat := 0
  deriving DecidableEq, Repr

/-! ### Host endpoint (R46-R75, R103-R112) -/

/-- What a device read of host memory is for. -/
inductive RdFor where
  /-- the SQ entry of count `k` of context `c` -/
  | sq (c k : Nat)
  /-- the operand record of the command at the front of context `c`'s queue -/
  | operand (c : Nat)
  /-- the mask entries of clip request `n` of context `c` -/
  | masks (c n : Nat)
  /-- nobody any more: its context was torn down -/
  | dead
  deriving DecidableEq, Repr

/-- An outstanding or waiting device read (R59, R61): `got` is what arrived so far. -/
structure HRead where
  tag : Nat
  fn : Nat
  for_ : RdFor
  addr : Nat
  len : Nat
  got : List Byte := []
  bad : Bool := false
  deriving DecidableEq, Repr

/-- A request of a function that waits for Bus Master Enable, in order (R461). -/
inductive HifOp where
  | wr (fn addr : Nat) (data : List Byte)
  | msg (fn vec : Nat)
  | rd (r : HRead)
  deriving DecidableEq, Repr

/-- A read-ahead line of 128 B: its target function, its usable DRAM address and its bytes (R106). -/
structure Line where
  fn : Nat
  addr : Nat
  data : List Byte
  deriving DecidableEq, Repr

/-- The lines of one requester, oldest first. -/
structure Lines where
  req : Nat
  lines : List Line
  deriving DecidableEq, Repr

structure Hif where
  /-- configuration space: dword `d` of function `n` at key `n`*1024 + `d` -/
  cfg : Tab Word := []
  /-- MSI-X tables: dword `d` of function `n`'s table at key `n`*1024 + `d` -/
  msixTab : Tab Word := []
  /-- pending bits: (function, vector) -/
  pba : List (Nat × Nat) := []
  /-- the round-robin tag pointer (R59) -/
  tagPtr : Nat := 0
  reads : List HRead := []
  /-- tags in quarantine, and whether a late completion was already reported in the period (R61, R62) -/
  quar : List (Nat × Bool) := []
  /-- requests waiting for a Bus Master Enable (R461), oldest first -/
  waitQ : List HifOp := []
  /-- reads waiting for a free tag (R59) -/
  tagQ : List HRead := []
  /-- read-ahead state, least recently served requester first (R106) -/
  ahead : List Lines := []
  /-- last values written to doorbells while SCHED was in reset (R12): context, doorbell index, value -/
  dbLatch : List (Nat × Nat × Nat) := []
  /-- a PTM request is outstanding (R66) -/
  ptmOut : Bool := false
  /-- the last LTR condition reported (R67): 0 none, 1 active, 2 Fumarole -/
  ltr : Nat := 0
  /-- the readiness window or a PF FLR is open: configuration requests get RRS (R71, R72) -/
  rrs : Bool := true
  deriving DecidableEq, Repr

/-! ### Buffer pools (R115-R137) -/

/-- The state of a buffer (R135). -/
inductive BufSt where
  | free | alloc | retired
  deriving DecidableEq, Repr

structure Buf where
  st : BufSt := .free
  count : Nat := 0
  /-- allocations of the buffer since power-on; with `Bpm.resets` it gives the generation (R118) -/
  allocs : Nat := 0
  rq : Nat := 0
  ctx : Nat := 0
  pinned : Bool := false
  poisoned : Bool := false
  bad : Bool := false
  /-- the 4 KiB pages in which RAS has handled an uncorrectable error of it (R462) -/
  errPages : List Nat := []
  deriving DecidableEq, Repr

/-- A pool besides its configuration registers: the requester table, the free queue (R124: indices from `fresh` up were
never allocated since the enable and come first; `freed` follows in order) and what the last refusal was. -/
structure Pool where
  quota : Tab Nat := []
  reserve : Tab Nat := []
  fresh : Nat := 0
  freed : List Nat := []
  deriving DecidableEq, Repr

/-- Who waits for a blocking allocation. -/
inductive WaitFor where
  /-- the BUF_ALLOC of context `c` with sequence number `seq` -/
  | cmd (c seq : Nat)
  /-- an engine's or core's allocation with its own tag -/
  | eng (tag : Nat)
  deriving DecidableEq, Repr

/-- A blocking waiter (R125, R126). -/
structure Waiter where
  id : Nat
  pool : Nat
  rq : Nat
  ctx : Nat
  who : WaitFor
  deriving DecidableEq, Repr

/-- A reference held by a context slot (R132). -/
structure Ledger where
  slot : Nat
  h : Nat
  n : Nat
  deriving DecidableEq, Repr

/-- A reference operation held in a requester's port queue while the BPM is down (R12). -/
structure HeldOp where
  rq : Nat
  ctx : Nat
  h : Nat
  incr : Bool
  /-- the waiting port operation's tag, if it has one -/
  tag : Option Nat := none
  /-- the sequence number of the BUF_REF or BUF_UNREF it belongs to; `rq` is then its slot -/
  seq : Option Nat := none
  deriving DecidableEq, Repr

structure Bpm where
  pools : Tab Pool := []
  /-- buffer `i` of pool `p` at key `p`*2^20 + `i` -/
  bufs : Tab Buf := []
  /-- resets that reached the BPM since power-on, each of which advanced every generation once (R118) -/
  resets : Nat := 0
  ledger : List Ledger := []
  waiters : List Waiter := []
  nextId : Nat := 0
  /-- reference operations held while the BPM is down, oldest first -/
  held : List HeldOp := []
  /-- the last results answered to engine and core ports: (tag, status, handle or count), newest first -/
  answers : List (Nat × Status × Nat) := []
  deriving DecidableEq, Repr

/-! ### DRAM and RAS (R138-R153) -/

/-- What a sector of DRAM holds beside its bytes: a good code word, a single-bit error, a double-bit error, or the poison
code (R141-R144). -/
inductive SecMark where
  | ok | ce | ue | poison
  deriving DecidableEq, Repr

/-- An owner-table lookup RAS holds while the BPM is down (R150). -/
structure Lookup where
  addr : Nat
  deriving DecidableEq, Repr

structure Ras where
  /-- retirement table entries: index, page (R151) -/
  table : Tab Nat := []
  held : List Nat := []
  /-- hard-error pages pending (R146) -/
  pending : List Nat := []
  /-- sectors the scrubber corrected in the previous and in the running pass -/
  lastCe : List Nat := []
  thisCe : List Nat := []
  /-- corrected errors, newest first: shop time in ns and channel; whether CE_THRESHOLD was raised and the sum has not
  fallen since (R145) -/
  ceLog : List (Nat × Nat) := []
  winRaised : Bool := false
  /-- the sector index within the span at RAS_SCRUB_POS that the scrubber reads next -/
  pos : Nat := 0
  /-- shop time in ns at which the running pass began -/
  passStart : Nat := 0
  deriving DecidableEq, Repr

/-! ### Reset, zeroisation and management (R418-R432) -/

/-- An extent of usable DRAM that SEC zeroises, with the content class its reads report (R420). -/
structure Extent where
  base : Nat
  len : Nat
  cls : Nat
  deriving DecidableEq, Repr

structure Boot where
  /-- power: absent (before POWER_ON), or present -/
  powered : Bool := true
  /-- PERST_N is asserted -/
  perst : Bool := true
  /-- extents still to be zeroised (R420, R414) -/
  zero : List Extent := []
  /-- slot the boot ROM tries (R423): none before selection and in RECOVERY -/
  trying : Option Nat := none
  /-- slots the ROM has tried in this boot -/
  tried : List Nat := []
  /-- the image check passed and firmware runs without having set RUNNING -/
  started : Bool := false
  /-- DRAM_FAIL is to be raised when a context takes DEV_EVENTS (R422) -/
  dramFail : Bool := false
  /-- a chain reset is outstanding: workers whose acknowledgement is awaited (R419) -/
  chainWait : List Nat := []
  /-- the always-on island kept power when main power was lost (R399, R439) -/
  aonKept : Bool := false
  /-- the straps have been sampled since power-on (R421) -/
  sampled : Bool := false
  /-- pool enables by register write that wait for the zeroisation: pool, CFG2 (R420) -/
  waitEn : List (Nat × Word) := []
  /-- shop time in ns at which the boot began -/
  startNs : Nat := 0
  /-- WAKE_N is driven low (R70) -/
  wakeLow : Bool := false
  /-- VDEC0 to VDEC3 and VENC run verified codec firmware (R403) -/
  codecOk : Bool := false
  /-- a PM_PME waits for the link (R70) -/
  pmePend : Bool := false
  deriving DecidableEq, Repr

/-! ### The chain (R365-R383) -/

/-- What an outstanding chain transaction is for. -/
inductive TxFor where
  /-- a remote register read for the requester `req` (R43) -/
  | regRead (req : Nat)
  | regWrite
  /-- a DATA WRITE or READ of the work tagged `tag` -/
  | data (tag : Nat)
  /-- a BPM operation of the work tagged `tag` (R134) -/
  | bpm (tag : Nat)
  /-- a message or signal of operation `op` of core `core` (R199); a credit return has operation 0 of core 16 -/
  | msg (core op : Nat)
  /-- metadata records sent to the manager -/
  | record (recs : List MRec)
  deriving DecidableEq, Repr

/-- A transaction of a stream (R374). -/
structure Txn where
  dst : Nat
  vc : Nat          -- 0, 2, or 3 for MGMT
  txid : Nat
  frame : Frame
  what : TxFor
  deriving DecidableEq, Repr

/-- An applied transaction kept at the destination with its response. -/
structure Applied where
  src : Nat
  vc : Nat
  txid : Nat
  resp : Option Frame
  deriving DecidableEq, Repr

/-- The manager's view of an address (R377). -/
inductive UState where
  | absent | quarantine | joined | offline | lost
  deriving DecidableEq, Repr

structure UnitInfo where
  st : UState := .absent
  serial : Nat := 0
  slot : Nat := 0
  attested : Bool := false
  timeLocked : Bool := false
  admitted : Bool := false
  timedOut : Bool := false
  /-- it joins at the epoch switch that is under way -/
  joining : Bool := false
  offReq : Bool := false
  deriving DecidableEq, Repr

structure Chain where
  /-- the unit holds an address -/
  addressed : Bool := false
  /-- serial number of the manager it took its address from -/
  mgrSerial : Nat := 0
  /-- own state as the manager told it -/
  own : UState := .absent
  units : Tab UnitInfo := []
  /-- reservation table: address, serial number (R375) -/
  res : Tab Nat := []
  /-- route tables of the previous and the next epoch, in the form of CHAIN_ROUTE (R378, R379): epoch, table -/
  prev : Option (Nat × Nat) := none
  next : Option (Nat × Nat) := none
  switchAt : Option Nat := none
  /-- units whose acknowledgement or DRAINED is awaited by the manager -/
  ackWait : List Nat := []
  drainWait : List Nat := []
  /-- units that were sent the next epoch's tables -/
  sent : List Nat := []
  /-- the port on which the last MGMT frame from a unit arrived -/
  seen : Tab Nat := []
  /-- a change waits for the next epoch -/
  change : Bool := false
  /-- next TXID of each outgoing stream: key destination*4 + vc -/
  txNext : Tab Nat := []
  /-- next TXID expected of each incoming stream: key source*4 + vc -/
  rxNext : Tab Nat := []
  out : List Txn := []
  /-- transactions that wait for one of the 256 places of their stream -/
  wait : List Txn := []
  early : List Frame := []
  applied : List Applied := []
  /-- the chain sleeps; on a worker: SLEEP has come and its sent frames drain -/
  asleep : Bool := false
  draining : Bool := false
  /-- workers whose awake report is awaited -/
  wakeWait : List Nat := []
  /-- links of other units reported down: (unit, port) -/
  downLinks : List (Nat × Nat) := []
  /-- cabling learnt: (unit, port, the peer's serial number) -/
  cables : List (Nat × Nat × Nat) := []
  /-- links down for CHAIN_LOSS_HOLD: (unit, port) -/
  dead : List (Nat × Nat) := []
  /-- the enumeration walk: 0 not begun, 1 on GLK0, 2 on GLK1, 3 ended (R375) -/
  walk : Nat := 0
  /-- link ends that hold a key: (unit, port); and those that hold one they do not use yet (R412) -/
  keyed : List (Nat × Nat) := []
  keyNew : List (Nat × Nat) := []
  /-- link ends whose answer to a key delivery is awaited -/
  keyWait : List (Nat × Nat) := []
  /-- contexts that hold slots on other units: (unit, context) (R331) -/
  held : List (Nat × Nat) := []
  polls : Tab SlotPoll := []
  deriving DecidableEq, Repr

/-- A Grenlink port's link layer (R366-R373). -/
structure Glk where
  /-- next SEQ to give, next SEQ expected, last SEQ accepted (R370) -/
  seqTx : Nat := 0
  seqRx : Nat := 0
  lastAcc : Nat := 4095
  nakSent : Bool := false
  /-- frames sent and not acknowledged, oldest first (at most 64) -/
  unacked : List Frame := []
  /-- replays without the ACK advancing -/
  replays : Nat := 0
  replaysSince : Nat := 0
  /-- shop time of the last LINK_REPLAY -/
  replayAt : Option Nat := none
  /-- frames waiting for a credit or a replay place, oldest first -/
  queue : List Frame := []
  /-- credits held per class: VC 0, VC 1, VC 2, MGMT (R372), and frames freed since the last IDLE -/
  cr0 : Nat := 32
  cr1 : Nat := 32
  cr2 : Nat := 32
  cr3 : Nat := 32
  fr0 : Nat := 0
  fr1 : Nat := 0
  fr2 : Nat := 0
  fr3 : Nat := 0
  /-- salts of the keys installed in the two phases, frames sent under the current key, current phase (R373, R412) -/
  key0 : Option Nat := none
  key1 : Option Nat := none
  phase : Bool := false
  ivCount : Nat := 0
  /-- peer: serial, role manager, addressed, its manager's serial, quarantine -/
  peerSerial : Nat := 0
  peerMgr : Bool := false
  peerMgrSerial : Nat := 0
  /-- the serial number with which SEQ state was kept when the link went down -/
  keep : Option Nat := none
  deriving DecidableEq, Repr

/-! ### Security, debug, Vent (R401-R417) -/

/-- The lifecycle state (R401). -/
inductive Lc where
  | blank | provisioned | sealed | decommissioned
  deriving DecidableEq, Repr

structure Sec where
  lc : Lc := .blank
  sealPending : Bool := false
  refuse : Nat := 0
  serial : Nat := 1
  /-- owner fields provisioned -/
  owner : Nat := 0
  dbgMax : Nat := 0
  floorM : Nat := 0
  floorC : Nat := 0
  runM : Nat := 0
  runC : Nat := 0
  revoked : Nat := 0
  revokeMask : Nat := 0
  signSlot : Nat := 0
  /-- evidence slots and KEK fused; loaded ones -/
  evFused : Nat := 0
  kekFused : Bool := false
  evLoaded : Nat := 0
  kekLoaded : Bool := false
  keysLocked : Bool := false
  audit : Nat := 0
  /-- level an unlock waits to open when its zeroisation ends -/
  unlocking : Option Nat := none
  nonce : List Nat := []
  dbgLevel : Nat := 0
  fumForce : Bool := false
  tap : Bool := false
  unlocks : Nat := 0
  ventBlocks : Nat := 0
  deriving DecidableEq, Repr

/-- The blocked accesses of a path since its last VENT_BLOCKED: their number, the first one's address, class, context. -/
structure VPath where
  n : Nat := 0
  addr : Nat := 0
  cls : Nat := 0
  ctx : Option Nat := none
  /-- shop time of the path's last VENT_BLOCKED -/
  last : Option Nat := none
  deriving DecidableEq, Repr

structure Vent where
  /-- the access captured since the last read of VENT_LAST_ADDR_LO -/
  cap : Option Nat := none
  paths : Tab VPath := []
  deriving DecidableEq, Repr

/-! ### Power (R384-R400) -/

structure Pwr where
  gov : Nat := 0
  therm : Nat := 0
  /-- consecutive evaluations at or below 0.9·C, and samples below T_THR − HYST -/
  govLow : Nat := 0
  thermLow : Nat := 0
  /-- ms above GOV_LEVEL 0 since the last POWER_CAP -/
  msAbove : Nat := 0
  /-- energy below 1 mJ, in µJ -/
  uj : Nat := 0
  /-- Fumarole holds (also under D3hot); its core; the islands that it gated; SCHED_CORE_OFF as it found it -/
  fum : Bool := false
  fumCore : Nat := 0
  gated : List Nat := []
  coreOff : Nat := 0
  /-- a DETECTION record was accepted that is to end Fumarole (R396) -/
  wakeDet : Bool := false
  tripped : Bool := false
  /-- shop times of the last POWER_CAP and THERMAL_THROTTLE -/
  capAt : Option Nat := none
  thrAt : Option Nat := none
  deriving DecidableEq, Repr

/-! ### Management endpoint (R409-R432) -/

structure Mctp where
  eid : Nat := 0
  receiver : Option Nat := none
  /-- SPDM: versions, algorithms negotiated -/
  spdm : Nat := 0
  alertHeld : Bool := false
  /-- an SPDM request held with DOE Busy (R409, R428): its code and fields -/
  doe : Option (Nat × List Nat) := none
  /-- the states of the unit's own PLDM sensors, by their number (R432): 0 normal, 1 warning, 2 critical, 3 fatal -/
  sensors : Tab Nat := []
  deriving DecidableEq, Repr

/-- What an image slot of the flash is (R423). `fallback`: the slot whose image was ACTIVE before the one that is now. -/
inductive SlotSt where
  | empty | active | pending | failed | fallback
  deriving DecidableEq, Repr

/-- An image slot of the flash: state, security version numbers, version (R423). -/
structure Flash where
  st : SlotSt := .empty
  svn : Nat := 0
  csvn : Nat := 0
  version : Nat := 0
  deriving DecidableEq, Repr

structure Mgmt where
  /-- the slot that a unit leaves the factory with (DESIGN CHOICE, notes/assumptions/8) -/
  slotA : Flash := { st := .active }
  slotB : Flash := {}
  running : Nat := 0
  /-- shop times in ns of the watchdog expiries of the last 10 minutes (R427) -/
  wdtAt : List Nat := []
  updBusy : Bool := false
  /-- retirement tables stored in flash, by serial number -/
  stored : Tab Nat := []
  deriving DecidableEq, Repr

/-! ### Time (R349-R364) -/

/-- A timetable entry (R356-R363): its next time in 1/16 ns, its second 64-bit word, its owner; an occurrence that waits
for its target; a refused or late occurrence's scheduled time with the
occurrences already missed; what a held LAUNCH_LATE has gathered (occurrences missed, lateness of the
first in ns), and the shop time of the last one. -/
structure Ent where
  t : Nat := 0
  w : Nat := 0
  owner : Nat := 0
  down : Bool := false
  retry : Option (Nat × Nat) := none
  held : Option (Nat × Nat) := none
  lastRep : Option Nat := none
  deriving DecidableEq, Repr

/-- TIME beside its registers: entries; consecutive bad measurements; SYNC pulses (end times in ns) and the pin; the last TIME
frame's origin time and correction, and the port it came on; PTM intervals without a result. -/
structure Tim where
  ents : Tab Ent := []
  bad : Nat := 0
  pulses : List Nat := []
  high : Bool := false
  origin : Nat := 0
  corr : Nat := 0
  rxAt : Option Nat := none
  ptmMiss : Nat := 0
  deriving DecidableEq, Repr

/-! ### Video decode (R154-R176) -/

/-- Where an allocation of an engine stands: not asked, waiting under a tag, a handle, or failed. -/
inductive Want where
  | no | wait (tag : Nat) | got (h : Nat) | failed
  deriving DecidableEq, Repr

/-- An ingress entry as checked (R159, R174). -/
structure Entry where
  addr : Nat
  len : Nat
  tag : Nat
  cts : Nat
  est : Bool
  discont : Bool
  start : Bool
  /-- the payload as read -/
  data : List Byte := []
  deriving DecidableEq, Repr

/-- How far CHAIN has brought the entry at the fetch count. -/
inductive Xfer where
  | idle
  | alloc (e : Entry) (tag : Nat)
  | data (e : Entry) (h tag : Nat)
  deriving DecidableEq, Repr

/-- A stream's ingress ring at the manager (R157, R158). -/
structure Ring where
  ctx : Nat
  unit : Nat
  camera : Nat := 0
  /-- DEC_OPTS.MODE -/
  mode : Nat := 0
  addr : Nat
  n : Nat
  pool : Nat
  /-- base and buffer size of the bitstream pool on the owning unit -/
  base : Nat
  size : Nat
  fetch : Nat := 0
  door : Nat := 0
  drops : Nat := 0
  /-- doorbell values accepted and not yet consumed, oldest first, with the shop time in ns of each (R174) -/
  doors : List (Nat × Nat) := []
  xfer : Xfer := .idle
  deriving DecidableEq, Repr

/-- An access unit in a bitstream buffer, with what its stream has asked of the pools for its picture (R156). -/
structure Au where
  h : Nat
  addr : Nat
  len : Nat
  tag : Nat
  cts : Nat
  est : Bool
  discont : Bool
  start : Bool
  pic : Want := .no
  twin : Want := .no
  deriving DecidableEq, Repr

/-- A picture's descriptor (R173). -/
structure Pic where
  h : Nat
  twin : Nat
  stream : Nat
  w : Nat
  hgt : Nat
  crop : Rect
  fmt : Nat
  cts : Nat
  tag : Nat
  est : Bool
  noTwin : Bool
  conc : Nat
  recov : Bool := false
  /-- the stream's output picture count for it -/
  n : Nat := 0
  deriving DecidableEq, Repr

/-- A picture of the decoded picture buffer: whether it is a reference, waits for output, or is concealed or synthesised. -/
structure DpbPic where
  pic : Pic
  ref : Bool
  wait : Bool
  bad : Bool
  deriving DecidableEq, Repr

/-- The state of a stream (VDEC_STRM_STAT). -/
inductive StrmSt where
  | waitStart | recovering | decoding | refused
  deriving DecidableEq, Repr

/-- A stream attached on this unit. -/
structure Stream where
  ctx : Nat
  camera : Nat
  /-- DEC_OPTS -/
  opts : Nat
  bs : Nat
  picPool : Nat
  twinPool : Nat
  route : Nat
  /-- the engine it is bound to; none in RETAIN_ONLY -/
  eng : Option Nat
  st : StrmSt := .waitStart
  sps : Option Sps := none
  queue : List Au := []
  retain : List Au := []
  dpb : List DpbPic := []
  ready : List Pic := []
  pics : Nat := 0
  conc : Nat := 0
  disc : Nat := 0
  /-- concealed pictures since the last CONCEALED, and its shop time (R169) -/
  concNew : Nat := 0
  concAt : Option Nat := none
  /-- an access unit was discarded, so that the next picture finds a frame gap (R166) -/
  gap : Bool := false
  /-- the STREAM_DETACH that waits for the picture in decode -/
  detach : Option Nat := none
  /-- the clip slot: the stream whose span it decodes for VENC (R320) -/
  clip : Option Nat := none
  deriving DecidableEq, Repr

/-- The picture an engine decodes. -/
structure DecJob where
  stream : Nat
  au : Au
  sps : Sps
  synth : Bool
  refs : List Nat
  deriving DecidableEq, Repr

/-- A decode engine: its picture, and the stream it served last (R155, R156). -/
structure Vdec where
  job : Option DecJob := none
  last : Option Nat := none
  deriving DecidableEq, Repr

/-! ### Job queues (R177, R277, R294) -/

/-- Who pushed a job: the PF driver, management firmware, a timetable entry, a coach seat (its route, sequence number and
which of its jobs: 0 PPU, 1 POST0, 2 POST1), or a host command. -/
inductive JobBy where
  | host | fw | time (e : Nat) | seat (route q k : Nat) | cmd (c seq : Nat)
  deriving DecidableEq, Repr

/-- A queued job: its descriptor's address if it has one, the descriptor's bytes, its context, the status it is bound to end
with, and the references the engine holds for it. -/
structure Job where
  by_ : JobBy
  addr : Option Nat
  desc : List Byte
  ctx : Nat
  bad : Option Status := none
  d2 : Nat := 0
  refs : List Nat := []
  /-- its number in its queue -/
  id : Nat := 0
  /-- 0 queued, 1 started, 2 computed: it waits for its completion. SLV: 3 its result record is sent to the manager, 4 written
  there, 5 its own record is handed over -/
  phase : Nat := 0
  /-- computed: its status, and the words of its status sector or result record -/
  st : Status := ⟨.success, 0⟩
  out : List Word := []
  /-- SLV: the payload of the record that it emits (R296) -/
  rec_ : List Word := []
  deriving DecidableEq, Repr

/-- A job queue: the jobs accepted, oldest first, the number of the next, and the refused pushes of SCHED and firmware
that wait for a place, oldest first. -/
structure JobQ where
  jobs : List Job := []
  next : Nat := 0
  waits : List Job := []
  deriving DecidableEq, Repr

/-- What the JPEG decoder found in a stream up to its SOF (R180). -/
structure JpegHead where
  sof : Nat
  w : Nat
  h : Nat
  /-- 0 4:2:0, 1 4:2:2, 2 4:4:4, 3 greyscale -/
  chroma : Nat
  deriving DecidableEq, Repr

/-- The JPEG decoder's running job. -/
structure JpegRun where
  head : Option JpegHead := none
  out : Want := .no
  scratch : Want := .no
  deriving DecidableEq, Repr

/-! ### Models, routes and the coach (R209-R212, R332-R343) -/

/-- A loaded model on this unit: its context, units, pinned buffer, image length and number of logical cores. -/
structure Model where
  ctx : Nat
  mask : Nat
  h : Nat
  len : Nat
  nl : Nat
  /-- a MODEL_UNLOAD waits for its routes to end -/
  gone : Bool := false
  deriving DecidableEq, Repr

/-- A seat of a coach step (R341-R343). -/
structure Seat where
  q : Nat
  stream : Nat
  camera : Nat
  /-- RECOVERING, CONCEALED, CTS_EST -/
  flags : Nat
  pic : Nat
  cts : Nat
  picN : Nat
  w : Nat
  hgt : Nat
  /-- REID: TRACK_ID, GLOBAL_ID and the box centre and size in FP32 -/
  track : Nat := 0
  glob : Nat := 0
  box : List Word := []
  /-- the crop of the PPU job: SX, SY, SW, SH; none: the template's -/
  crop : Option Rect := none
  /-- the PPU job: 0 not pushed, 1 pushed, 2 completed, 3 completed and signalled -/
  ppu : Nat := 0
  fail : Bool := false
  finished : Bool := false
  /-- POST jobs not yet pushed, and how many have not completed -/
  posts : List Nat := []
  postsOut : Nat := 0
  /-- the picture's twin, 0 for none, whose reference goes with the picture's -/
  twin : Nat := 0
  released : Bool := false
  deriving DecidableEq, Repr

/-- A coach step. -/
structure Step where
  n : Nat
  seats : List Seat
  started : Bool := false
  /-- cores of this unit or others whose program has not reached END -/
  running : List Nat := []
  deriving DecidableEq, Repr

/-- A sequence that waits for boarding: a picture handed over by an instant close. -/
structure Waiting where
  pic : Pic
  camera : Nat
  deriving DecidableEq, Repr

/-- The coach block of a route (R338). -/
structure Coach where
  kind : Nat
  seats : Nat
  nslot : Nat
  src : Nat
  seatAddr : Nat
  ppuTpl : Nat
  inStride : Nat
  post0 : Nat
  post1 : Nat
  headStride : Nat
  outStride : Nat
  ttLcore : Nat
  ttAddr : Nat
  ttStride : Nat
  ttCount : Nat
  expand : Word
  /-- the templates, read once at launch -/
  ppuT : List Byte := []
  post0T : List Byte := []
  post1T : List Byte := []
  deriving DecidableEq, Repr

/-- A route mapped by GRAPH_LAUNCH (R209, R332, R338). `map`: physical core addresses of the logical cores. -/
structure Route where
  ctx : Nat
  model : Nat
  map : List Nat
  /-- the route bank on each of them (R333) -/
  banks : List Nat := []
  seq : Nat
  coach : Option Coach := none
  stopping : Bool := false
  /-- physical cores whose free program has not ended -/
  running : List Nat := []
  steps : List Step := []
  /-- ended steps whose seats wait for REID closes of other routes (R342) -/
  held : List Step := []
  /-- REID: steps of the source route whose closes are deferred, oldest first -/
  closes : List Nat := []
  waiting : List Waiting := []
  /-- a close was deferred -/
  deferred : Bool := false
  q : Nat := 0
  stepN : Nat := 0
  ended : Nat := 0
  drops : Nat := 0
  skipped : Nat := 0
  /-- REID: the last 4,096 (TRACK_ID, REID_AT) seated -/
  seen : List (Nat × Nat) := []
  /-- on a unit other than the home unit: whether the home unit has said what the route is, and that it is a coach route -/
  told : Option Bool := none
  deriving DecidableEq, Repr

/-! ### Cores (R196-R227) -/

/-- A vector register bank (R254): vector lane `l` of register `n` at key `n`*64+`l`, scalars, predicates; the program it
runs. -/
structure VBank where
  v : Tab Word := []
  s : Tab Word := []
  p : Tab Nat := []
  on : Bool := false
  pc : Nat := 0
  /-- VEC: iteration; bank 1: instructions executed for the tile -/
  n : Nat := 0
  entry : Nat := 0
  /-- VSEND of the program that waits for credit -/
  wait : Bool := false
  deriving DecidableEq, Repr

/-- A command that holds an operation slot (R197, R198): its queue (0 MXU, 1 VEC, 2 MOV, 3 MBX, 4 WSU), words and index; how
far it has got. -/
structure Op where
  id : Nat
  q : Nat
  w : List Word
  /-- the next pass or iteration -/
  pass : Nat := 0
  /-- WSTREAM: joined its multicast group; DWCONV, CONV: the descriptor is accepted -/
  begun : Bool := false
  done : Bool := false
  /-- writes or messages in flight -/
  flight : Nat := 0
  stale : Bool := false
  /-- what is read once at the command's start: the ADG descriptor, the epilogue block, the parameters of each stage, the
  depthwise weights (R243, R270) -/
  desc : List Byte := []
  epi : List Byte := []
  parms : List (List Byte) := []
  wts : List Byte := []
  /-- running values of each REDUCE_COLS stage over the passes (R266) -/
  cols : Tab (List Word) := []
  deriving DecidableEq, Repr

/-- A LOOP that runs: index of its first body command, of the command after its body, COUNT, and the counter (R221). -/
structure LoopSt where
  first : Nat
  last : Nat
  count : Nat
  lc : Nat
  deriving DecidableEq, Repr

/-- A SEQ command that waits (R197): its index and words; RECV: its release has acted; BARRIER: the participant has
signalled. -/
structure SeqWait where
  w : List Word
  acted : Bool
  deriving DecidableEq, Repr

/-- The run state of a program on a core. -/
inductive PSt where
  | ready | run | ended | stopped | parked
  deriving DecidableEq, Repr

/-- A program of a route on a core (R333-R337), or a SLV job's internal program (R346) when `route` is 256 or more. -/
structure Prog where
  route : Nat
  ctx : Nat
  lcore : Nat
  bank : Nat
  st : PSt := .ready
  /-- offset and number of commands of its PROGRAM section, in the model image at DRAM address `image` of `size` bytes -/
  off : Nat := 0
  len : Nat := 0
  image : Nat := 0
  size : Nat := 0
  /-- shop time in ns since when it is runnable -/
  since : Nat := 0
  pc : Nat := 0
  /-- running loops, innermost first, and the loop counters by depth (R221) -/
  loops : List LoopSt := []
  lcs : Tab Nat := []
  ops : List Op := []
  wait : Option SeqWait := none
  /-- END was issued and its slots have not all freed -/
  ending : Bool := false
  /-- SCHED has asked it to stop for a program of higher priority (R336) -/
  halt : Bool := false
  nextId : Nat := 0
  bank0 : VBank := {}
  bank1 : VBank := {}
  /-- parameters of the latest WSTREAM into each half: handle, offset, LEN, DST_OFF -/
  wsA : Option (List Word) := none
  wsB : Option (List Word) := none
  deriving DecidableEq, Repr

/-- A landed channel's owner and sender (R211). The channel's words and counts are in the MBX page. -/
structure Chan where
  route : Nat
  ctx : Nat
  deriving DecidableEq, Repr

/-- An entry of a core's outbound table (R212): a destination channel, its credits and slot size. -/
structure OutEnt where
  route : Nat
  dst : Nat
  ch : Nat
  credits : Nat
  size : Nat
  deriving DecidableEq, Repr

/-- A pass's result that a vector-program epilogue takes tile by tile (R272). -/
structure Epi where
  op : Nat
  /-- pass index; oy and OX0 + b·M; sub-array -/
  p : Nat
  oy : Nat
  ox : Nat
  sub : Nat
  entry : Nat
  arg : Nat
  rows : List (List Word)
  /-- the pass's results are poisoned (R239) -/
  poison : Bool := false
  /-- the next tile in order -/
  tile : Nat := 0
  deriving DecidableEq, Repr

/-- A core's hardware. -/
structure Core where
  /-- route of the running program -/
  cur : Option Nat := none
  progs : List Prog := []
  /-- signal counters: bank*16 + k (R333) -/
  sig : Tab Nat := []
  chans : Tab Chan := []
  outs : List OutEnt := []
  /-- weight stage: byte `o` of half `h` at `h`*2^20 + `o` (R206) -/
  ws : Tab Byte := []
  imem : Tab Byte := []
  lut : Tab Byte := []
  /-- context whose IMEM and LUT contents are loaded -/
  imemOf : Option Nat := none
  epi : Option Epi := none
  /-- pad elements below 256, and stage values below 256, not yet counted (ch13, ch14 counters) -/
  padRem : Nat := 0
  valRem : Nat := 0
  deriving DecidableEq, Repr

/-- A message between cores of this unit that has not landed (R213). -/
structure Flight where
  dst : Nat
  ch : Nat
  data : List Byte
  core : Nat
  op : Nat
  deriving DecidableEq, Repr

/-- Credits on their way to a sender core of this unit: the receiver's address and channel, the count (R212). -/
structure CrFlight where
  core : Nat
  route : Nat
  dst : Nat
  ch : Nat
  n : Nat
  size : Nat
  deriving DecidableEq, Repr

/-- A NOTIFY that waits for a free slot of its channel (R212, R218). -/
structure Notice where
  kind : Nat
  core : Nat
  ch : Nat
  ctx : Nat
  data : List Byte
  deriving DecidableEq, Repr

/-- A warning raised at most once per second per context: what happened since the last one, and its shop time. -/
structure Warn where
  n : Nat := 0
  at_ : Option Nat := none
  deriving DecidableEq, Repr

/-! ### The running BUNDLE (R311, R312) -/

/-- A BUNDLE's progress: its queue number; what it adjusts; where it stands (SLV_BA_STAT): iteration, phase, block step and
sub-operation within the phase; the damped reduced system, the matrix being factored with its diagonal, the gradient; the new
parameters; what its result record will say. -/
structure Bundle where
  id : Nat
  ctx : Nat
  np : Nat
  ncam : Nat
  intr : Nat
  /-- camera held fixed -/
  fix : Option Nat
  cores : Nat
  iters : Nat
  huber : Word
  zmin : Word
  tolCost : Word
  cams : List (List Word)
  pts : List (List Word)
  obs : List (List Word)
  mu : Word
  it : Nat := 0
  phase : Nat := 1
  k : Nat := 0
  sub : Nat := 0
  /-- shares of the trailing update not yet run: cores -/
  shares : List Nat := []
  sys : List (List Word) := []
  fac : List (List Word) := []
  dia : List Word := []
  grad : List Word := []
  newCams : List (List Word) := []
  newPts : List (List Word) := []
  cost0 : Word := 0
  cost : Word := 0
  /-- the running sum of the assembly, and of the cost of the new parameters -/
  sum : Word := 0
  nreg : Nat := 0
  first : Option Nat := none
  neg : Nat := 0
  nrej : Nat := 0
  steps : Nat := 0
  norm : Word := 0
  stag : Bool := false
  nonfin : Bool := false
  deriving DecidableEq, Repr

/-! ### Evidence clips (R317-R330) -/

/-- An encoded picture in a clip's index: capture time, offset into the stream, QP, RECOVERING, CONCEALED. -/
structure ClipPic where
  cts : Nat
  off : Nat
  qp : Nat
  recov : Bool
  conc : Bool
  deriving DecidableEq, Repr

/-- A clip at VENC: its ID, context, stream, descriptor and mask entries; whether TIME pushed it; accepted, running; the access
units referenced and not yet decoded; whether the span still grows; flags; its object buffer; decoded pictures that wait for
the encoder; what is encoded; the encoder's last source picture (luma, chroma) and intra columns; rate control (R326): bytes of
the window, of the last picture, its QP; its status; how far its end is: 0 running, 1 object sent, 2 written. -/
structure Clip where
  id : Nat
  ctx : Nat
  stream : Nat
  camera : Nat := 0
  desc : List Byte
  masks : List Byte
  timed : Bool
  acc : Bool := false
  run : Bool := false
  span : List Au := []
  grow : Bool := true
  clamped : Bool := false
  short : Bool := false
  full : Bool := false
  buf : Want := .no
  pics : List Pic := []
  index : List ClipPic := []
  size : Nat := 0
  srcY : List (List Nat) := []
  srcC : List (List Nat) := []
  intra : Nat × Nat := (0, 0)
  sei : Bool := false
  win : Nat := 0
  last : Nat := 0
  qp : Nat := 0
  st : Status := ⟨.success, 0⟩
  stage : Nat := 0
  deriving DecidableEq, Repr

/-- A clip request at the manager: its number, who made it, its descriptor, the clip ID once it is assigned, and the mask
entries once they have been read. -/
structure ClipReq where
  n : Nat
  by_ : JobBy
  ctx : Nat
  desc : List Byte
  id : Nat := 0
  masks : Option (List Byte) := none
  bad : Option Status := none
  deriving DecidableEq, Repr

/-- A clip that another unit has accepted and not reported (R330). -/
structure Taken where
  unit : Nat
  ctx : Nat
  id : Nat
  stream : Nat
  camera : Nat
  dest : Nat
  key : Nat
  deriving DecidableEq, Repr

/-- VENC: its clips, the running one first; at the manager the requests, the count of clip IDs per unit, and clips elsewhere;
the IV counter (R327), seeded at its first use after a reset. -/
structure Venc where
  clips : List Clip := []
  reqs : List ClipReq := []
  next : Nat := 0
  counts : Tab Nat := []
  taken : List Taken := []
  iv : Option Nat := none
  deriving DecidableEq, Repr

/-! ### Engines and cores together -/

structure Eng where
  /-- tags given to the engines' own allocations and transfers -/
  tags : Nat := 0
  rings : Tab (Option Ring) := []
  streams : Tab (Option Stream) := []
  vdec : Tab Vdec := []
  /-- job queues: 0 JPEG, 1 PPU0, 2 PPU1, 3 DPP, 4 SLV, 5 the BUNDLEs of the SLV -/
  queues : Tab JobQ := []
  jpeg : JpegRun := {}
  /-- warnings of the DPP and the SLV: NMS_TRUNCATED of context `c` at `c`, PIVOT_SMALL at 256 + `c`, RANGE_EXCEEDED at 512 + `c` -/
  warns : Tab Warn := []
  bundle : Option Bundle := none
  venc : Venc := {}
  models : Tab (Option Model) := []
  routes : Tab (Option Route) := []
  cores : Tab Core := []
  flights : List Flight := []
  credits : List CrFlight := []
  notices : List Notice := []
  /-- frames of a message from another unit that have arrived: core*32 + channel, bytes (R213) -/
  partials : Tab (List Byte) := []
  deriving DecidableEq, Repr


/-- Everything the unit holds but the queue of commands waiting at it. -/
structure Dev where
  /-- registers, by offset in the unit-local layout; context pages from 0x400000 (R34). An unlisted register reads its
  reset value -/
  regs : Tab Word := []
  /-- the model's trace of what the unit put on its links and pins, newest first -/
  out : List Out := []
  /-- how many free values were drawn (the model's own field, not the spec's) -/
  draws : Nat := 0
  /-- shop time in units of 2^-48 ns: nanoseconds, 16-bit fraction, 32-bit accumulator (R349) -/
  shop : Nat := 0
  /-- events staged per plane, oldest first, and the events lost per ring (R12, R92) -/
  staged : List Staged := []
  lost : Tab Nat := []
  ctxs : Tab Ctx := []
  hif : Hif := {}
  bpm : Bpm := {}
  /-- DRAM by usable address; what each 32-byte sector's code word says -/
  dram : Tab Byte := []
  marks : Tab SecMark := []
  ras : Ras := {}
  /-- activation stores: byte `o` of core `k` at key `k`*2^23 + `o`; the code state of 64-byte block `b` of core `k` at key
  `k`*2^17 + `b` (R201, R203) -/
  as : Tab Byte := []
  asMarks : Tab SecMark := []
  boot : Boot := {}
  chain : Chain := {}
  glk0 : Glk := {}
  glk1 : Glk := {}
  sec : Sec := {}
  vent : Vent := {}
  pwr : Pwr := {}
  mctp : Mctp := {}
  mgmt : Mgmt := {}
  /-- this unit's context slots: slot, context (R331) -/
  slots : Tab Nat := []
  tim : Tim := {}
  eng : Eng := {}
  deriving DecidableEq, Repr

/-- The state of the block: the unit and the queue of commands that wait, first in, first out. -/
structure State extends Dev where
  pending : List Instr := []
  deriving DecidableEq, Repr

/-- The faults. No command of the spec stops the block; the one fault stands for operation outside the ratings. -/
inductive Fault where
  /-- Operation outside the operating conditions (R446); raised by no meaning. Safe. -/
  | outsideRatings
  deriving DecidableEq, Repr

/-- The refusals. -/
inductive Refusal where
  /-- A command that has no meaning yet, by its mnemonic; raised by the dispatch alone. Safe. -/
  | notModelled (mnemonic : String)
  deriving DecidableEq, Repr

/-- The unit right after power-on reset: every register at its reset value, every table empty (R39, R418). -/
def State.reset : State := {}

end Sys2Proof.Machine
end

