-- ==== Sys2Proof/Machine/RegMap.lean ====
section
/-! DEFINITION. The control map: which page an offset of the unit-local layout lies in (R26, R27, R34), and for every
register of every page its access codes (R5), its reset value and its reset group (R39), as the chapters' register
tables give them. -/

namespace Sys2Proof.Machine

/-- One row of a register table: offset in the page, number of instances and their spacing, the bits a write sets, the
bits a written 1 clears, whether a read clears, the reset value, and whether the register is sticky (R39) or held in
the always-on island. -/
structure RegDesc where
  off : Nat
  n : Nat := 1
  stride : Nat := 4
  rw : Nat := 0
  w1c : Nat := 0
  rc : Bool := false
  reset : Nat := 0
  sticky : Bool := false
  aon : Bool := false
  deriving DecidableEq, Repr

/-- Registers of page `top`: TOP_STRAP, TOP_STAT, TOP_CTL, TOP_RST_CAUSE, TOP_BOOT_MS, TOP_ALERT_STAT, TOP_ALERT_EN. -/
def RegDesc.top : List RegDesc :=
  [ { off := 0x100 }  -- TOP_STRAP
  , { off := 0x104 }  -- TOP_STAT
  , { off := 0x108, rw := 0x3 }  -- TOP_CTL
  , { off := 0x10c, reset := 0x1, sticky := true }  -- TOP_RST_CAUSE
  , { off := 0x110 }  -- TOP_BOOT_MS
  , { off := 0x114, w1c := 0x7f, sticky := true, aon := true }  -- TOP_ALERT_STAT
  , { off := 0x118, rw := 0x7f, reset := 0x7f, sticky := true, aon := true }  -- TOP_ALERT_EN
  ]

/-- Registers of page `clk`: CLK_ISL_FREQ, CLK_ISL_FREQ, CLK_ISL_FREQ, CLK_ISL_FREQ, CLK_ISL_FREQ, CLK_ISL_STAT. -/
def RegDesc.clk : List RegDesc :=
  [ { off := 0x100, n := 16, rw := 0x7ff, reset := 0x4b0 }  -- CLK_ISL_FREQ
  , { off := 0x140, n := 5 }  -- CLK_ISL_FREQ
  , { off := 0x154, rw := 0x7ff, reset := 0x320 }  -- CLK_ISL_FREQ
  , { off := 0x158, rw := 0x7ff, reset := 0x3e8 }  -- CLK_ISL_FREQ
  , { off := 0x15c, n := 3 }  -- CLK_ISL_FREQ
  , { off := 0x180, n := 26, reset := 0x1 }  -- CLK_ISL_STAT
  ]

/-- Registers of page `pwr`: PWR_STATE_REQ, PWR_STAT, PWR_CAP, PWR_LVL_MIN, PWR_PROFILE, PWR_POWER, PWR_ENERGY, PWR_TEMP_MAX, PWR_THERM_CFG, PWR_CTL, PWR_WAKE_EN, PWR_WAKE_TIMER, PWR_WAKE_STAT, PWR_TRIP_REC, PWR_ISL_CTL, PWR_TEMP. -/
def RegDesc.pwr : List RegDesc :=
  [ { off := 0x100, rw := 0xf1 }  -- PWR_STATE_REQ
  , { off := 0x104 }  -- PWR_STAT
  , { off := 0x108, rw := 0x3ff, reset := 0x258 }  -- PWR_CAP
  , { off := 0x10c, rw := 0xf }  -- PWR_LVL_MIN
  , { off := 0x110, rw := 0x3, reset := 0x1 }  -- PWR_PROFILE
  , { off := 0x114 }  -- PWR_POWER
  , { off := 0x118 }  -- PWR_ENERGY
  , { off := 0x11c }  -- PWR_TEMP_MAX
  , { off := 0x120, rw := 0xffffffff, reset := 0x7369055f }  -- PWR_THERM_CFG
  , { off := 0x124, rw := 0x3, reset := 0x1 }  -- PWR_CTL
  , { off := 0x128, rw := 0x1ff, sticky := true, aon := true }  -- PWR_WAKE_EN
  , { off := 0x12c, rw := 0xffffffff, sticky := true, aon := true }  -- PWR_WAKE_TIMER
  , { off := 0x130, w1c := 0x1ff, sticky := true, aon := true }  -- PWR_WAKE_STAT
  , { off := 0x134, w1c := 0x1, sticky := true, aon := true }  -- PWR_TRIP_REC
  , { off := 0x140, n := 26, rw := 0xf, reset := 0x9 }  -- PWR_ISL_CTL
  , { off := 0x200, n := 26 }  -- PWR_TEMP
  ]

/-- Registers of page `sec`: SEC_LC_STAT, SEC_LC_REQ, SEC_LC_ADDR_LO, SEC_LC_ADDR_HI, SEC_SERIAL_LO, SEC_SERIAL_HI, SEC_SVN, SEC_KEYS, SEC_CTL, SEC_COMMIT, SEC_AUDIT_CNT. -/
def RegDesc.sec : List RegDesc :=
  [ { off := 0x100 }  -- SEC_LC_STAT
  , { off := 0x104 }  -- SEC_LC_REQ
  , { off := 0x108, rw := 0xffffffff }  -- SEC_LC_ADDR_LO
  , { off := 0x10c, rw := 0xffffffff }  -- SEC_LC_ADDR_HI
  , { off := 0x110 }  -- SEC_SERIAL_LO
  , { off := 0x114 }  -- SEC_SERIAL_HI
  , { off := 0x118 }  -- SEC_SVN
  , { off := 0x11c }  -- SEC_KEYS
  , { off := 0x120, rw := 0x1 }  -- SEC_CTL
  , { off := 0x124 }  -- SEC_COMMIT
  , { off := 0x128 }  -- SEC_AUDIT_CNT
  ]

/-- Registers of page `dbg`: DBG_STAT, DBG_CHAL, DBG_TOKEN_LO, DBG_TOKEN_HI, DBG_UNLOCK, DBG_LOCK, DBG_REFUSE. -/
def RegDesc.dbg : List RegDesc :=
  [ { off := 0x100 }  -- DBG_STAT
  , { off := 0x104, n := 8 }  -- DBG_CHAL
  , { off := 0x124, rw := 0xffffffff }  -- DBG_TOKEN_LO
  , { off := 0x128, rw := 0xffffffff }  -- DBG_TOKEN_HI
  , { off := 0x12c }  -- DBG_UNLOCK
  , { off := 0x130 }  -- DBG_LOCK
  , { off := 0x134 }  -- DBG_REFUSE
  ]

/-- Registers of page `mgmt`: MGMT_STAT, MGMT_FW_VER, MGMT_WDT_CNT, MGMT_UPD_ADDR_LO, MGMT_UPD_ADDR_HI, MGMT_UPD_LEN, MGMT_UPD_CTL, MGMT_UPD_STAT, MGMT_SLOT. -/
def RegDesc.mgmt : List RegDesc :=
  [ { off := 0x100 }  -- MGMT_STAT
  , { off := 0x104 }  -- MGMT_FW_VER
  , { off := 0x108, rc := true, sticky := true }  -- MGMT_WDT_CNT
  , { off := 0x10c, rw := 0xffffffff }  -- MGMT_UPD_ADDR_LO
  , { off := 0x110, rw := 0xffffffff }  -- MGMT_UPD_ADDR_HI
  , { off := 0x114, rw := 0xffffffff }  -- MGMT_UPD_LEN
  , { off := 0x118 }  -- MGMT_UPD_CTL
  , { off := 0x11c }  -- MGMT_UPD_STAT
  , { off := 0x120, n := 2 }  -- MGMT_SLOT
  ]

/-- Registers of page `hif`: HIF_LINK_STAT, HIF_LINK_CTL, HIF_TAG_STAT, HIF_CPL_TO_US, HIF_RD_TO_CNT, HIF_LATE_CPL_CNT, HIF_BAR2_OFFSET, HIF_BAR2_USABLE, HIF_PM_STAT, HIF_FLR_STAT, HIF_VF_DONE, HIF_VF_SLICE, HIF_VF_CTX. -/
def RegDesc.hif : List RegDesc :=
  [ { off := 0x100 }  -- HIF_LINK_STAT
  , { off := 0x104, rw := 0x3ff, reset := 0x85 }  -- HIF_LINK_CTL
  , { off := 0x108 }  -- HIF_TAG_STAT
  , { off := 0x10c, reset := 0x9c40 }  -- HIF_CPL_TO_US
  , { off := 0x110, rc := true }  -- HIF_RD_TO_CNT
  , { off := 0x114, rc := true }  -- HIF_LATE_CPL_CNT
  , { off := 0x118, rw := 0xff }  -- HIF_BAR2_OFFSET
  , { off := 0x11c }  -- HIF_BAR2_USABLE
  , { off := 0x120 }  -- HIF_PM_STAT
  , { off := 0x124 }  -- HIF_FLR_STAT
  , { off := 0x128, w1c := 0xfffe }  -- HIF_VF_DONE
  , { off := 0x140, n := 15, rw := 0xff }  -- HIF_VF_SLICE
  , { off := 0x180, n := 60, rw := 0xffffffff }  -- HIF_VF_CTX
  ]

/-- Registers of page `sched`: SCHED_CORE_OFF, SCHED_CORE_REFUSED, SCHED_RT_SEL, SCHED_RT_STAT, SCHED_RT_STEPS, SCHED_RT_DROPS, SCHED_RT_SKIPPED, SCHED_PREEMPT_MAX, SCHED_TEARDOWN_MAX. -/
def RegDesc.sched : List RegDesc :=
  [ { off := 0x100, rw := 0xffff }  -- SCHED_CORE_OFF
  , { off := 0x104, w1c := 0xffff }  -- SCHED_CORE_REFUSED
  , { off := 0x108, rw := 0xff }  -- SCHED_RT_SEL
  , { off := 0x10c }  -- SCHED_RT_STAT
  , { off := 0x110 }  -- SCHED_RT_STEPS
  , { off := 0x114, rc := true }  -- SCHED_RT_DROPS
  , { off := 0x118, rc := true }  -- SCHED_RT_SKIPPED
  , { off := 0x11c, rc := true }  -- SCHED_PREEMPT_MAX
  , { off := 0x120, rc := true }  -- SCHED_TEARDOWN_MAX
  ]

/-- Registers of page `bpm0`: BPM_ENG_TMO, BPM_STAT, BPM_LEDGER_USED. -/
def RegDesc.bpm0 : List RegDesc :=
  [ { off := 0x100, rw := 0xffffff, reset := 0x2710 }  -- BPM_ENG_TMO
  , { off := 0x104 }  -- BPM_STAT
  , { off := 0x108 }  -- BPM_LEDGER_USED
  ]

/-- Registers of page `bpm1`: BPM_POOL_CFG0, BPM_POOL_CFG1, BPM_POOL_CFG2, BPM_POOL_RETIRED, BPM_POOL_BASE_LO, BPM_POOL_BASE_HI, BPM_POOL_STAT, BPM_POOL_FREE. -/
def RegDesc.bpm1 : List RegDesc :=
  [ { off := 0x100, n := 16, stride := 0x20, rw := 0x1fffff }  -- BPM_POOL_CFG0
  , { off := 0x104, n := 16, stride := 0x20, rw := 0x7ffff }  -- BPM_POOL_CFG1
  , { off := 0x108, n := 16, stride := 0x20, rw := 0x7fff }  -- BPM_POOL_CFG2
  , { off := 0x10c, n := 16, stride := 0x20 }  -- BPM_POOL_RETIRED
  , { off := 0x110, n := 16, stride := 0x20, rw := 0xffffffff }  -- BPM_POOL_BASE_LO
  , { off := 0x114, n := 16, stride := 0x20, rw := 0xffffffff }  -- BPM_POOL_BASE_HI
  , { off := 0x118, n := 16, stride := 0x20 }  -- BPM_POOL_STAT
  , { off := 0x11c, n := 16, stride := 0x20 }  -- BPM_POOL_FREE
  ]

/-- Registers of page `bpm2`: BPM_RQ_SEL, BPM_RQ_QUOTA, BPM_RQ_RESERVE, BPM_RQ_USED, BPM_RQ_STAT. -/
def RegDesc.bpm2 : List RegDesc :=
  [ { off := 0x100, rw := 0x7f0f }  -- BPM_RQ_SEL
  , { off := 0x104, reset := 0x100000 }  -- BPM_RQ_QUOTA
  , { off := 0x108 }  -- BPM_RQ_RESERVE
  , { off := 0x10c }  -- BPM_RQ_USED
  , { off := 0x110 }  -- BPM_RQ_STAT
  ]

/-- Registers of page `bpm3`: BPM_OWN_ADDR_LO, BPM_OWN_ADDR_HI, BPM_OWN_RESULT, BPM_OWN_HANDLE, BPM_OWN_COUNT. -/
def RegDesc.bpm3 : List RegDesc :=
  [ { off := 0x100, rw := 0xffffffff }  -- BPM_OWN_ADDR_LO
  , { off := 0x104, rw := 0xffffffff }  -- BPM_OWN_ADDR_HI
  , { off := 0x108 }  -- BPM_OWN_RESULT
  , { off := 0x10c }  -- BPM_OWN_HANDLE
  , { off := 0x110 }  -- BPM_OWN_COUNT
  ]

/-- Registers of page `ras`: RAS_CTL, RAS_SCRUB_PERIOD, RAS_SCRUB_POS, RAS_SCRUB_PASSES, RAS_CE_THRESH, RAS_CE_WINDOW, RAS_STAT, RAS_RETIRE_CNT, RAS_RETIRE_IDX, RAS_RETIRE_PAGE, RAS_INJ_ADDR_LO, RAS_INJ_ADDR_HI, RAS_INJ_CTL. -/
def RegDesc.ras : List RegDesc :=
  [ { off := 0x100, rw := 0x3, reset := 0x1 }  -- RAS_CTL
  , { off := 0x104, rw := 0xff, reset := 0x18 }  -- RAS_SCRUB_PERIOD
  , { off := 0x108 }  -- RAS_SCRUB_POS
  , { off := 0x10c }  -- RAS_SCRUB_PASSES
  , { off := 0x110, rw := 0xffff, reset := 0x100 }  -- RAS_CE_THRESH
  , { off := 0x114, rw := 0xffff, reset := 0xe10 }  -- RAS_CE_WINDOW
  , { off := 0x118 }  -- RAS_STAT
  , { off := 0x11c }  -- RAS_RETIRE_CNT
  , { off := 0x120, rw := 0x3ff }  -- RAS_RETIRE_IDX
  , { off := 0x124 }  -- RAS_RETIRE_PAGE
  , { off := 0x128, rw := 0xffffffff }  -- RAS_INJ_ADDR_LO
  , { off := 0x12c, rw := 0xffffffff }  -- RAS_INJ_ADDR_HI
  , { off := 0x130, rw := 0x3 }  -- RAS_INJ_CTL
  ]

/-- Registers of page `memc`: MEMC_CFG, MEMC_TRAIN_STAT, MEMC_CE_CNT, MEMC_UE_CNT, MEMC_LP_STAT, MEMC_TEMP. -/
def RegDesc.memc : List RegDesc :=
  [ { off := 0x100 }  -- MEMC_CFG
  , { off := 0x104 }  -- MEMC_TRAIN_STAT
  , { off := 0x108, rc := true, sticky := true }  -- MEMC_CE_CNT
  , { off := 0x10c, rc := true, sticky := true }  -- MEMC_UE_CNT
  , { off := 0x110 }  -- MEMC_LP_STAT
  , { off := 0x114 }  -- MEMC_TEMP
  ]

/-- Registers of page `noc`: NOC_GEOM, NOC_PORT_ISO, NOC_PORT_ISO_SET, NOC_PORT_ISO_CLR, NOC_ERR_STAT, NOC_ERR_CNT, NOC_ERR_ROUTER. -/
def RegDesc.noc : List RegDesc :=
  [ { off := 0x100, reset := 0x400605 }  -- NOC_GEOM
  , { off := 0x104, reset := 0x10000 }  -- NOC_PORT_ISO
  , { off := 0x108 }  -- NOC_PORT_ISO_SET
  , { off := 0x10c }  -- NOC_PORT_ISO_CLR
  , { off := 0x110, w1c := 0xf }  -- NOC_ERR_STAT
  , { off := 0x114, rc := true }  -- NOC_ERR_CNT
  , { off := 0x118 }  -- NOC_ERR_ROUTER
  ]

/-- Registers of page `vdec`: VDEC_STAT, VDEC_FW_VER, VDEC_SEL, VDEC_STRM_STAT, VDEC_STRM_PICS, VDEC_STRM_ERRS, VDEC_SWITCH_MAX. -/
def RegDesc.vdec : List RegDesc :=
  [ { off := 0x100 }  -- VDEC_STAT
  , { off := 0x104 }  -- VDEC_FW_VER
  , { off := 0x108, rw := 0xfff }  -- VDEC_SEL
  , { off := 0x10c }  -- VDEC_STRM_STAT
  , { off := 0x110 }  -- VDEC_STRM_PICS
  , { off := 0x114 }  -- VDEC_STRM_ERRS
  , { off := 0x118, rc := true }  -- VDEC_SWITCH_MAX
  ]

/-- Registers of page `venc`: VENC_STAT, VENC_FW_VER, VENC_CUR_CLIP, VENC_CUR_PIC, VENC_KEY_STAT, VENC_ENC_MAX, VENC_REFUSED. -/
def RegDesc.venc : List RegDesc :=
  [ { off := 0x100 }  -- VENC_STAT
  , { off := 0x104 }  -- VENC_FW_VER
  , { off := 0x108 }  -- VENC_CUR_CLIP
  , { off := 0x10c }  -- VENC_CUR_PIC
  , { off := 0x110 }  -- VENC_KEY_STAT
  , { off := 0x114, rc := true }  -- VENC_ENC_MAX
  , { off := 0x118, rc := true }  -- VENC_REFUSED
  ]

/-- Registers of page `jpeg`: JOB_PUSH_LO, JOB_PUSH_HI, JOB_STAT, JOB_LAST, JOB_REFUSED. -/
def RegDesc.jpeg : List RegDesc :=
  [ { off := 0x100, rw := 0xffffffff }  -- JOB_PUSH_LO
  , { off := 0x104 }  -- JOB_PUSH_HI
  , { off := 0x108 }  -- JOB_STAT
  , { off := 0x10c }  -- JOB_LAST
  , { off := 0x110, rc := true }  -- JOB_REFUSED
  ]

/-- Registers of page `ppu`: JOB_PUSH_LO, JOB_PUSH_HI, JOB_STAT, JOB_LAST, JOB_REFUSED. -/
def RegDesc.ppu : List RegDesc :=
  [ { off := 0x100, rw := 0xffffffff }  -- JOB_PUSH_LO
  , { off := 0x104 }  -- JOB_PUSH_HI
  , { off := 0x108 }  -- JOB_STAT
  , { off := 0x10c }  -- JOB_LAST
  , { off := 0x110, rc := true }  -- JOB_REFUSED
  ]

/-- Registers of page `dpp`: JOB_PUSH_LO, JOB_PUSH_HI, JOB_STAT, JOB_LAST, JOB_REFUSED, DPP_OUTBOX_USED, DPP_TRUNC_CNT. -/
def RegDesc.dpp : List RegDesc :=
  [ { off := 0x100, rw := 0xffffffff }  -- JOB_PUSH_LO
  , { off := 0x104 }  -- JOB_PUSH_HI
  , { off := 0x108 }  -- JOB_STAT
  , { off := 0x10c }  -- JOB_LAST
  , { off := 0x110, rc := true }  -- JOB_REFUSED
  , { off := 0x114 }  -- DPP_OUTBOX_USED
  , { off := 0x118, rc := true }  -- DPP_TRUNC_CNT
  ]

/-- Registers of page `slv`: JOB_PUSH_LO, JOB_PUSH_HI, JOB_STAT, JOB_LAST, JOB_REFUSED, SLV_BA_STAT, SLV_PIVOT_CNT, SLV_RANGE_CNT, SLV_SUBOP_MAX. -/
def RegDesc.slv : List RegDesc :=
  [ { off := 0x100, rw := 0xffffffff }  -- JOB_PUSH_LO
  , { off := 0x104 }  -- JOB_PUSH_HI
  , { off := 0x108 }  -- JOB_STAT
  , { off := 0x10c }  -- JOB_LAST
  , { off := 0x110, rc := true }  -- JOB_REFUSED
  , { off := 0x114 }  -- SLV_BA_STAT
  , { off := 0x118, rc := true }  -- SLV_PIVOT_CNT
  , { off := 0x11c, rc := true }  -- SLV_RANGE_CNT
  , { off := 0x120, rc := true }  -- SLV_SUBOP_MAX
  ]

/-- Registers of page `time`: TIME_CTL, TIME_STAT, TIME_NOW_LO, TIME_NOW_HI, TIME_NOW_FRAC, TIME_RATE, TIME_STEP_LO, TIME_STEP_HI, TIME_PTM_OFF_LO, TIME_PTM_OFF_HI, TIME_PTM_INTERVAL, TIME_ERR, TIME_LINK_DELAY, TIME_SYNCIN_LO, TIME_SYNCIN_HI, TIME_SYNCIN_CNT, TIME_ARMED, TIME_LATE_CNT, TIME_INST_STALE, TIME_INST_EXTRA, TIME_NOP_CNT, TIME_ENT_OWNER. -/
def RegDesc.time : List RegDesc :=
  [ { off := 0x100, rw := 0x1f }  -- TIME_CTL
  , { off := 0x104 }  -- TIME_STAT
  , { off := 0x108 }  -- TIME_NOW_LO
  , { off := 0x10c }  -- TIME_NOW_HI
  , { off := 0x110 }  -- TIME_NOW_FRAC
  , { off := 0x114, rw := 0xffffffff }  -- TIME_RATE
  , { off := 0x118, rw := 0xffffffff }  -- TIME_STEP_LO
  , { off := 0x11c }  -- TIME_STEP_HI
  , { off := 0x120, rw := 0xffffffff }  -- TIME_PTM_OFF_LO
  , { off := 0x124, rw := 0xffffffff }  -- TIME_PTM_OFF_HI
  , { off := 0x128, rw := 0x3ff, reset := 0xa }  -- TIME_PTM_INTERVAL
  , { off := 0x12c }  -- TIME_ERR
  , { off := 0x130 }  -- TIME_LINK_DELAY
  , { off := 0x134 }  -- TIME_SYNCIN_LO
  , { off := 0x138 }  -- TIME_SYNCIN_HI
  , { off := 0x13c }  -- TIME_SYNCIN_CNT
  , { off := 0x140 }  -- TIME_ARMED
  , { off := 0x144, rc := true }  -- TIME_LATE_CNT
  , { off := 0x148, rc := true }  -- TIME_INST_STALE
  , { off := 0x14c, rc := true }  -- TIME_INST_EXTRA
  , { off := 0x150, rc := true }  -- TIME_NOP_CNT
  , { off := 0x200, n := 64 }  -- TIME_ENT_OWNER
  ]

/-- Registers of page `glk`: GLK_CTL, GLK_STAT, GLK_PEER_SER_LO, GLK_PEER_SER_HI, GLK_REPLAY_TMO, GLK_REPLAY_CNT, GLK_CRC_CNT, GLK_TAG_CNT, GLK_DROP_CNT. -/
def RegDesc.glk : List RegDesc :=
  [ { off := 0x100, rw := 0x1, reset := 0x1 }  -- GLK_CTL
  , { off := 0x104 }  -- GLK_STAT
  , { off := 0x108 }  -- GLK_PEER_SER_LO
  , { off := 0x10c }  -- GLK_PEER_SER_HI
  , { off := 0x110, rw := 0xffff, reset := 0xfa0 }  -- GLK_REPLAY_TMO
  , { off := 0x114, rc := true }  -- GLK_REPLAY_CNT
  , { off := 0x118, rc := true }  -- GLK_CRC_CNT
  , { off := 0x11c, rc := true }  -- GLK_TAG_CNT
  , { off := 0x120, rc := true }  -- GLK_DROP_CNT
  ]

/-- Registers of page `chain`: CHAIN_CTL, CHAIN_STAT, CHAIN_UNITS, CHAIN_LOST, CHAIN_ADMIT, CHAIN_LOSS_HOLD, CHAIN_I2C_PERIOD, CHAIN_ROUTE, CHAIN_RES_SEL, CHAIN_RES_SER_LO, CHAIN_RES_SER_HI, CHAIN_NOROUTE_CNT, CHAIN_SLOT_CTL, CHAIN_SLOT_STAT. -/
def RegDesc.chain : List RegDesc :=
  [ { off := 0x100, rw := 0x3, reset := 0x3 }  -- CHAIN_CTL
  , { off := 0x104 }  -- CHAIN_STAT
  , { off := 0x108, reset := 0x1 }  -- CHAIN_UNITS
  , { off := 0x10c, w1c := 0xffff }  -- CHAIN_LOST
  , { off := 0x110 }  -- CHAIN_ADMIT
  , { off := 0x114, rw := 0xff, reset := 0x14 }  -- CHAIN_LOSS_HOLD
  , { off := 0x118, rw := 0xff, reset := 0xa }  -- CHAIN_I2C_PERIOD
  , { off := 0x11c, reset := 0xfffffffc }  -- CHAIN_ROUTE
  , { off := 0x120, rw := 0xf }  -- CHAIN_RES_SEL
  , { off := 0x124, rw := 0xffffffff }  -- CHAIN_RES_SER_LO
  , { off := 0x128, rw := 0xffffffff }  -- CHAIN_RES_SER_HI
  , { off := 0x12c, rc := true }  -- CHAIN_NOROUTE_CNT
  , { off := 0x140, n := 15, stride := 0x8, rw := 0xff }  -- CHAIN_SLOT_CTL
  , { off := 0x144, n := 15, stride := 0x8, w1c := 0x100c }  -- CHAIN_SLOT_STAT
  ]

/-- Registers of page `vent`: VENT_STAT, VENT_BLOCK_CNT, VENT_WOULD_CNT, VENT_LAST_ADDR_LO, VENT_LAST_ADDR_HI, VENT_LAST_INFO. -/
def RegDesc.vent : List RegDesc :=
  [ { off := 0x100 }  -- VENT_STAT
  , { off := 0x104, rc := true }  -- VENT_BLOCK_CNT
  , { off := 0x108, rc := true }  -- VENT_WOULD_CNT
  , { off := 0x10c, rc := true }  -- VENT_LAST_ADDR_LO
  , { off := 0x110 }  -- VENT_LAST_ADDR_HI
  , { off := 0x114 }  -- VENT_LAST_INFO
  ]

/-- Registers of page `seq`: SEQ_STAT, SEQ_PC, SEQ_PROG_OFF, SEQ_WAIT_TMO, SEQ_AS_BASE, SEQ_AS_LIMIT, SEQ_AS_CE_CNT, SEQ_AS_UE_ADDR, SEQ_SIG, SEQ_LC, SEQ_MAP_SEL, SEQ_MAP_DATA. -/
def RegDesc.seq : List RegDesc :=
  [ { off := 0x100 }  -- SEQ_STAT
  , { off := 0x104 }  -- SEQ_PC
  , { off := 0x108, rw := 0xffffffff }  -- SEQ_PROG_OFF
  , { off := 0x10c, rw := 0xffffffff, reset := 0x186a0 }  -- SEQ_WAIT_TMO
  , { off := 0x110, rw := 0x7fffc0 }  -- SEQ_AS_BASE
  , { off := 0x114, rw := 0xffffff, reset := 0x800000 }  -- SEQ_AS_LIMIT
  , { off := 0x118, rc := true, sticky := true }  -- SEQ_AS_CE_CNT
  , { off := 0x11c, sticky := true }  -- SEQ_AS_UE_ADDR
  , { off := 0x120, n := 16 }  -- SEQ_SIG
  , { off := 0x160, n := 4 }  -- SEQ_LC
  , { off := 0x170, rw := 0xff }  -- SEQ_MAP_SEL
  , { off := 0x174 }  -- SEQ_MAP_DATA
  ]

/-- Registers of page `mxu`: MXU_STAT, MXU_SUB_BUSY, MXU_SUB_FLAG_LO, MXU_SUB_FLAG_HI, MXU_PAR_CNT, MXU_PREEMPT_TMO, MXU_PASS_CNT, MXU_LAST_LAT. -/
def RegDesc.mxu : List RegDesc :=
  [ { off := 0x100 }  -- MXU_STAT
  , { off := 0x104 }  -- MXU_SUB_BUSY
  , { off := 0x108, w1c := 0xffffffff }  -- MXU_SUB_FLAG_LO
  , { off := 0x10c, w1c := 0xffffffff }  -- MXU_SUB_FLAG_HI
  , { off := 0x110, rc := true, sticky := true }  -- MXU_PAR_CNT
  , { off := 0x114, rw := 0xffffff }  -- MXU_PREEMPT_TMO
  , { off := 0x118 }  -- MXU_PASS_CNT
  , { off := 0x11c }  -- MXU_LAST_LAT
  ]

/-- Registers of page `vec`: VEC_STAT, VEC_PC, VEC_ERR, VEC_EPI_ERR. -/
def RegDesc.vec : List RegDesc :=
  [ { off := 0x100 }  -- VEC_STAT
  , { off := 0x104 }  -- VEC_PC
  , { off := 0x108, sticky := true }  -- VEC_ERR
  , { off := 0x10c, sticky := true }  -- VEC_EPI_ERR
  ]

/-- Registers of page `adg`: ADG_STAT, ADG_PASS, ADG_ERR. -/
def RegDesc.adg : List RegDesc :=
  [ { off := 0x100 }  -- ADG_STAT
  , { off := 0x104 }  -- ADG_PASS
  , { off := 0x108, sticky := true }  -- ADG_ERR
  ]

/-- Registers of page `mbx`: MBX_CH_CFG0, MBX_CH_CFG1, MBX_CH_CFG2, MBX_CH_STAT, MBX_CREDIT_TMO, MBX_OUT_USED, MBX_DROP_CNT. -/
def RegDesc.mbx : List RegDesc :=
  [ { off := 0x100, n := 32, stride := 0x10, rw := 0xffffffff }  -- MBX_CH_CFG0
  , { off := 0x104, n := 32, stride := 0x10, rw := 0xffffffff }  -- MBX_CH_CFG1
  , { off := 0x108, n := 32, stride := 0x10, rw := 0xffffffff }  -- MBX_CH_CFG2
  , { off := 0x10c, n := 32, stride := 0x10 }  -- MBX_CH_STAT
  , { off := 0x300, rw := 0xffffffff, reset := 0x2710 }  -- MBX_CREDIT_TMO
  , { off := 0x304 }  -- MBX_OUT_USED
  , { off := 0x308, rc := true }  -- MBX_DROP_CNT
  ]

/-- Registers of page `wsu`: WSU_STAT, WSU_MCAST_MASK, WSU_MCAST_TMO. -/
def RegDesc.wsu : List RegDesc :=
  [ { off := 0x100 }  -- WSU_STAT
  , { off := 0x110, n := 8, rw := 0x1ffff }  -- WSU_MCAST_MASK
  , { off := 0x130, rw := 0xffffffff, reset := 0x3e8 }  -- WSU_MCAST_TMO
  ]

/-- Registers of page `ctx0`: CTX_CTL, CTX_STAT, CTX_RING_BASE_LO, CTX_RING_BASE_HI, CTX_RING_SIZE, CTX_RING_CNT, CTX_SEQ_INIT, CTX_SEQ_HIGH, CTX_DB_ERR, CTX_FULL_CNT, CTX_MOD, CTX_IN_DB, CTX_HB_PERIOD. -/
def RegDesc.ctx0 : List RegDesc :=
  [ { off := 0x100, rw := 0xf }  -- CTX_CTL
  , { off := 0x104 }  -- CTX_STAT
  , { off := 0x110, n := 4, stride := 0x10, rw := 0xffffffff }  -- CTX_RING_BASE_LO
  , { off := 0x114, n := 4, stride := 0x10, rw := 0xffffffff }  -- CTX_RING_BASE_HI
  , { off := 0x118, n := 4, stride := 0x10, rw := 0xf, reset := 0x4 }  -- CTX_RING_SIZE
  , { off := 0x11c, n := 4, stride := 0x10 }  -- CTX_RING_CNT
  , { off := 0x150, rw := 0xffffffff }  -- CTX_SEQ_INIT
  , { off := 0x154 }  -- CTX_SEQ_HIGH
  , { off := 0x158, rc := true }  -- CTX_DB_ERR
  , { off := 0x15c, rc := true }  -- CTX_FULL_CNT
  , { off := 0x164, n := 3, rw := 0xffffff }  -- CTX_MOD
  , { off := 0x170 }  -- CTX_IN_DB
  , { off := 0x174, rw := 0xffff }  -- CTX_HB_PERIOD
  ]

/-- Registers of page `ctx1`: CTX_PRIO, CTX_QUOTA, CTX_CORESET. -/
def RegDesc.ctx1 : List RegDesc :=
  [ { off := 0x100, rw := 0x7 }  -- CTX_PRIO
  , { off := 0x104, rw := 0xffff, reset := 0x8000 }  -- CTX_QUOTA
  , { off := 0x140, n := 16, rw := 0xffff, reset := 0xffff }  -- CTX_CORESET
  ]

/-- Registers of page `ctx2`: CTX_PF_CTL, CTX_PF_STAT, CTX_PF_HITS, CTX_PF_FILLS, CTX_PF_BASE, CTX_PF_PAGES. -/
def RegDesc.ctx2 : List RegDesc :=
  [ { off := 0x100, rw := 0xffff }  -- CTX_PF_CTL
  , { off := 0x104, w1c := 0xffff }  -- CTX_PF_STAT
  , { off := 0x108, rc := true }  -- CTX_PF_HITS
  , { off := 0x10c, rc := true }  -- CTX_PF_FILLS
  , { off := 0x110, n := 16, stride := 0x10, rw := 0x1ffffff }  -- CTX_PF_BASE
  , { off := 0x114, n := 16, stride := 0x10, rw := 0x1ffffff }  -- CTX_PF_PAGES
  ]

/-- Registers of page `ctx3`: CTX_WIN_SEQ, CTX_WIN_RESULT, CTX_WIN_STATUS. -/
def RegDesc.ctx3 : List RegDesc :=
  [ { off := 0x100, n := 64, stride := 0x10 }  -- CTX_WIN_SEQ
  , { off := 0x104, n := 64, stride := 0x10 }  -- CTX_WIN_RESULT
  , { off := 0x108, n := 64, stride := 0x10 }  -- CTX_WIN_STATUS
  ]

/-- A page of the map: block type code (R27), page index and count, instance, island, capabilities, the assigned bits of
BLK_IRQ_STAT, and its registers. -/
structure PageInfo where
  typ : Nat
  idx : Nat := 0
  pages : Nat := 1
  inst : Nat := 0
  isl : Nat := 23
  cap : Nat := 0
  irq : Nat := 0
  regs : List RegDesc := []
  deriving DecidableEq, Repr

def PageInfo.top : PageInfo := { typ := 0x1, irq := 0x10003, regs := RegDesc.top }
def PageInfo.clk : PageInfo := { typ := 0x2, regs := RegDesc.clk }
def PageInfo.pwr : PageInfo := { typ := 0x3, irq := 0x30007, regs := RegDesc.pwr }
def PageInfo.sec : PageInfo := { typ := 0x4, irq := 0x30001, regs := RegDesc.sec }
def PageInfo.dbg : PageInfo := { typ := 0x5, irq := 0x10001, regs := RegDesc.dbg }
def PageInfo.mgmt : PageInfo := { typ := 0x6, irq := 0x30001, regs := RegDesc.mgmt }
def PageInfo.hif : PageInfo := { typ := 0x7, isl := 16, irq := 0x1f0007, regs := RegDesc.hif }
def PageInfo.sched : PageInfo := { typ := 0x8, irq := 0x10003, regs := RegDesc.sched }
def PageInfo.bpm0 : PageInfo := { typ := 0x9, idx := 0, pages := 4, irq := 0x30003, regs := RegDesc.bpm0 }
def PageInfo.bpm1 : PageInfo := { typ := 0x9, idx := 1, pages := 4, irq := 0x30003, regs := RegDesc.bpm1 }
def PageInfo.bpm2 : PageInfo := { typ := 0x9, idx := 2, pages := 4, irq := 0x30003, regs := RegDesc.bpm2 }
def PageInfo.bpm3 : PageInfo := { typ := 0x9, idx := 3, pages := 4, irq := 0x30003, regs := RegDesc.bpm3 }
def PageInfo.ras : PageInfo := { typ := 0xa, irq := 0x30003, regs := RegDesc.ras }
def PageInfo.memc : PageInfo := { typ := 0xb, isl := 19, irq := 0x30001, regs := RegDesc.memc }
def PageInfo.noc : PageInfo := { typ := 0xc, regs := RegDesc.noc }
def PageInfo.vdec : PageInfo := { typ := 0xd, isl := 21, cap := 0x99334007, irq := 0x70001, regs := RegDesc.vdec }
def PageInfo.venc : PageInfo := { typ := 0xe, isl := 21, cap := 0x3c447803, irq := 0x50003, regs := RegDesc.venc }
def PageInfo.jpeg : PageInfo := { typ := 0xf, isl := 22, cap := 0x1, irq := 0x70003, regs := RegDesc.jpeg }
def PageInfo.ppu : PageInfo := { typ := 0x10, isl := 22, cap := 0x1f, irq := 0x50003, regs := RegDesc.ppu }
def PageInfo.dpp : PageInfo := { typ := 0x11, isl := 22, cap := 0x4000008, irq := 0x50007, regs := RegDesc.dpp }
def PageInfo.slv : PageInfo := { typ := 0x12, isl := 22, cap := 0x1082080, irq := 0x7000f, regs := RegDesc.slv }
def PageInfo.time : PageInfo := { typ := 0x13, isl := 24, cap := 0x100, irq := 0x10007, regs := RegDesc.time }
def PageInfo.glk : PageInfo := { typ := 0x14, isl := 17, irq := 0x70001, regs := RegDesc.glk }
def PageInfo.chain : PageInfo := { typ := 0x15, irq := 0x30007, regs := RegDesc.chain }
def PageInfo.vent : PageInfo := { typ := 0x16, irq := 0x10000, regs := RegDesc.vent }
def PageInfo.seq : PageInfo := { typ := 0x20, pages := 6, irq := 0x30001, regs := RegDesc.seq }
def PageInfo.mxu : PageInfo := { typ := 0x21, pages := 6, cap := 0x1007f, irq := 0x70000, regs := RegDesc.mxu }
def PageInfo.vec : PageInfo := { typ := 0x22, pages := 6, cap := 0x8001040, irq := 0x30000, regs := RegDesc.vec }
def PageInfo.adg : PageInfo := { typ := 0x23, pages := 6, cap := 0x14040, irq := 0x10000, regs := RegDesc.adg }
def PageInfo.mbx : PageInfo := { typ := 0x24, pages := 6, irq := 0x10000, regs := RegDesc.mbx }
def PageInfo.wsu : PageInfo := { typ := 0x25, pages := 6, regs := RegDesc.wsu }
def PageInfo.ctx0 : PageInfo := { typ := 0x30, idx := 0, pages := 4, irq := 0x10001, regs := RegDesc.ctx0 }
def PageInfo.ctx1 : PageInfo := { typ := 0x30, idx := 1, pages := 4, irq := 0x10001, regs := RegDesc.ctx1 }
def PageInfo.ctx2 : PageInfo := { typ := 0x30, idx := 2, pages := 4, irq := 0x10001, regs := RegDesc.ctx2 }
def PageInfo.ctx3 : PageInfo := { typ := 0x30, idx := 3, pages := 4, irq := 0x10001, regs := RegDesc.ctx3 }

/-- The page that holds an offset of the unit-local layout or of the context pages (R34). The window of the timetable
entries has no header (R26) and is no page here. -/
def pageAt (off : Nat) : Option PageInfo :=
  let p := off / 0x1000
  if p = 0 then some PageInfo.top
  else if p = 1 then some PageInfo.clk
  else if p = 2 then some PageInfo.pwr
  else if p = 3 then some PageInfo.sec
  else if p = 4 then some PageInfo.dbg
  else if p = 5 then some PageInfo.mgmt
  else if p = 6 then some PageInfo.hif
  else if p = 7 then some PageInfo.sched
  else if p = 0x10 then some PageInfo.bpm0
  else if p = 0x11 then some PageInfo.bpm1
  else if p = 0x12 then some PageInfo.bpm2
  else if p = 0x13 then some PageInfo.bpm3
  else if p = 0x18 then some PageInfo.ras
  else if 0x20 ≤ p ∧ p < 0x28 then some { PageInfo.memc with inst := p - 0x20, isl := if p < 0x24 then 19 else 20 }
  else if p = 0x30 then some PageInfo.noc
  else if 0x40 ≤ p ∧ p < 0x44 then some { PageInfo.vdec with inst := p - 0x40 }
  else if p = 0x48 then some PageInfo.venc
  else if p = 0x50 then some PageInfo.jpeg
  else if p = 0x51 ∨ p = 0x52 then some { PageInfo.ppu with inst := p - 0x51 }
  else if p = 0x60 then some PageInfo.dpp
  else if p = 0x68 then some PageInfo.slv
  else if p = 0x70 then some PageInfo.time
  else if p = 0x78 ∨ p = 0x79 then some { PageInfo.glk with inst := p - 0x78, isl := 17 + (p - 0x78) }
  else if p = 0x7A then some PageInfo.chain
  else if p = 0x7C then some PageInfo.vent
  else if 0x100 ≤ p ∧ p < 0x200 then
    let n := (p - 0x100) / 16
    let sub := p % 16
    if sub = 0 then some { PageInfo.seq with inst := n, isl := n, idx := 0 }
    else if sub = 1 then some { PageInfo.mxu with inst := n, isl := n, idx := 1 }
    else if sub = 2 then some { PageInfo.vec with inst := n, isl := n, idx := 2 }
    else if sub = 3 then some { PageInfo.adg with inst := n, isl := n, idx := 3 }
    else if sub = 4 then some { PageInfo.mbx with inst := n, isl := n, idx := 4 }
    else if sub = 5 then some { PageInfo.wsu with inst := n, isl := n, idx := 5 }
    else none
  else if 0x400 ≤ p ∧ p < 0x800 then
    let c := (p - 0x400) / 4
    if p % 4 = 0 then some { PageInfo.ctx0 with inst := c }
    else if p % 4 = 1 then some { PageInfo.ctx1 with inst := c }
    else if p % 4 = 2 then some { PageInfo.ctx2 with inst := c }
    else some { PageInfo.ctx3 with inst := c }
  else none

/-- Whether register row `d` has an instance at page offset `o`. -/
def RegDesc.at (d : RegDesc) (o : Nat) : Bool :=
  d.off ≤ o && (o - d.off) % d.stride == 0 && (o - d.off) / d.stride < d.n

/-- The register row of a page at page offset `o`, if the offset maps one. -/
def findReg (l : List RegDesc) (o : Nat) : Option RegDesc := l.find? (·.at o)

/-- The reset value of the register at an offset (the register tables; the common header). -/
def regReset (off : Nat) : Word :=
  let o := off % 0x1000
  if o < 0x100 then (if o = 0x24 then 1 else 0)
  else match pageAt off with
    | none => 0
    | some p => match findReg p.regs o with
      | none => 0
      | some d => Word.ofNat d.reset

/-- Page base of an offset. -/
def pageBase (off : Nat) : Nat := off / 0x1000 * 0x1000

/-! ### Register offsets by name -/

namespace R

def topStrap : Nat := 0x100
def topStat : Nat := 0x104
def topCtl : Nat := 0x108
def topRstCause : Nat := 0x10c
def topBootMs : Nat := 0x110
def topAlertStat : Nat := 0x114
def topAlertEn : Nat := 0x118
def clkIslFreq (i : Nat) : Nat := 0x1100 + 0x4 * i
def clkIslStat (i : Nat) : Nat := 0x1180 + 0x4 * i
def pwrStateReq : Nat := 0x2100
def pwrStat : Nat := 0x2104
def pwrCap : Nat := 0x2108
def pwrLvlMin : Nat := 0x210c
def pwrProfile : Nat := 0x2110
def pwrPower : Nat := 0x2114
def pwrEnergy : Nat := 0x2118
def pwrTempMax : Nat := 0x211c
def pwrThermCfg : Nat := 0x2120
def pwrCtl : Nat := 0x2124
def pwrWakeEn : Nat := 0x2128
def pwrWakeTimer : Nat := 0x212c
def pwrWakeStat : Nat := 0x2130
def pwrTripRec : Nat := 0x2134
def pwrIslCtl (i : Nat) : Nat := 0x2140 + 0x4 * i
def pwrTemp (i : Nat) : Nat := 0x2200 + 0x4 * i
def secLcStat : Nat := 0x3100
def secLcReq : Nat := 0x3104
def secLcAddrLo : Nat := 0x3108
def secLcAddrHi : Nat := 0x310c
def secSerialLo : Nat := 0x3110
def secSerialHi : Nat := 0x3114
def secSvn : Nat := 0x3118
def secKeys : Nat := 0x311c
def secCtl : Nat := 0x3120
def secCommit : Nat := 0x3124
def secAuditCnt : Nat := 0x3128
def dbgStat : Nat := 0x4100
def dbgChal (i : Nat) : Nat := 0x4104 + 0x4 * i
def dbgTokenLo : Nat := 0x4124
def dbgTokenHi : Nat := 0x4128
def dbgUnlock : Nat := 0x412c
def dbgLock : Nat := 0x4130
def dbgRefuse : Nat := 0x4134
def mgmtStat : Nat := 0x5100
def mgmtFwVer : Nat := 0x5104
def mgmtWdtCnt : Nat := 0x5108
def mgmtUpdAddrLo : Nat := 0x510c
def mgmtUpdAddrHi : Nat := 0x5110
def mgmtUpdLen : Nat := 0x5114
def mgmtUpdCtl : Nat := 0x5118
def mgmtUpdStat : Nat := 0x511c
def mgmtSlot (i : Nat) : Nat := 0x5120 + 0x4 * i
def hifLinkStat : Nat := 0x6100
def hifLinkCtl : Nat := 0x6104
def hifTagStat : Nat := 0x6108
def hifCplToUs : Nat := 0x610c
def hifRdToCnt : Nat := 0x6110
def hifLateCplCnt : Nat := 0x6114
def hifBar2Offset : Nat := 0x6118
def hifBar2Usable : Nat := 0x611c
def hifPmStat : Nat := 0x6120
def hifFlrStat : Nat := 0x6124
def hifVfDone : Nat := 0x6128
def hifVfSlice (i : Nat) : Nat := 0x6140 + 0x4 * i
def hifVfCtx (i : Nat) : Nat := 0x6180 + 0x4 * i
def schedCoreOff : Nat := 0x7100
def schedCoreRefused : Nat := 0x7104
def schedRtSel : Nat := 0x7108
def schedRtStat : Nat := 0x710c
def schedRtSteps : Nat := 0x7110
def schedRtDrops : Nat := 0x7114
def schedRtSkipped : Nat := 0x7118
def schedPreemptMax : Nat := 0x711c
def schedTeardownMax : Nat := 0x7120
def bpmEngTmo : Nat := 0x10100
def bpmStat : Nat := 0x10104
def bpmLedgerUsed : Nat := 0x10108
def bpmPoolCfg0 (i : Nat) : Nat := 0x11100 + 0x20 * i
def bpmPoolCfg1 (i : Nat) : Nat := 0x11104 + 0x20 * i
def bpmPoolCfg2 (i : Nat) : Nat := 0x11108 + 0x20 * i
def bpmPoolRetired (i : Nat) : Nat := 0x1110c + 0x20 * i
def bpmPoolBaseLo (i : Nat) : Nat := 0x11110 + 0x20 * i
def bpmPoolBaseHi (i : Nat) : Nat := 0x11114 + 0x20 * i
def bpmPoolStat (i : Nat) : Nat := 0x11118 + 0x20 * i
def bpmPoolFree (i : Nat) : Nat := 0x1111c + 0x20 * i
def bpmRqSel : Nat := 0x12100
def bpmRqQuota : Nat := 0x12104
def bpmRqReserve : Nat := 0x12108
def bpmRqUsed : Nat := 0x1210c
def bpmRqStat : Nat := 0x12110
def bpmOwnAddrLo : Nat := 0x13100
def bpmOwnAddrHi : Nat := 0x13104
def bpmOwnResult : Nat := 0x13108
def bpmOwnHandle : Nat := 0x1310c
def bpmOwnCount : Nat := 0x13110
def rasCtl : Nat := 0x18100
def rasScrubPeriod : Nat := 0x18104
def rasScrubPos : Nat := 0x18108
def rasScrubPasses : Nat := 0x1810c
def rasCeThresh : Nat := 0x18110
def rasCeWindow : Nat := 0x18114
def rasStat : Nat := 0x18118
def rasRetireCnt : Nat := 0x1811c
def rasRetireIdx : Nat := 0x18120
def rasRetirePage : Nat := 0x18124
def rasInjAddrLo : Nat := 0x18128
def rasInjAddrHi : Nat := 0x1812c
def rasInjCtl : Nat := 0x18130
def memcCfg (k : Nat) : Nat := 0x20100 + 0x1000 * k
def memcTrainStat (k : Nat) : Nat := 0x20104 + 0x1000 * k
def memcCeCnt (k : Nat) : Nat := 0x20108 + 0x1000 * k
def memcUeCnt (k : Nat) : Nat := 0x2010c + 0x1000 * k
def memcLpStat (k : Nat) : Nat := 0x20110 + 0x1000 * k
def memcTemp (k : Nat) : Nat := 0x20114 + 0x1000 * k
def nocGeom : Nat := 0x30100
def nocPortIso : Nat := 0x30104
def nocPortIsoSet : Nat := 0x30108
def nocPortIsoClr : Nat := 0x3010c
def nocErrStat : Nat := 0x30110
def nocErrCnt : Nat := 0x30114
def nocErrRouter : Nat := 0x30118
def vdecStat (k : Nat) : Nat := 0x40100 + 0x1000 * k
def vdecFwVer (k : Nat) : Nat := 0x40104 + 0x1000 * k
def vdecSel (k : Nat) : Nat := 0x40108 + 0x1000 * k
def vdecStrmStat (k : Nat) : Nat := 0x4010c + 0x1000 * k
def vdecStrmPics (k : Nat) : Nat := 0x40110 + 0x1000 * k
def vdecStrmErrs (k : Nat) : Nat := 0x40114 + 0x1000 * k
def vdecSwitchMax (k : Nat) : Nat := 0x40118 + 0x1000 * k
def vencStat : Nat := 0x48100
def vencFwVer : Nat := 0x48104
def vencCurClip : Nat := 0x48108
def vencCurPic : Nat := 0x4810c
def vencKeyStat : Nat := 0x48110
def vencEncMax : Nat := 0x48114
def vencRefused : Nat := 0x48118
def jobPushLo : Nat := 0x100
def jobPushHi : Nat := 0x104
def jobStat : Nat := 0x108
def jobLast : Nat := 0x10c
def jobRefused : Nat := 0x110
def dppOutboxUsed : Nat := 0x60114
def dppTruncCnt : Nat := 0x60118
def slvBaStat : Nat := 0x68114
def slvPivotCnt : Nat := 0x68118
def slvRangeCnt : Nat := 0x6811c
def slvSubopMax : Nat := 0x68120
def timeCtl : Nat := 0x70100
def timeStat : Nat := 0x70104
def timeNowLo : Nat := 0x70108
def timeNowHi : Nat := 0x7010c
def timeNowFrac : Nat := 0x70110
def timeRate : Nat := 0x70114
def timeStepLo : Nat := 0x70118
def timeStepHi : Nat := 0x7011c
def timePtmOffLo : Nat := 0x70120
def timePtmOffHi : Nat := 0x70124
def timePtmInterval : Nat := 0x70128
def timeErr : Nat := 0x7012c
def timeLinkDelay : Nat := 0x70130
def timeSyncinLo : Nat := 0x70134
def timeSyncinHi : Nat := 0x70138
def timeSyncinCnt : Nat := 0x7013c
def timeArmed : Nat := 0x70140
def timeLateCnt : Nat := 0x70144
def timeInstStale : Nat := 0x70148
def timeInstExtra : Nat := 0x7014c
def timeNopCnt : Nat := 0x70150
def timeEntOwner (i : Nat) : Nat := 0x70200 + 0x4 * i
def glkCtl (k : Nat) : Nat := 0x78100 + 0x1000 * k
def glkStat (k : Nat) : Nat := 0x78104 + 0x1000 * k
def glkPeerSerLo (k : Nat) : Nat := 0x78108 + 0x1000 * k
def glkPeerSerHi (k : Nat) : Nat := 0x7810c + 0x1000 * k
def glkReplayTmo (k : Nat) : Nat := 0x78110 + 0x1000 * k
def glkReplayCnt (k : Nat) : Nat := 0x78114 + 0x1000 * k
def glkCrcCnt (k : Nat) : Nat := 0x78118 + 0x1000 * k
def glkTagCnt (k : Nat) : Nat := 0x7811c + 0x1000 * k
def glkDropCnt (k : Nat) : Nat := 0x78120 + 0x1000 * k
def chainCtl : Nat := 0x7a100
def chainStat : Nat := 0x7a104
def chainUnits : Nat := 0x7a108
def chainLost : Nat := 0x7a10c
def chainAdmit : Nat := 0x7a110
def chainLossHold : Nat := 0x7a114
def chainI2cPeriod : Nat := 0x7a118
def chainRoute : Nat := 0x7a11c
def chainResSel : Nat := 0x7a120
def chainResSerLo : Nat := 0x7a124
def chainResSerHi : Nat := 0x7a128
def chainNorouteCnt : Nat := 0x7a12c
def chainSlotCtl (i : Nat) : Nat := 0x7a140 + 0x8 * i
def chainSlotStat (i : Nat) : Nat := 0x7a144 + 0x8 * i
def ventStat : Nat := 0x7c100
def ventBlockCnt : Nat := 0x7c104
def ventWouldCnt : Nat := 0x7c108
def ventLastAddrLo : Nat := 0x7c10c
def ventLastAddrHi : Nat := 0x7c110
def ventLastInfo : Nat := 0x7c114
def seqStat (k : Nat) : Nat := 0x100100 + 0x10000 * k
def seqPc (k : Nat) : Nat := 0x100104 + 0x10000 * k
def seqProgOff (k : Nat) : Nat := 0x100108 + 0x10000 * k
def seqWaitTmo (k : Nat) : Nat := 0x10010c + 0x10000 * k
def seqAsBase (k : Nat) : Nat := 0x100110 + 0x10000 * k
def seqAsLimit (k : Nat) : Nat := 0x100114 + 0x10000 * k
def seqAsCeCnt (k : Nat) : Nat := 0x100118 + 0x10000 * k
def seqAsUeAddr (k : Nat) : Nat := 0x10011c + 0x10000 * k
def seqSig (k i : Nat) : Nat := 0x100120 + 0x10000 * k + 0x4 * i
def seqLc (k i : Nat) : Nat := 0x100160 + 0x10000 * k + 0x4 * i
def seqMapSel (k : Nat) : Nat := 0x100170 + 0x10000 * k
def seqMapData (k : Nat) : Nat := 0x100174 + 0x10000 * k
def mxuStat (k : Nat) : Nat := 0x101100 + 0x10000 * k
def mxuSubBusy (k : Nat) : Nat := 0x101104 + 0x10000 * k
def mxuSubFlagLo (k : Nat) : Nat := 0x101108 + 0x10000 * k
def mxuSubFlagHi (k : Nat) : Nat := 0x10110c + 0x10000 * k
def mxuParCnt (k : Nat) : Nat := 0x101110 + 0x10000 * k
def mxuPreemptTmo (k : Nat) : Nat := 0x101114 + 0x10000 * k
def mxuPassCnt (k : Nat) : Nat := 0x101118 + 0x10000 * k
def mxuLastLat (k : Nat) : Nat := 0x10111c + 0x10000 * k
def vecStat (k : Nat) : Nat := 0x102100 + 0x10000 * k
def vecPc (k : Nat) : Nat := 0x102104 + 0x10000 * k
def vecErr (k : Nat) : Nat := 0x102108 + 0x10000 * k
def vecEpiErr (k : Nat) : Nat := 0x10210c + 0x10000 * k
def adgStat (k : Nat) : Nat := 0x103100 + 0x10000 * k
def adgPass (k : Nat) : Nat := 0x103104 + 0x10000 * k
def adgErr (k : Nat) : Nat := 0x103108 + 0x10000 * k
def mbxChCfg0 (k i : Nat) : Nat := 0x104100 + 0x10000 * k + 0x10 * i
def mbxChCfg1 (k i : Nat) : Nat := 0x104104 + 0x10000 * k + 0x10 * i
def mbxChCfg2 (k i : Nat) : Nat := 0x104108 + 0x10000 * k + 0x10 * i
def mbxChStat (k i : Nat) : Nat := 0x10410c + 0x10000 * k + 0x10 * i
def mbxCreditTmo (k : Nat) : Nat := 0x104300 + 0x10000 * k
def mbxOutUsed (k : Nat) : Nat := 0x104304 + 0x10000 * k
def mbxDropCnt (k : Nat) : Nat := 0x104308 + 0x10000 * k
def wsuStat (k : Nat) : Nat := 0x105100 + 0x10000 * k
def wsuMcastMask (k i : Nat) : Nat := 0x105110 + 0x10000 * k + 0x4 * i
def wsuMcastTmo (k : Nat) : Nat := 0x105130 + 0x10000 * k
def ctxCtl (c : Nat) : Nat := 0x400100 + 0x4000 * c
def ctxStat (c : Nat) : Nat := 0x400104 + 0x4000 * c
def ctxRingBaseLo (c i : Nat) : Nat := 0x400110 + 0x4000 * c + 0x10 * i
def ctxRingBaseHi (c i : Nat) : Nat := 0x400114 + 0x4000 * c + 0x10 * i
def ctxRingSize (c i : Nat) : Nat := 0x400118 + 0x4000 * c + 0x10 * i
def ctxRingCnt (c i : Nat) : Nat := 0x40011c + 0x4000 * c + 0x10 * i
def ctxSeqInit (c : Nat) : Nat := 0x400150 + 0x4000 * c
def ctxSeqHigh (c : Nat) : Nat := 0x400154 + 0x4000 * c
def ctxDbErr (c : Nat) : Nat := 0x400158 + 0x4000 * c
def ctxFullCnt (c : Nat) : Nat := 0x40015c + 0x4000 * c
def ctxMod (c r : Nat) : Nat := 0x400160 + 0x4000 * c + 0x4 * r
def ctxInDb (c : Nat) : Nat := 0x400170 + 0x4000 * c
def ctxHbPeriod (c : Nat) : Nat := 0x400174 + 0x4000 * c
def ctxPrio (c : Nat) : Nat := 0x401100 + 0x4000 * c
def ctxQuota (c : Nat) : Nat := 0x401104 + 0x4000 * c
def ctxCoreset (c i : Nat) : Nat := 0x401140 + 0x4000 * c + 0x4 * i
def ctxPfCtl (c : Nat) : Nat := 0x402100 + 0x4000 * c
def ctxPfStat (c : Nat) : Nat := 0x402104 + 0x4000 * c
def ctxPfHits (c : Nat) : Nat := 0x402108 + 0x4000 * c
def ctxPfFills (c : Nat) : Nat := 0x40210c + 0x4000 * c
def ctxPfBase (c i : Nat) : Nat := 0x402110 + 0x4000 * c + 0x10 * i
def ctxPfPages (c i : Nat) : Nat := 0x402114 + 0x4000 * c + 0x10 * i
def ctxWinSeq (c i : Nat) : Nat := 0x403100 + 0x4000 * c + 0x10 * i
def ctxWinResult (c i : Nat) : Nat := 0x403104 + 0x4000 * c + 0x10 * i
def ctxWinStatus (c i : Nat) : Nat := 0x403108 + 0x4000 * c + 0x10 * i

/-- Common header offsets (R26). -/
def ctl : Nat := 0x010
def stat : Nat := 0x014
def irqStat : Nat := 0x018
def irqEn : Nat := 0x01C
def irqSet : Nat := 0x020
def irqRoute : Nat := 0x024
def capt (i : Nat) : Nat := 0x028 + 4 * i
def perf (i : Nat) : Nat := 0x040 + 4 * i

end R

end Sys2Proof.Machine
end

