-- ==== Sys2Proof/Machine/Ops.lean ====
section
/-! DEFINITION. The operations every family of commands shares: registers and their fields, the interrupt model (R29-R31),
error capture (R32), counters (R33), unit identity, shop time, and what goes out on the links. -/

namespace Sys2Proof.Machine

/-! ### Registers -/

/-- The register at an offset as it is held. -/
def Dev.reg (s : Dev) (off : Nat) : Word := Tab.get regReset s.regs off

/-- The unit with the register at an offset holding `v`. -/
def Dev.setReg (s : Dev) (off : Nat) (v : Word) : Dev := { s with regs := Tab.set regReset s.regs off v }

/-- A field of a register. -/
def Dev.rf (s : Dev) (off lo len : Nat) : Nat := (s.reg off).fld lo len

/-- Set a field of a register. -/
def Dev.setRf (s : Dev) (off lo len v : Nat) : Dev := s.setReg off ((s.reg off).setFld lo len v)

/-- A bit of a register. -/
def Dev.rb (s : Dev) (off i : Nat) : Bool := (s.reg off).bit i

/-- Set a bit of a register. -/
def Dev.setRb (s : Dev) (off i : Nat) (b : Bool) : Dev := s.setRf off i 1 (bN b)

/-- A register read as a number. -/
def Dev.rn (s : Dev) (off : Nat) : Nat := (s.reg off).toNat

/-- A 64-bit register pair, low word first. -/
def Dev.rq (s : Dev) (lo : Nat) : Nat := s.rn lo + s.rn (lo + 4) * 2 ^ 32

/-- Write a 64-bit register pair. -/
def Dev.setRq (s : Dev) (lo v : Nat) : Dev := (s.setReg lo (Word.ofNat v)).setReg (lo + 4) (Word.ofNat (v / 2 ^ 32))

/-- Add to a counter that saturates at 0xFFFF_FFFF. -/
def Dev.satInc (s : Dev) (off d : Nat) : Dev := s.setReg off (Word.ofNat (satAdd 0xFFFFFFFF (s.rn off) d))

/-- Add to a counter that wraps. -/
def Dev.wrapInc (s : Dev) (off d : Nat) : Dev := s.setReg off (Word.ofNat (s.rn off + d))

/-- Add to a counter field of `len` bits that saturates. -/
def Dev.satFld (s : Dev) (off lo len d : Nat) : Dev := s.setRf off lo len (satAdd (2 ^ len - 1) (s.rf off lo len) d)

/-- Keep the largest value in a "longest since the last read" register. -/
def Dev.maxReg (s : Dev) (off v : Nat) : Dev := if s.rn off < v then s.setReg off (Word.ofNat v) else s

/-- Count `d` on performance counter `i` of a page, unless PERF_FREEZE holds it (R33). -/
def Dev.perf (s : Dev) (page i d : Nat) : Dev :=
  if s.rb (page + R.ctl) 3 then s else s.wrapInc (page + R.perf i) d

/-- Put something on a link or pin. -/
def Dev.emit (s : Dev) (o : Out) : Dev := { s with out := o :: s.out }

/-- Draw a fresh free number for use `tag`. -/
def Dev.draw (s : Dev) (tag : Nat) : Nat × Dev := (Config.freeNat tag s.draws, { s with draws := s.draws + 1 })

/-- Draw `n` fresh free bytes for use `tag`. -/
def Dev.drawBytes (s : Dev) (tag n : Nat) : List Byte × Dev :=
  ((List.range n).map (Config.freeByte tag s.draws), { s with draws := s.draws + 1 })

/-! ### Identity and time -/

/-- The unit is the manager: its ROLE strap (R365). -/
def Dev.isMgr (s : Dev) : Bool := s.rb R.topStrap 0

/-- The unit's address (R27, R375). -/
def Dev.addr (s : Dev) : Nat := s.rf R.chainStat 0 4

/-- A write that comes from the host is a posted TLP that the manager's HIF counts (HIF page, BLK_PERF0). -/
def Dev.busPosted (s : Dev) (src : Src) : Dev :=
  match src with
  | .host _ => if s.isMgr then s.perf 0x6000 0 1 else s
  | _ => s

/-- Management firmware of this unit runs (R427, R428); a thermal trip switches its island off (R393). -/
def Dev.mgmtUp (s : Dev) : Bool := s.rb R.mgmtStat 2 && s.rf R.mgmtStat 0 2 == 0 && !s.pwr.tripped

/-- Shop time in nanoseconds (R348). -/
def Dev.ns (s : Dev) : Nat := s.shop / 2 ^ 48 % 2 ^ 64

/-- An event raised at most once per second is due: none was raised in the last second of shop time. -/
def onceDue (last : Option Nat) (ns : Nat) : Bool := last.all fun t => t + 1000000000 ≤ ns

/-- Usable DRAM of this unit in bytes (R54, R138): 0 until training has ended, and after a failed training (R152). -/
def Dev.usable (s : Dev) : Nat :=
  if (List.range 8).all (fun k => s.rb (R.memcCfg k) 9) then
    match s.rf (R.memcCfg 0) 4 4 with
    | 0 => 15 * 2 ^ 30 | 1 => 30 * 2 ^ 30 | 2 => 45 * 2 ^ 30 | 3 => 60 * 2 ^ 30 | 4 => 90 * 2 ^ 30 | 5 => 120 * 2 ^ 30
    | _ => 0
  else 0

/-! ### Names (R450) -/

/-- Class and code of a name: class in [15:12], code in [5:0]. -/
def Nm.base : Nm → Nat
  | .success => 0
  | .duplicate => 0x0001 | .duplicateStale => 0x0002
  | .ctxFaultAddr => 0x2003 | .ctxFaultCmd => 0x2004 | .ctxFaultTimeout => 0x2005 | .creditTimeout => 0x2006
  | .readTimeout => 0x2007 | .dataPoisoned => 0x2008 | .unitLost => 0x2009
  | .lateCompletion => 0x100A | .vfResetDone => 0x002A
  | .poisonFound => 0x100B | .pageRetired => 0x000C | .ceThreshold => 0x100D | .dramFail => 0x300E
  | .poolEmpty => 0x100F | .poolQuota => 0x1010 | .poolCfgReject => 0x1011 | .refcountOverflow => 0x1012
  | .refcountUnderflow => 0x1013 | .staleHandle => 0x1014
  | .ventBlocked => 0x1015 | .debugUnlocked => 0x102B | .fwAuthFail => 0x302C | .attestFail => 0x302D
  | .launchLate => 0x1016 | .timeLocked => 0x0017 | .timeUnlocked => 0x1018
  | .unitJoined => 0x0019 | .unitQuarantined => 0x101A | .linkReplay => 0x101B | .linkDown => 0x101C
  | .slotAttention => 0x001D | .slotPresence => 0x001E
  | .pivotSmall => 0x101F | .rangeExceeded => 0x1020 | .dimLimit => 0x1021 | .bitstreamError => 0x1022
  | .concealed => 0x1023 | .recovering => 0x0024 | .nmsTruncated => 0x1025 | .encBusy => 0x1026
  | .thermalThrottle => 0x1027 | .thermalTrip => 0x4028 | .powerCap => 0x1029 | .heartbeatMissed => 0x302E

/-- The class of a name (R452). -/
def Nm.cls (n : Nm) : Nat := n.base / 0x1000

/-- The value of an event code or completion status: base, with the block type code in [11:6] (R450, R451). -/
def Status.code (t : Status) : Nat := if t.nm = .success then 0 else t.nm.base + t.blk % 64 * 64

/-- SUCCESS. -/
def Status.ok : Status := ⟨.success, 0⟩

/-- The statuses that fault the context of the command or operation that ends with them (R87). -/
def Nm.faults : Nm → Bool
  | .ctxFaultAddr | .ctxFaultCmd | .ctxFaultTimeout | .creditTimeout | .readTimeout | .dataPoisoned => true
  | _ => false

/-- The plane in which a block reports (R10): 0 control, 1 data, 2 management, 3 meeting point. -/
def planeOf (blk : Nat) : Nat :=
  if blk = 7 ∨ blk = 8 ∨ blk = 0x16 ∨ blk = 0x30 then 0
  else if blk = 9 ∨ blk = 0x13 then 3
  else if blk = 1 ∨ blk = 2 ∨ blk = 3 ∨ blk = 4 ∨ blk = 5 ∨ blk = 6 ∨ blk = 0xA ∨ blk = 0x15 then 2
  else 1

/-! ### Error capture (R32) -/

/-- Capture an error in the page's BLK_ERR_CAPT registers: the first is recorded, later ones are counted in MORE. -/
def Dev.capture (s : Dev) (page code ctx addr detail : Nat) : Dev :=
  if s.rb (page + R.capt 0) 31 then s.satFld (page + R.capt 5) 0 16 1
  else
    let s := s.setReg (page + R.capt 0) (Word.ofNat (code % 0x10000 + ctx % 256 * 0x10000 + 0x80000000))
    let s := s.setReg (page + R.capt 1) (Word.ofNat addr)
    let s := s.setReg (page + R.capt 2) (Word.ofNat (addr / 2 ^ 32))
    let s := s.setReg (page + R.capt 3) (Word.ofNat detail)
    let s := s.setReg (page + R.capt 4) (Word.ofNat s.ns)
    s.setReg (page + R.capt 5) 0

/-- The kinds of register-access error recorded in the TOP page's capture with CODE 0 (R35). -/
inductive AccErr where
  | unmapped | partialWrite | gated | remoteLost | remoteQuarantined
  deriving DecidableEq, Repr

/-- The value of the kind in BLK_ERR_CAPT3 (R35). -/
def AccErr.val : AccErr → Nat
  | .unmapped => 1 | .partialWrite => 2 | .gated => 3 | .remoteLost => 4 | .remoteQuarantined => 5

/-- Record a register-access error: in the TOP page, or in the CHAIN page for lost units (R35, R40). -/
def Dev.accErr (s : Dev) (page : Nat) (k : AccErr) (addr : Nat) : Dev := s.capture page 0 0 addr k.val

/-! ### Grenlink link layer, sending (R367-R373) -/

/-- The state of port `p`'s link layer. -/
def Dev.glk (s : Dev) (p : Nat) : Glk := if p = 0 then s.glk0 else s.glk1

/-- Set port `p`'s link layer. -/
def Dev.setGlk (s : Dev) (p : Nat) (g : Glk) : Dev := if p = 0 then { s with glk0 := g } else { s with glk1 := g }

/-- GLK_STAT's link state of port `p`: 0 DOWN, 1 TRAINING, 2 UP, 3 CONFLICT. -/
def Dev.glkSt (s : Dev) (p : Nat) : Nat := s.rf (R.glkStat p) 0 2

/-- Page base of port `p`. -/
def glkPage (p : Nat) : Nat := 0x78000 + 0x1000 * p

/-- Whether frames of a class carry a SEQ and are replayed (R368): DATA and MGMT. -/
def seqClass (cls : Nat) : Bool := cls == 0 || cls == 2

/-- The credit class of a frame: DATA by VC, MGMT 3 (R372). -/
def creditClass (f : Frame) : Nat := if f.cls = 0 then f.vc else 3

/-- Credits held for a credit class. -/
def Glk.credits (g : Glk) (k : Nat) : Nat :=
  if k = 0 then g.cr0 else if k = 1 then g.cr1 else if k = 2 then g.cr2 else g.cr3

/-- Set the credits held for a credit class. -/
def Glk.setCredits (g : Glk) (k v : Nat) : Glk :=
  if k = 0 then { g with cr0 := v } else if k = 1 then { g with cr1 := v } else if k = 2 then { g with cr2 := v }
  else { g with cr3 := v }

/-- The key of the current phase. -/
def Glk.key (g : Glk) : Option Nat := if g.phase then g.key1 else g.key0

/-- A frame as port `g` puts it on the link: ACK, and for DATA, MGMT and TIME under an installed key ENC, KPH and the IV
count (R370, R373). -/
def Glk.stamp (g : Glk) (f : Frame) : Glk × Frame :=
  let f : Frame := { f with ack := g.lastAcc }
  if (f.cls ≤ 2) && g.key.isSome then
    ({ g with ivCount := g.ivCount + 1 }, { f with enc := true, kph := g.phase })
  else (g, { f with enc := false, kph := false })

/-- Put one frame on the wire of port `p`. -/
def Dev.wire (s : Dev) (p : Nat) (f : Frame) : Dev :=
  let s := s.emit (.frame p f)
  let s := s.perf (glkPage p) 0 1
  s.perf (glkPage p) 2 ((f.payload.length + 63) / 64)

/-- Whether port `p` may send a DATA frame now: in SEALED a port without a key sends none (R373). -/
def Dev.mayData (s : Dev) (p : Nat) : Bool := !(s.sec.lc == .sealed && (s.glk p).key.isNone)

/-- Port `p` may put frame `f` on the wire now: the link is UP, and for a sequenced frame a place in the replay buffer is free and
its class holds a credit (R370, R372); a worker that goes to sleep sends no new one (R400). -/
def Dev.canSend (s : Dev) (p : Nat) (f : Frame) : Bool :=
  let g := s.glk p
  s.glkSt p == 2 && (!seqClass f.cls || (decide (g.unacked.length < 64) && decide (0 < g.credits (creditClass f))
    && (f.cls != 0 || s.mayData p) && !s.chain.draining))

/-- Send what waits at port `p`: of each class in order, and no class waits on another (R372). A port in CONFLICT sends only IDLE
frames (R366). -/
def Dev.glkPump (s : Dev) (p : Nat) (fuel : Nat) : Dev :=
  match fuel with
  | 0 => s
  | fuel + 1 =>
    let g := s.glk p
    match g.queue.find? (s.canSend p) with
    | none => s
    | some f =>
      let r := g.queue.erase f
      if !seqClass f.cls then
        let (g, f) := Glk.stamp { g with queue := r } f
        ((s.setGlk p g).wire p f).glkPump p fuel
      else
        let k := creditClass f
        let f : Frame := { f with seq := g.seqTx }
        let g := { (g.setCredits k (g.credits k - 1)) with queue := r, seqTx := (g.seqTx + 1) % 4096 }
        let (g, f) := Glk.stamp g f
        let g : Glk := { g with unacked := g.unacked ++ [f] }
        ((s.setGlk p g).wire p f).glkPump p fuel

/-- Hand a frame to port `p`. -/
def Dev.glkSend (s : Dev) (p : Nat) (f : Frame) : Dev :=
  let g := s.glk p
  let s := s.setGlk p { g with queue := g.queue ++ [f] }
  s.glkPump p (s.glk p).queue.length

/-! ### Chain, sending (R374, R378-R380) -/

/-- The route to unit `d` in a table of CHAIN_ROUTE's form: 0 local, 1 GLK0, 2 GLK1, 3 none. -/
def routeOf (table d : Nat) : Nat := fldN table (2 * d) 2

/-- The port a frame leaves on: its epoch's route; a MGMT frame whose route's link is down takes the other port (R380), one to a unit
that the tables do not reach yet the port on which that unit was last heard. `none`: no route. -/
def Dev.portFor (s : Dev) (f : Frame) : Option Nat :=
  let r := routeOf (s.rn R.chainRoute) f.dst
  if r = 1 ∨ r = 2 then
    let p := r - 1
    if f.cls = 2 ∧ s.glkSt p ≠ 2 then some (1 - p) else some p
  else if f.cls = 2 ∧ r = 3 then
    let p := Tab.get (fun _ => 0) s.chain.seen f.dst
    if s.glkSt p = 2 then some p else if s.glkSt (1 - p) = 2 then some (1 - p) else none
  else none

/-- Send a frame to its destination: no route counts in CHAIN_NOROUTE_CNT. -/
def Dev.chainSend (s : Dev) (f : Frame) : Dev :=
  let f : Frame := { f with src := s.addr, epoch := s.rf R.chainStat 6 8 }
  match s.portFor f with
  | some p => s.glkSend p f
  | none => s.satInc R.chainNorouteCnt 1

/-- Send a firmware message to unit `u`. -/
def Dev.fwSend (s : Dev) (u : Nat) (m : FwMsg) : Dev := s.chainSend { cls := 2, dst := u, sub := 5, fw := some m }

/-- The stream index of a transaction: VC 0, VC 2, or 3 for MGMT (R374). -/
def txVc (f : Frame) : Nat := if f.cls = 2 then 3 else f.vc

/-- Issue a transaction: the next TXID of its stream; at most 256 unanswered per destination and stream (R374). -/
def Dev.issue (s : Dev) (f : Frame) (what : TxFor) : Dev :=
  let vc := txVc f
  let open_ := s.chain.out.filter fun t => t.dst = f.dst ∧ t.vc = vc
  if 256 ≤ open_.length then
    { s with chain := { s.chain with wait := s.chain.wait ++ [{ dst := f.dst, vc, txid := 0, frame := f, what }] } }
  else
    let k := f.dst * 4 + vc
    let id := Tab.get (fun _ => 0) s.chain.txNext k
    let f : Frame := { f with txid := id % 2 ^ 32 }
    let s : Dev := { s with chain := { s.chain with
      txNext := Tab.set (fun _ => 0) s.chain.txNext k ((id + 1) % 2 ^ 32)
      out := s.chain.out ++ [{ dst := f.dst, vc, txid := f.txid, frame := f, what }] } }
    s.chainSend f

/-- Answer a transaction of stream `vc` from unit `src`: the response is stored with the applied transaction and sent (R374).
A MGMT answer is a REG_RESP frame, a DATA answer a RESPONSE frame on VC 1 with its status. -/
def Dev.respond (s : Dev) (src vc txid status : Nat) (payload : List Byte) : Dev :=
  let f : Frame :=
    if vc = 3 then { cls := 2, dst := src, sub := 2, txid, payload }
    else { cls := 0, vc := 1, dst := src, sub := 3, arg := status % 0x10000, txid, payload }
  let l := s.chain.applied.map fun a => if a.src = src ∧ a.vc = vc ∧ a.txid = txid then { a with resp := some f } else a
  ({ s with chain := { s.chain with applied := l } } : Dev).chainSend f

/-! ### Host bus, sending (R57, R98, R461) -/

/-- Configuration dword `d` of function `n` has a default when nothing has written it. -/
def cfgReset (k : Nat) : Word :=
  let fn := k / 1024
  let d := k % 1024
  if fn = 0 then
    if d = 0 then 0x0E161FD5
    else if d = 1 then 0x00100000
    else if d = 2 then 0x120000B0
    else if d = 4 then 0x00000004
    else if d = 6 then 0x0000000C
    else if d = 8 then 0x00000004
    else if d = 11 then 0x00001FD5
    else if d = 13 then 0x40
    else if d = 0x10 then 0xC8435001
    else if d = 0x11 then 0x00000008
    else if d = 0x14 then 0x00FF6011
    else if d = 0x15 then 0x00000004
    else if d = 0x16 then 0x00001804
    else if d = 0x18 then 0x00020010
    else if d = 0x19 then 0x10008022
    else if d = 0x1A then 0x00002810
    else if d = 0x1B then 0x00458885
    else if d = 0x21 then 0x0003080F
    else if d = 0x23 then 0x0000003E
    else if d = 0x24 then 0x00000005
    else if d = 0x40 then 0x15020001
    else if d = 0x42 then 0x00400000
    else if d = 0x43 then 0x00462030
    else if d = 0x45 then 0x0000E000
    else if d = 0x46 then 0x000000A0
    else if d = 0x54 then 0x16010003
    else if d = 0x58 then 0x1A010010
    else if d = 0x59 then 0x00000004
    else if d = 0x5B then 0x000F000F
    else if d = 0x5D then 0x00010001
    else if d = 0x5E then 0x0E170000
    else if d = 0x5F then 0x00000011
    else if d = 0x60 then 0x00000001
    else if d = 0x61 then 0x00000004
    else if d = 0x63 then 0x0000000C
    else if d = 0x65 then 0x00000004
    else if d = 0x68 then 0x1A81000E
    else if d = 0x6A then 0x1B810015
    else if d = 0x6B then 0x003FC000
    else if d = 0x6C then 0x00000A22
    else if d = 0x6E then 0x1C010018
    else if d = 0x70 then 0x1D01001E
    else if d = 0x71 then 0x00291E1F
    else if d = 0x73 then 0x00000028
    else if d = 0x74 then 0x1E01001F
    else if d = 0x75 then 0x00000201
    else if d = 0x78 then 0x20010019
    else if d = 0x80 then 0x21010025
    else if d = 0x81 then 0x80000001
    else if d = 0x84 then 0x25010026
    else if d = 0x94 then 0x2901002A
    else if d = 0xA4 then 0x2C010027
    else if 0xA6 ≤ d ∧ d < 0xAE then 0x00009C38
    else if d = 0xB0 then 0x0001002E
    else 0
  else
    if d = 0 then 0xFFFFFFFF
    else if d = 1 then 0x00100000
    else if d = 2 then 0x120000B0
    else if d = 13 then 0x40
    else if d = 0x10 then 0x00028010
    else if d = 0x11 then 0x10008022
    else if d = 0x19 then 0x00030000
    else if d = 0x20 then 0x000F0011
    else if d = 0x21 then 0x00000804
    else if d = 0x22 then 0x00000C04
    else if d = 0x40 then 0x14820001
    else if d = 0x52 then 0x0001000E
    else 0

/-- Configuration dword `d` of function `fn`. -/
def Dev.cfg (s : Dev) (fn d : Nat) : Word := Tab.get cfgReset s.hif.cfg (fn * 1024 + d)

/-- Set configuration dword `d` of function `fn`. -/
def Dev.setCfg (s : Dev) (fn d : Nat) (v : Word) : Dev :=
  { s with hif := { s.hif with cfg := Tab.set cfgReset s.hif.cfg (fn * 1024 + d) v } }

/-- Bus Master Enable of a function: Command bit 2. -/
def Dev.bme (s : Dev) (fn : Nat) : Bool := (s.cfg fn 1).bit 2

/-- Memory Space Enable of a function; a VF's is VF MSE in SR-IOV Control. -/
def Dev.mse (s : Dev) (fn : Nat) : Bool := if fn = 0 then (s.cfg 0 1).bit 1 else (s.cfg 0 0x5A).bit 3

/-- VF Enable (SR-IOV Control bit 0) and NumVFs. -/
def Dev.vfEn (s : Dev) : Bool := (s.cfg 0 0x5A).bit 0

/-- NumVFs of the SR-IOV structure. -/
def Dev.numVfs (s : Dev) : Nat := (s.cfg 0 0x5C).fld 0 16

/-- VF `n` is enabled. -/
def Dev.vfOn (s : Dev) (n : Nat) : Bool := s.vfEn && decide (1 ≤ n) && decide (n ≤ s.numVfs)

/-- Put a request on the host link, which leaves ASPM L1 for it (R68). -/
def Dev.tlp (s : Dev) (o : Out) : Dev := (s.setRf R.hifLinkStat 11 2 0).emit o

/-- Whether requests of a function wait: its Bus Master Enable is 0, the PF is in D3hot, or older ones of it already wait (R69,
R461). -/
def Dev.hifHeld (s : Dev) (fn : Nat) : Bool :=
  !s.bme fn || s.rf R.hifPmStat 0 2 == 3 || s.hif.waitQ.any fun o => match o with
    | .wr f _ _ => f == fn
    | .msg f _ => f == fn
    | .rd r => r.fn == fn

/-- A posted write to host memory: it enters the posted queue, or waits in order for Bus Master Enable (R98, R461). -/
def Dev.hostWr (s : Dev) (fn addr : Nat) (data : List Byte) : Dev :=
  if s.hifHeld fn then { s with hif := { s.hif with waitQ := s.hif.waitQ ++ [.wr fn addr data] } }
  else s.tlp (.hostWr fn addr data)

/-- MSI-X Message Control of a function: the PF's structure at 0x50, a VF's at 0x80 (R49, R51). -/
def Dev.msixCtl (s : Dev) (fn : Nat) : Word := s.cfg fn (if fn = 0 then 0x14 else 0x20)

/-- The reset value of an MSI-X table dword: vectors are masked. -/
def msixReset (k : Nat) : Word := if k % 4 = 3 then 1 else 0

/-- The MSI-X message itself: sent when MSI-X is enabled and neither function nor vector is masked, else kept pending. -/
def Dev.msixOut (s : Dev) (fn vec : Nat) : Dev :=
  let c := s.msixCtl fn
  if !c.bit 31 then s
  else if c.bit 30 || (Tab.get msixReset s.hif.msixTab (fn * 1024 + vec * 4 + 3)).bit 0 then
    { s with hif := { s.hif with pba := if (fn, vec) ∈ s.hif.pba then s.hif.pba else s.hif.pba ++ [(fn, vec)] } }
  else s.tlp (.msix fn vec)

/-- Signal a vector of a function behind its earlier writes (R57, R461). -/
def Dev.msix (s : Dev) (fn vec : Nat) : Dev :=
  if s.hifHeld fn then { s with hif := { s.hif with waitQ := s.hif.waitQ ++ [.msg fn vec] } }
  else s.msixOut fn vec

/-! ### Block interrupts (R29-R31) -/

/-- A block's interrupt request is asserted (R29). -/
def Dev.irqOn (s : Dev) (page : Nat) : Bool := (s.reg (page + R.irqStat) &&& s.reg (page + R.irqEn)) ≠ 0

/-- Send a block's interrupt message to its destination (R31). On a worker a host destination goes to the manager. -/
def Dev.irqMsg (s : Dev) (page : Nat) : Dev :=
  let dest := s.rf (page + R.irqRoute) 0 2
  let vec := s.rf (page + R.irqRoute) 8 8
  let s := if dest % 2 = 1 then s.emit (.mgmtIrq page) else s
  if 2 ≤ dest then (if s.isMgr then s.msix 0 vec else s.fwSend 0 (.irq vec)) else s

/-- A hardware source sets bit `i` of BLK_IRQ_STAT; a request that becomes asserted sends one message (R29). -/
def Dev.irq (s : Dev) (page i : Nat) : Dev :=
  let was := s.irqOn page
  let s := s.setRb (page + R.irqStat) i true
  if !was && s.irqOn page then s.irqMsg page else s

/-! ### Alerts (R430) -/

/-- Drive ALERT_N by TOP_ALERT_STAT and TOP_ALERT_EN. -/
def Dev.alertPin (s : Dev) (newBit : Bool) : Dev :=
  if (s.reg R.topAlertStat &&& s.reg R.topAlertEn) = 0 then
    { (s.emit (.pin .alertN true)) with mctp := { s.mctp with alertHeld := false } }
  else if newBit then { (s.emit (.pin .alertN false)) with mctp := { s.mctp with alertHeld := false } }
  else s

/-- The TOP_ALERT_STAT bits of an event name. -/
def alertBits (n : Nm) : List Nat :=
  (match n with
    | .thermalThrottle => [0] | .powerCap => [1] | .thermalTrip => [2] | .heartbeatMissed => [3]
    | .fwAuthFail => [4] | .unitLost => [5] | _ => []) ++ (if n.cls = 4 then [6] else [])

/-- Set the alert bits of an event. -/
def Dev.alert (s : Dev) (n : Nm) : Dev :=
  match alertBits n with
  | [] => s
  | l =>
    let fresh := l.any fun i => !s.rb R.topAlertStat i && s.rb R.topAlertEn i
    (l.foldl (fun s i => s.setRb R.topAlertStat i true) s).alertPin fresh

end Sys2Proof.Machine
end

