-- ==== Sys2Proof/Machine/Rings.lean ====
section
/-! DEFINITION. Contexts and their rings: counts, PHASE, full rings, interrupt moderation, the writing of completion and
event records, event routing and staging (R76-R95, R12). -/

namespace Sys2Proof.Machine

/-- What context `c` holds. -/
def Dev.ctx (s : Dev) (c : Nat) : Ctx := Tab.get (fun _ => {}) s.ctxs c

/-- Set what context `c` holds. -/
def Dev.setCtx (s : Dev) (c : Nat) (x : Ctx) : Dev := { s with ctxs := Tab.set (fun _ => {}) s.ctxs c x }

/-- Page 0 of context `c`. -/
def ctxPage (c : Nat) : Nat := 0x400000 + 0x4000 * c

/-- CTX_STAT.STATE: 0 CLOSED, 1 OPEN, 2 FAULTED, 3 RESETTING (R77). -/
def Dev.ctxSt (s : Dev) (c : Nat) : Nat := s.rf (R.ctxStat c) 0 2

/-- The context IDs that VF `n` owns, in its order; 0 means none (R52). -/
def Dev.vfCtxs (s : Dev) (n : Nat) : List Nat :=
  (List.range 16).map fun k => s.rf (R.hifVfCtx (4 * (n - 1) + k / 4)) (8 * (k % 4)) 8

/-- The enabled VF that owns context `c`, or 0. -/
def Dev.ctxVf (s : Dev) (c : Nat) : Nat :=
  if c = 0 then 0 else ((List.range 16).find? fun n => s.vfOn n && (s.vfCtxs n).contains c).getD 0

/-- The function and MSI-X vector of context `c` (R56). -/
def Dev.ctxVec (s : Dev) (c : Nat) : Nat × Nat :=
  let n := s.ctxVf c
  if n = 0 then (0, c) else (n, ((s.vfCtxs n).findIdx? (· == c)).getD 0)

/-- Number of entries of ring `r` (R78). -/
def Dev.ringLen (s : Dev) (c r : Nat) : Nat := 2 ^ s.rf (R.ctxRingSize c r) 0 4

/-- Base address of ring `r`. -/
def Dev.ringBase (s : Dev) (c r : Nat) : Nat := s.rn (R.ctxRingBaseLo c r) + s.rn (R.ctxRingBaseHi c r) * 2 ^ 32

/-- The consumer count of rings 1-3. -/
def Ctx.head (x : Ctx) (r : Nat) : Nat := if r = 1 then x.cqHead else if r = 2 then x.eqHead else x.mqHead

/-- Entries that ring `r` (1-3) holds (R79). -/
def Dev.ringUsed (s : Dev) (c r : Nat) : Nat := (s.rn (R.ctxRingCnt c r) + 2 ^ 32 - (s.ctx c).head r % 2 ^ 32) % 2 ^ 32

/-- Ring `r` (1-3) is full. -/
def Dev.ringFull (s : Dev) (c r : Nat) : Bool := decide (s.ringLen c r ≤ s.ringUsed c r)

/-- The PF is in D3hot (HIF_PM_STAT.DSTATE). -/
def Dev.inD3 (s : Dev) : Bool := s.rf R.hifPmStat 0 2 == 3

/-- Ring `r` of context `c` can take a record: its context is OPEN or FAULTED, it is not full, no VF FLR has begun, and the
PF is not in D3hot (R77, R91-R94, R73, R397). -/
def Dev.ringTakes (s : Dev) (c r : Nat) : Bool :=
  (s.ctxSt c == 1 || s.ctxSt c == 2) && !s.ringFull c r && !(s.ctx c).flr && !s.inD3

/-- The PHASE that the record of count `k` carries: 1 on the first pass, inverted at each wrap (R80). -/
def Dev.phase (s : Dev) (c r k : Nat) : Nat := if k / s.ringLen c r % 2 = 0 then 1 else 0

/-- The moderation setting COUNT of ring `r`. -/
def Dev.modCount (s : Dev) (c r : Nat) : Nat := s.rf (R.ctxMod c r) 0 8

/-- Records of ring `r` that no message has announced. -/
def Ctx.un (x : Ctx) (r : Nat) : Nat := if r = 1 then x.un1 else if r = 2 then x.un2 else x.un3

/-- One more unannounced record of ring `r`. -/
def Ctx.unInc (x : Ctx) (r : Nat) : Ctx :=
  if r = 1 then { x with un1 := x.un1 + 1 } else if r = 2 then { x with un2 := x.un2 + 1 } else { x with un3 := x.un3 + 1 }

/-- A ring has become due: one message on the context's vector announces every record written in all three rings (R95). -/
def Dev.ctxMsg (s : Dev) (c : Nat) : Dev :=
  let (fn, vec) := s.ctxVec c
  let s := s.setCtx c { s.ctx c with un1 := 0, un2 := 0, un3 := 0 }
  s.msix fn vec

/-- Moderation after a record of ring `r` was written: due when COUNT is not 0 and the unannounced records reach it, or the
record makes the ring due at once (R95). -/
def Dev.moderate (s : Dev) (c r : Nat) (urgent : Bool) : Dev :=
  let n := s.modCount c r
  if n = 0 then s else if urgent || decide (n ≤ (s.ctx c).un r) then s.ctxMsg c else s

/-- Write a record to ring `r` of context `c`: `rec` gives its words for a PHASE. The count advances; a ring that becomes
full is counted and flagged for the CQ and the MQ (R79-R81, R94). -/
def Dev.ringPut (s : Dev) (c r : Nat) (rec : Nat → List Word) (urgent : Bool) : Dev :=
  let k := s.rn (R.ctxRingCnt c r)
  let data := bytesOfWords (rec (s.phase c r k))
  let s := s.hostWr (s.ctxVec c).1 (s.ringBase c r + k % s.ringLen c r * data.length) data
  let s := s.setReg (R.ctxRingCnt c r) (Word.ofNat (k + 1))
  let s := s.setCtx c ((s.ctx c).unInc r)
  let s :=
    if s.ringFull c r && (r == 1 || r == 3) then
      (s.satFld (R.ctxFullCnt c) (if r = 1 then 0 else 16) 16 1).irq (ctxPage c) 0
    else s
  s.moderate c r urgent

/-! ### Completions (R85, R86, R88) -/

/-- The words of a completion record. -/
def Cpl.words (x : Cpl) (sqHead phase : Nat) : List Word :=
  [Word.ofNat x.seq, Word.ofNat x.result, Word.ofNat (x.cid % 0x10000 + x.status * 0x10000),
   Word.ofNat (x.orig % 0x10000 + sqHead % 0x8000 * 0x10000 + phase * 0x80000000)]

/-- Write the oldest held completion of a context when its CQ can take it (R88, R93). -/
def Dev.cplWrite (s : Dev) (c : Nat) : Dev :=
  match (s.ctx c).fin with
  | [] => s
  | x :: r =>
    if s.ringTakes c 1 then
      let s := s.setCtx c { s.ctx c with fin := r }
      s.ringPut c 1 (x.words (s.rn (R.ctxRingCnt c 0))) x.irq
    else s

/-- The command with sequence number `seq` of context `c` finishes: the window gets RESULT, STATUS and VALID; a completion
waits to be written unless NO_CPL suppresses a SUCCESS; duplicates fetched meanwhile follow with the final status (R85, R86,
R88). A worker's part of a command ends by its answer to the manager. -/
def Dev.finishRun (s : Dev) (c seq : Nat) (st : Status) (result : Nat) : Dev :=
  let x := s.ctx c
  match x.run.find? (·.seq == seq) with
  | none => s
  | some r =>
    let x := { x with run := x.run.filter (·.seq != seq) }
    if !s.isMgr then (s.setCtx c x).fwSend 0 (.cmdDone c seq st result r.data)
    else
      let i := seq % 64
      let s := s.setReg (R.ctxWinResult c i) (Word.ofNat result)
      let s := s.setReg (R.ctxWinStatus c i) (Word.ofNat (st.code + 0x80000000))
      let own : List Cpl :=
        if r.noCpl && st.nm == .success then []
        else [{ seq, result, cid := r.cid, status := st.code, orig := 0, irq := r.irq }]
      let dups : List Cpl := r.dups.map fun d =>
        { seq, result, cid := d.1, status := Nm.duplicate.base + 8 * 64, orig := st.code, irq := d.2 }
      s.setCtx c { x with fin := x.fin ++ own ++ dups }

/-! ### Events (R12, R89-R92) -/

/-- The PF context whose EQ is the device event ring (R91), if any. -/
def Dev.devHolder (s : Dev) : Option Nat := (List.range 256).find? fun c => c != 0 && s.rb (R.ctxCtl c) 2

/-- The EQ that a ring number means: a context's own, or for 256 the device event ring's. -/
def Dev.ringCtx (s : Dev) (ring : Nat) : Option Nat := if ring < 256 then some ring else s.devHolder

/-- The words of an event record. -/
def Event.words (e : Event) (lost phase : Nat) : List Word :=
  [Word.ofNat ((Status.mk e.nm e.blk).code + (e.ctx.getD 0) % 256 * 0x10000 + e.unit % 16 * 0x1000000
      + e.plane % 4 * 0x10000000 + phase * 0x80000000),
   Word.ofNat (e.inst % 256), Word.ofNat e.time, Word.ofNat (e.time / 2 ^ 32), Word.ofNat e.d0, Word.ofNat e.d1,
   Word.ofNat e.d2, Word.ofNat (e.d3 % 0x10000 + lost % 0x10000 * 0x10000)]

/-- Events lost for a ring. -/
def Dev.lostOf (s : Dev) (ring : Nat) : Nat := Tab.get (fun _ => 0) s.lost ring

/-- Write an event to the EQ of context `c`, with the count of events lost for that ring (R12, R92). -/
def Dev.eventPut (s : Dev) (c : Nat) (e : Event) : Dev :=
  let dev := s.devHolder == some c
  let n := s.lostOf c + (if dev then s.lostOf 256 else 0)
  let lost := Tab.del c (if dev then Tab.del 256 s.lost else s.lost)
  let s : Dev := { s with lost := lost }
  s.ringPut c 2 (e.words (min n 0xFFFF)) (decide (2 ≤ e.nm.cls))

/-- Whether a ring number can take an event now. -/
def Dev.evTakes (s : Dev) (ring : Nat) : Bool :=
  match s.ringCtx ring with
  | none => false
  | some c => s.ringTakes c 2

/-- Stage an event, or count it lost: 64 places per plane, 16 of them for class 2 and above (R12). -/
def Dev.stage (s : Dev) (ring : Nat) (e : Event) : Dev :=
  let mine := s.staged.filter (·.plane == e.plane)
  let low := mine.filter (fun t => t.ev.nm.cls < 2)
  if mine.length < 64 ∧ (2 ≤ e.nm.cls ∨ low.length < 48) then
    { s with staged := s.staged ++ [{ plane := e.plane, ring, ev := e }] }
  else { s with lost := Tab.set (fun _ => 0) s.lost ring (satAdd 0xFFFF (s.lostOf ring) 1) }

/-- An event for a ring: written at once when the ring takes it and none of its events is staged, else staged. -/
def Dev.toRing (s : Dev) (ring : Nat) (e : Event) : Dev :=
  if s.evTakes ring && s.staged.all (fun t => s.ringCtx t.ring != s.ringCtx ring) then
    match s.ringCtx ring with
    | some c => s.eventPut c e
    | none => s
  else s.stage ring e

/-- The rings an event goes to (R89, R91): the EQ of the context it names while that is OPEN or FAULTED; the device event
ring when it names none or is of class 2 or above; once when they are the same. -/
def Dev.evRings (s : Dev) (e : Event) : List Nat :=
  let own := match e.ctx with
    | none => []
    | some c => if (s.ctxSt c == 1 || s.ctxSt c == 2) && !(s.ctx c).flr then [c] else []
  let dev := if e.ctx.isNone || decide (2 ≤ e.nm.cls) then [256] else []
  if dev ≠ [] ∧ e.ctx.isSome ∧ s.devHolder = e.ctx ∧ own ≠ [] then own else own ++ dev

/-- Route an event at the manager. -/
def Dev.routeEvent (s : Dev) (e : Event) : Dev :=
  (s.evRings e).foldl (fun s r => s.toRing r e) (s.alert e.nm)

/-- A block raises an event: stamped with unit, plane and shop time; a worker sends it to the manager. -/
def Dev.raise (s : Dev) (e : Event) : Dev :=
  let e : Event := { e with unit := s.addr, plane := planeOf e.blk, time := s.ns }
  if s.isMgr then s.routeEvent e else (s.alert e.nm).fwSend 0 (.event e)

/-- Write the first staged event of a plane whose ring takes it, keeping the order of each ring's events (R12). -/
def Dev.stagedWrite (s : Dev) (plane : Nat) : Dev :=
  let rec go (seen : List Staged) : List Staged → Option (Staged × List Staged)
    | [] => none
    | t :: r =>
      if t.plane == plane && s.evTakes t.ring && seen.all (fun u => s.ringCtx u.ring != s.ringCtx t.ring) then
        some (t, seen.reverse ++ r)
      else go (t :: seen) r
  match go [] s.staged with
  | none => s
  | some (t, rest) =>
    let s : Dev := { s with staged := rest }
    match s.ringCtx t.ring with
    | some c => s.eventPut c t.ev
    | none => s

/-! ### Metadata records (R94, R100) -/

/-- A block hands over a metadata record: at the manager it waits for acceptance by its context's MQ; a worker sends it in a
RECORD frame (one record a frame) and keeps it until the manager answers (R374). -/
def Dev.record (s : Dev) (r : MRec) : Dev :=
  if s.isMgr then s.setCtx r.ctx { s.ctx r.ctx with mqWait := (s.ctx r.ctx).mqWait ++ [r] }
  else s.issue { cls := 0, vc := 0, dst := 0, sub := 7, arg := r.ctx % 256, payload := bytesOfWords r.words } (.record [r])

/-- A record's words with the PHASE of its place at header bit 31 (R275). -/
def MRec.withPhase (r : MRec) (phase : Nat) : List Word :=
  match r.words with
  | [] => []
  | w :: l => w.setFld 31 1 phase :: l

/-- The oldest waiting record of context `c` is accepted: it gets an MQ producer count and is written; a record that came in a
frame is answered when the frame's last record is accepted (R94, R100). A HEARTBEAT is no record of a producer.
A DETECTION under FUM_WAKE_DET is to end Fumarole (R396). -/
def Dev.acceptRecord (s : Dev) (c : Nat) : Dev :=
  match (s.ctx c).mqWait with
  | [] => s
  | r :: rest =>
    if s.ringTakes c 3 then
      let x := s.ctx c
      let s := s.setCtx c { x with mqWait := rest, hbRecs := x.hbRecs + (if r.blk = 6 then 0 else 1) }
      let s := s.ringPut c 3 r.withPhase false
      let det := (r.words.headD 0).fld 0 4 == 1 && s.pwr.fum && s.rb R.pwrCtl 1
      let s : Dev := if det then { s with pwr := { s.pwr with wakeDet := true } } else s
      if r.unit ≠ 0 ∧ rest.all (fun q => !(q.unit == r.unit && q.txid == r.txid)) = true then
        s.respond r.unit 0 r.txid 0 []
      else s
    else s

/-- The records of context `c` that wait are never written (R89, R293): those that came in frames are answered. -/
def Dev.recordsDrop (s : Dev) (c : Nat) : Dev :=
  let l := ((s.ctx c).mqWait.filter (·.unit != 0)).map fun r => (r.unit, r.txid)
  let s := s.setCtx c { s.ctx c with mqWait := [] }
  l.eraseDups.foldl (fun (s : Dev) r => s.respond r.1 0 r.2 0 []) s

end Sys2Proof.Machine
end

