-- ==== Sys2Proof/Machine/Link.lean ====
section
/-! DEFINITION. Grenlink link layer, receiving: acknowledgement, replay, credits, keys, discards, and the rows of the link
(R366-R373, R412). -/

namespace Sys2Proof.Machine

/-- Other port. -/
def otherPort (p : Nat) : Nat := if p = 0 then 1 else 0

/-- The frames after `ack` in the replay buffer: those up to it are acknowledged (R370). -/
def afterAck (ack : Nat) : List Frame → List Frame
  | [] => []
  | f :: r => if f.seq = ack then r else
      match afterAck ack r with
      | l => if r.any (·.seq == ack) then l else f :: r

/-- Take the acknowledgement a received frame carries: acknowledged frames leave the replay buffer (R370). -/
def Dev.takeAck (s : Dev) (p ack : Nat) : Dev :=
  let g := s.glk p
  let l := afterAck ack g.unacked
  if l.length < g.unacked.length then
    let s := s.setGlk p { g with unacked := l, replays := 0 }
    s.glkPump p (s.glk p).queue.length
  else s

/-- Resend every unacknowledged frame from the oldest, in order and byte for byte (R370). Eight replays without the ACK
advancing take the link down (R371). -/
def Dev.replay (s : Dev) (p : Nat) : Dev :=
  let g := s.glk p
  if g.unacked = [] then s
  else
    let n := g.unacked.length
    let s := s.setGlk p { g with replays := g.replays + 1, replaysSince := g.replaysSince + 1 }
    let s := ((s.satInc (R.glkReplayCnt p) 1).perf (glkPage p) 3 n).irq (glkPage p) 17
    g.unacked.foldl (fun s f => s.wire p f) s

/-- LINK_REPLAY (R371), at most once per second: the replays since the last such event. -/
def Dev.replayEvent (s : Dev) (p : Nat) : Dev :=
  let g := s.glk p
  if g.replaysSince = 0 ∨ onceDue g.replayAt s.ns = false then s
  else (s.setGlk p { g with replaysSince := 0, replayAt := some s.ns }).raise
    { nm := .linkReplay, blk := 0x14, inst := p, d0 := p, d1 := g.replaysSince }

/-- The link of port `p` goes down and retrains, keeping SEQ state and replay buffer for a peer of the same serial number
(R371): reason 1 replays, 2 lock. -/
def Dev.linkDown (s : Dev) (p reason : Nat) : Dev :=
  let g := s.glk p
  let peer := s.rf (R.glkStat p) 7 4
  let s := s.setGlk p { g with keep := some g.peerSerial, replays := 0 }
  let s := (s.setRf (R.glkStat p) 0 2 1).setRf (R.glkStat p) 2 3 0
  let s := s.irq (glkPage p) 16
  let s := s.raise { nm := .linkDown, blk := 0x14, inst := p, d0 := p, d1 := peer, d2 := reason }
  if s.isMgr then { s with chain := { s.chain with
    downLinks := if (0, p) ∈ s.chain.downLinks then s.chain.downLinks else s.chain.downLinks ++ [(0, p)] } }
  else s.fwSend 0 (.linkReport p false g.peerSerial)

/-- One replay of port `p`, for a NAK or a timeout: the eighth without progress takes the link down. -/
def Dev.replayOrDown (s : Dev) (p : Nat) : Dev :=
  let s := s.replay p
  if 8 ≤ (s.glk p).replays then (s.replayEvent p).linkDown p 1 else s

/-- A frame whose class, VC, SUB or length no unit may send (R369). -/
def badFrame (f : Frame) : Bool :=
  decide (5 ≤ f.cls) || (f.cls == 0 && decide (3 ≤ f.vc)) || (f.cls == 0 && decide (8 ≤ f.sub))
    || (f.cls == 2 && decide (6 ≤ f.sub)) || decide (256 < f.payload.length)

/-- Count a discarded frame (R369, R377). -/
def Dev.dropFrame (s : Dev) (p : Nat) : Dev := s.satInc (R.glkDropCnt p) 1

/-- One frame buffer of a credit class is freed, to be returned in the next IDLE frame (R372). -/
def Glk.freed (g : Glk) (k : Nat) : Glk :=
  if k = 0 then { g with fr0 := g.fr0 + 1 } else if k = 1 then { g with fr1 := g.fr1 + 1 }
  else if k = 2 then { g with fr2 := g.fr2 + 1 } else { g with fr3 := g.fr3 + 1 }

/-- The unit sends an IDLE frame: its ACK and the credits it returns (R370, R372). -/
def Dev.sendIdle (s : Dev) (p : Nat) (nak : Bool) : Dev :=
  let g := s.glk p
  let f : Frame := { cls := 4, ack := g.lastAcc, nak,
                     payload := [BitVec.ofNat 8 g.fr0, BitVec.ofNat 8 g.fr1, BitVec.ofNat 8 g.fr2, BitVec.ofNat 8 g.fr3] }
  (s.setGlk p { g with fr0 := 0, fr1 := 0, fr2 := 0, fr3 := 0 }).wire p f

/-- Receive a frame at a port's link layer: its ACK and NAK act; it is delivered (`true`) only when its SEQ is the expected
one, its encryption is as the port's key asks and R366, R369 and R373 do not discard it. -/
def Dev.rx (s : Dev) (p : Nat) (f : Frame) : Bool × Dev :=
  if s.glkSt p = 3 then (f.cls == 4, if f.cls = 4 then s else s.dropFrame p)
  else if s.glkSt p ≠ 2 then (false, s)
  else
    let s := s.perf (glkPage p) 1 1
    let s := if f.cls ≤ 4 then s.takeAck p f.ack else s
    let s := if f.nak then s.replayOrDown p else s
    let g := s.glk p
    if (f.cls ≤ 2) && g.key.isSome && !f.enc then (false, s.dropFrame p)
    else if f.cls = 0 ∧ s.mayData p = false then (false, s.dropFrame p)
    else if seqClass f.cls then
      if f.seq = g.seqRx then
        let g := { (g.freed (creditClass f)) with seqRx := (g.seqRx + 1) % 4096, lastAcc := f.seq, nakSent := false }
        let s := (s.setGlk p g).sendIdle p false
        if badFrame f then (false, s.dropFrame p) else (true, s)
      else (false, s)
    else if badFrame f then (false, s.dropFrame p)
    else (true, s)

/-- IDLE (R372): credits come back, and the acknowledgement acts. -/
def Dev.rxIdle (s : Dev) (p : Nat) (f : Frame) : Dev :=
  if f.cls ≠ 4 then s
  else
    let (ok, s) := s.rx p f
    if ok then
      let b := fun i => ((f.payload.drop i).headD 0).toNat
      let g := s.glk p
      let g := { g with cr0 := min 32 (g.cr0 + b 0), cr1 := min 32 (g.cr1 + b 1), cr2 := min 32 (g.cr2 + b 2),
                        cr3 := min 32 (g.cr3 + b 3) }
      let s := s.setGlk p g
      s.glkPump p g.queue.length
    else s

/-- FRAME_CRC_FAILURE (R370, R373): the frame is discarded and counted, and NAK is sent once until the expected frame
arrives. `tagBad`: its GCM tag failed rather than its CRC. -/
def Dev.crcFail (s : Dev) (p : Nat) (tagBad : Bool) : Dev :=
  if s.glkSt p ≠ 2 then s
  else
    let s := s.satInc (if tagBad then R.glkTagCnt p else R.glkCrcCnt p) 1
    let s := if tagBad then s.irq (glkPage p) 18 else s
    let g := s.glk p
    if g.nakSent then s else (s.setGlk p { g with nakSent := true }).sendIdle p true

def execFrameCrcFailure (p : Nat) (tagBad : Bool) (s : State) : Host.Outcome State Fault Refusal :=
  .next { s with toDev := s.toDev.crcFail p tagBad }

/-- REPLAY_TIMEOUT (R370): GLK_REPLAY_TMO passed without the ACK advancing. -/
def Dev.replayTimeout (s : Dev) (p : Nat) : Dev :=
  if s.glkSt p = 2 ∧ (s.glk p).unacked ≠ [] then (s.replayOrDown p).replayEvent p else s

def execReplayTimeout (p : Nat) (s : State) : Host.Outcome State Fault Refusal :=
  .next { s with toDev := s.toDev.replayTimeout p }

/-- LANE_LOCK_LOSS (R371): every lane lost lock for 1 us. -/
def Dev.lockLoss (s : Dev) (p : Nat) : Dev := if s.glkSt p = 2 ∨ s.glkSt p = 3 then s.linkDown p 2 else s

def execLaneLockLoss (p : Nat) (s : State) : Host.Outcome State Fault Refusal :=
  .next { s with toDev := s.toDev.lockLoss p }

end Sys2Proof.Machine
end

