-- ==== Sys2Proof/Machine/Fp.lean ====
section
/-! DEFINITION. Floating-point arithmetic of the blocks: binary32 rounded to nearest even with kept subnormals and one NaN
code (R232, R257), the narrower formats FP8_E4M3, FP8_E5M2, BF16 and FP16 (R190, R232, R265), and conversions to and from
integers (R258). Every operation is computed exactly and rounded once. -/

namespace Sys2Proof.Machine

/-- A floating value: NaN, an infinity, or the number (-1)^`neg` · `m` · 2^`e`; `m` = 0 is a signed zero. -/
inductive Fp where
  | nan
  | inf (neg : Bool)
  | fin (neg : Bool) (m : Nat) (e : Int)
  deriving DecidableEq, Repr

/-- `v` shifted right by `k` places and rounded to nearest even. -/
def shrRne (v k : Nat) : Nat :=
  let q := v / 2 ^ k
  let r := v % 2 ^ k * 2
  if r < 2 ^ k then q else if 2 ^ k < r then q + 1 else q + q % 2

/-- A binary format: precision `p` bits, exponent `emin` of the last place of its subnormals, and the largest significand
`mmax` at the largest exponent `tmax` of a last place. -/
structure FpFmt where
  p : Nat
  emin : Int
  tmax : Int
  mmax : Nat
  deriving DecidableEq, Repr

def f32 : FpFmt := { p := 24, emin := -149, tmax := 104, mmax := 2 ^ 24 - 1 }
def f64 : FpFmt := { p := 53, emin := -1074, tmax := 971, mmax := 2 ^ 53 - 1 }
def bf16 : FpFmt := { p := 8, emin := -133, tmax := 120, mmax := 255 }
def fp16 : FpFmt := { p := 11, emin := -24, tmax := 5, mmax := 2047 }
def e4m3 : FpFmt := { p := 4, emin := -9, tmax := 5, mmax := 14 }
def e5m2 : FpFmt := { p := 3, emin := -16, tmax := 13, mmax := 7 }

/-- Round to a format, once, to nearest even; overflow gives the signed infinity. The exponent of the result is that of its
last place. -/
def Fp.round (f : FpFmt) : Fp → Fp
  | .nan => .nan
  | .inf n => .inf n
  | .fin n m e =>
    if m = 0 then .fin n 0 f.emin
    else
      let t := max (e + (Nat.log2 m + 1 : Nat) - f.p) f.emin
      let v := if t ≤ e then m * 2 ^ (e - t).toNat else shrRne m (t - e).toNat
      let (v, t) := if v = 2 ^ f.p then (v / 2, t + 1) else (v, t)
      if f.tmax < t ∨ (t = f.tmax ∧ f.mmax < v) then .inf n else .fin n v t

/-- Bits of a rounded finite value in a format: sign excluded. -/
def FpFmt.mag (f : FpFmt) (m : Nat) (t : Int) : Nat :=
  if m < 2 ^ (f.p - 1) then m else ((t - f.emin).toNat + 1) * 2 ^ (f.p - 1) + (m - 2 ^ (f.p - 1))

/-- The number that a finite code's magnitude bits mean. -/
def FpFmt.val (f : FpFmt) (neg : Bool) (mag : Nat) : Fp :=
  let x := mag / 2 ^ (f.p - 1)
  let m := mag % 2 ^ (f.p - 1)
  if x = 0 then .fin neg m f.emin else .fin neg (m + 2 ^ (f.p - 1)) (f.emin + (x - 1 : Nat))

/-! ### Exact arithmetic -/

/-- Sign of a value. -/
def Fp.neg? : Fp → Bool
  | .nan => false
  | .inf n => n
  | .fin n _ _ => n

/-- Negation. -/
def Fp.negate : Fp → Fp
  | .nan => .nan
  | .inf n => .inf !n
  | .fin n m e => .fin (!n) m e

/-- The signed significand of a finite value at exponent `e'` not above its own. -/
def sig (n : Bool) (m : Nat) (e e' : Int) : Int := (if n then -1 else 1) * ((m * 2 ^ (e - e').toNat : Nat) : Int)

/-- The value of a signed significand. -/
def Fp.ofSig (v e : Int) (zneg : Bool) : Fp := if v = 0 then .fin zneg 0 e else .fin (decide (v < 0)) v.natAbs e

/-- The exact sum; opposite infinities give NaN; an exact zero is negative only when both terms are. -/
def Fp.add : Fp → Fp → Fp
  | .nan, _ => .nan
  | _, .nan => .nan
  | .inf a, .inf b => if a = b then .inf a else .nan
  | .inf a, _ => .inf a
  | _, .inf b => .inf b
  | .fin na ma ea, .fin nb mb eb =>
    let e := min ea eb
    Fp.ofSig (sig na ma ea e + sig nb mb eb e) e (na && nb)

/-- The exact product; an infinity times zero gives NaN. -/
def Fp.mul : Fp → Fp → Fp
  | .nan, _ => .nan
  | _, .nan => .nan
  | .inf a, .inf b => .inf (a != b)
  | .inf a, .fin b m _ => if m = 0 then .nan else .inf (a != b)
  | .fin a m _, .inf b => if m = 0 then .nan else .inf (a != b)
  | .fin a m e, .fin b n f => .fin (a != b) (m * n) (e + f)

/-- A quotient with `k` extra bits and a sticky last bit, so that rounding it once rounds the exact quotient. -/
def Fp.div (k : Nat) : Fp → Fp → Fp
  | .nan, _ => .nan
  | _, .nan => .nan
  | .inf _, .inf _ => .nan
  | .inf a, .fin b _ _ => .inf (a != b)
  | .fin a _ e, .inf b => .fin (a != b) 0 e
  | .fin a m e, .fin b n f =>
    if n = 0 then (if m = 0 then .nan else .inf (a != b))
    else
      let sh := k + Nat.log2 n + 1
      let q := m * 2 ^ sh / n
      let r := m * 2 ^ sh % n
      .fin (a != b) (2 * q + (if r = 0 then 0 else 1)) (e - f - sh - 1)

/-- A square root with `k` extra bits and a sticky last bit. -/
def Fp.sqrt (k : Nat) : Fp → Fp
  | .nan => .nan
  | .inf n => if n then .nan else .inf false
  | .fin n m e =>
    if m = 0 then .fin n 0 e
    else if n then .nan
    else
      let sh := 2 * k + (if e % 2 = 0 then 0 else 1)
      let v := m * 2 ^ sh
      let q := Nat.sqrt v
      .fin false (2 * q + (if q * q = v then 0 else 1)) ((e - sh) / 2 - 1)

/-- An integer as a value. -/
def Fp.ofInt (v : Int) : Fp := .fin (decide (v < 0)) v.natAbs 0

/-- The comparison *a* < *b*, with −0 equal to +0; false for NaN. -/
def Fp.lt : Fp → Fp → Bool
  | .nan, _ => false
  | _, .nan => false
  | .inf a, .inf b => a && !b
  | .inf a, .fin _ _ _ => a
  | .fin _ _ _, .inf b => !b
  | .fin na ma ea, .fin nb mb eb => decide (sig na ma ea (min ea eb) < sig nb mb eb (min ea eb))

/-- Equality of values; false for NaN. -/
def Fp.eq : Fp → Fp → Bool
  | .nan, _ => false
  | _, .nan => false
  | a, b => !a.lt b && !b.lt a

/-- The nearest integer, ties to even, saturated to a range; NaN gives 0 (R258). -/
def Fp.toInt (lo hi : Int) : Fp → Int
  | .nan => 0
  | .inf n => if n then lo else hi
  | .fin n m e =>
    let v : Nat := if 0 ≤ e then m * 2 ^ e.toNat else shrRne m (-e).toNat
    max lo (min hi (if n then -(v : Int) else v))

/-- The largest integer not above a finite value. -/
def Fp.floor : Fp → Int
  | .fin n m e => let v : Int := if n then -(m : Int) else m
                  if 0 ≤ e then v * 2 ^ e.toNat else v / 2 ^ (-e).toNat
  | _ => 0

/-- Whether a value is a NaN. -/
def Fp.isNan : Fp → Bool
  | .nan => true
  | _ => false

/-- Whether a value is finite. -/
def Fp.isFin : Fp → Bool
  | .fin _ _ _ => true
  | _ => false

/-- Whether a value is an infinity. -/
def Fp.isInf : Fp → Bool
  | .inf _ => true
  | _ => false

/-! ### binary32 words -/

/-- The value of a binary32 code. -/
def fdec (w : Word) : Fp :=
  let mag := w.fld 0 31
  let n := w.bit 31
  if mag < 0x7F800000 then f32.val n mag else if mag = 0x7F800000 then .inf n else .nan

/-- The code of a value rounded to binary32; every NaN is 0x7FC0_0000 (R232, R257). -/
def fenc (x : Fp) : Word :=
  match x.round f32 with
  | .nan => 0x7FC00000
  | .inf n => if n then 0xFF800000 else 0x7F800000
  | .fin n m t => Word.ofNat (f32.mag m t + bN n * 2 ^ 31)

/-- binary32 sum. -/
def fadd (a b : Word) : Word := fenc ((fdec a).add (fdec b))
/-- binary32 difference. -/
def fsub (a b : Word) : Word := fenc ((fdec a).add (fdec b).negate)
/-- binary32 product. -/
def fmul (a b : Word) : Word := fenc ((fdec a).mul (fdec b))
/-- Fused multiply-add, rounded once. -/
def ffma (a b c : Word) : Word := fenc (((fdec a).mul (fdec b)).add (fdec c))
/-- Correctly rounded quotient. -/
def fdiv (a b : Word) : Word := fenc ((fdec a).div 32 (fdec b))
/-- Correctly rounded square root. -/
def fsqrt (a : Word) : Word := fenc ((fdec a).sqrt 32)
/-- *a* < *b*. -/
def flt (a b : Word) : Bool := (fdec a).lt (fdec b)
/-- NaN code. -/
def isNaN (a : Word) : Bool := decide (0x7F800000 < a.fld 0 31)
/-- Neither NaN nor infinite. -/
def isFinite (a : Word) : Bool := decide (a.fld 0 31 < 0x7F800000)
/-- −0 sorts below +0 (R257). -/
def ftot (a b : Word) : Bool := flt a b || (!flt b a && a.bit 31 && !b.bit 31)
/-- Minimum: NaN when either input is (R257). -/
def fmin (a b : Word) : Word := if isNaN a || isNaN b then 0x7FC00000 else if ftot b a then b else a
/-- Maximum: NaN when either input is (R257). -/
def fmax (a b : Word) : Word := if isNaN a || isNaN b then 0x7FC00000 else if ftot a b then b else a
/-- Negation; NaN is written as the one NaN code. -/
def fneg (a : Word) : Word := if isNaN a then 0x7FC00000 else a.setBit 31 (!a.bit 31)
/-- Absolute value; NaN is written as the one NaN code. -/
def fabs (a : Word) : Word := if isNaN a then 0x7FC00000 else a.setBit 31 false
/-- An integer rounded to binary32. -/
def fofInt (v : Int) : Word := fenc (.ofInt v)

/-! ### The narrower formats -/

/-- The value of a code of an element format: 0 INT8, 1 UINT8, 2 FP8_E4M3, 3 FP8_E5M2, 4 BF16, 5 FP16 (R226, R232). -/
def elemDec (fmt v : Nat) : Fp :=
  match fmt with
  | 0 => .ofInt (toSigned 8 v)
  | 1 => .ofInt (v % 256 : Nat)
  | 2 => if v % 128 = 127 then .nan else e4m3.val (bitN v 7) (v % 128)
  | 3 => if v % 128 < 0x7C then e5m2.val (bitN v 7) (v % 128) else if v % 128 = 0x7C then .inf (bitN v 7) else .nan
  | 4 => fdec (Word.ofNat (v % 65536 * 65536))
  | _ => if v % 32768 < 0x7C00 then fp16.val (bitN v 15) (v % 32768)
         else if v % 32768 = 0x7C00 then .inf (bitN v 15) else .nan

/-- Element size in bytes of a format: 6 is RAW32. -/
def elemSize (fmt : Nat) : Nat := if fmt < 4 then 1 else if fmt < 6 then 2 else 4

/-- The code of a value in an element format, rounded once; `neg` is the sign a NaN keeps (R264, R265). -/
def elemEnc (fmt : Nat) (sat neg : Bool) (x : Fp) : Nat :=
  match fmt with
  | 0 => ofSigned 8 (x.toInt (-128) 127)
  | 1 => ofSigned 8 (x.toInt 0 255)
  | 2 => match x.round e4m3 with
    | .nan => 0x7F + bN neg * 0x80
    | .inf n => (if sat then 0x7E else 0x7F) + bN n * 0x80
    | .fin n m t => e4m3.mag m t + bN n * 0x80
  | 3 => match x.round e5m2 with
    | .nan => 0x7E + bN neg * 0x80
    | .inf n => (if sat then 0x7B else 0x7C) + bN n * 0x80
    | .fin n m t => e5m2.mag m t + bN n * 0x80
  | 4 => match x.round bf16 with
    | .nan => 0x7FC0
    | .inf n => 0x7F80 + bN n * 0x8000
    | .fin n m t => bf16.mag m t + bN n * 0x8000
  | _ => match x.round fp16 with
    | .nan => 0x7E00
    | .inf n => 0x7C00 + bN n * 0x8000
    | .fin n m t => fp16.mag m t + bN n * 0x8000

/-! ### Integers -/

/-- Saturation to a range. -/
def clampI (lo hi v : Int) : Int := max lo (min hi v)

/-- Saturation to INT32. -/
def sat32 (v : Int) : Int := clampI (-2147483648) 2147483647 v

/-- The word of an integer. -/
def wordOfInt (v : Int) : Word := Word.ofNat (ofSigned 32 v)

/-! ### The ROM tables of the activation functions (R262) -/

/-- Terms of the series of e^(x/2^s) in fixed point with `b` fraction bits: `t` is the running term, `acc` the sum. -/
def expSeries (b : Nat) (x : Int) : Nat → Nat → Int → Int → Int
  | 0, _, _, acc => acc
  | fuel + 1, n, t, acc =>
    let t := t * x / (2 ^ b * (n : Int))
    expSeries b x fuel (n + 1) t (acc + t)

/-- Square a fixed-point number `n` times. -/
def sqTimes (b : Nat) : Nat → Int → Int
  | 0, v => v
  | n + 1, v => sqTimes b n (v * v / 2 ^ b)

/-- e^x in fixed point with 240 fraction bits, for `x` given in the same form and |x| < 128: the series of e^(x/256), squared
eight times. Its error is far below half of a last place of binary32 of every ROM entry. -/
def expFix (x : Int) : Int := sqTimes 240 8 (expSeries 240 (x / 256) 60 1 (2 ^ 240) (2 ^ 240))

/-- 2^240, the unit of `expFix`. -/
def fixOne : Int := 2 ^ 240

/-- σ in fixed point. -/
def sigmaFix (x : Int) : Int := fixOne * fixOne / (fixOne + expFix (-x))

/-- Entry `n` of ROM table σ: LO −16, step 2^−3. -/
def romSigma (n : Nat) : Word := fenc (Fp.ofSig (sigmaFix (((n : Int) - 128) * 2 ^ 237)) (-240) false)

/-- Entry `n` of ROM table τ: LO −8, step 2^−4. tanh(v) = 2σ(2v) − 1. -/
def romTau (n : Nat) : Word := fenc (Fp.ofSig (2 * sigmaFix (((n : Int) - 128) * 2 ^ 237) - fixOne) (-240) false)

/-- Entry `n` of ROM table γ: LO −8, step 2^−4. 0.5·(1 + tanh(y)) = σ(2y) with y = c·(v + 0.044715·v³), c the binary32
value 0x3F4C_422A = 13386282 / 2^24. -/
def romGamma (n : Nat) : Word :=
  let k := (n : Int) - 128                          -- v = k / 16
  let num := 13386282 * (k * 256 * 1000000 + 44715 * k * k * k)   -- y = num / (2^24 · 4096 · 10^6)
  let y := num * 2 ^ 240 / (2 ^ 24 * 4096 * 1000000)
  fenc (Fp.ofSig (sigmaFix (2 * y)) (-240) false)

end Sys2Proof.Machine
end

