-- ==== Sys2Proof/Machine/Trans.lean ====
section
/-! DEFINITION. The correctly rounded exponential, sine and cosine of FP32 values (R279, R297). A value is computed in fixed point
with far more places than any FP32 argument needs to decide its rounding, and rounded once. -/

namespace Sys2Proof.Machine

/-- ln 2 with 192 binary places. -/
def ln2Fix : Nat := 4350955369971217654477563090224794165364344896676135745069

/-- π/2 with 400 binary places. -/
def halfPiFix : Nat := 4056188623365485619431135675650447259580575800089632601795595518807615452686995249372761680463408407713783389863663788118

/-- A finite value in fixed point with `p` binary places. -/
def Fp.fix (p : Nat) : Fp → Int
  | .fin n m e =>
    let k := e + p
    let v : Int := if 0 ≤ k then m * 2 ^ k.toNat else (m / 2 ^ (-k).toNat : Nat)
    if n then -v else v
  | _ => 0

/-- The terms of the exponential series from term `t` (of index `i`), summed over `n` of them. -/
def etSeries (p : Nat) (r : Nat) : Nat → Nat → Nat → Nat
  | 0, _, _ => 0
  | n + 1, i, t => t + etSeries p r n (i + 1) (t * r / 2 ^ p / (i + 1))

/-- e^*t* of an FP32 value, correctly rounded. -/
def fexp (w : Word) : Word :=
  let x := fdec w
  match x with
  | .nan => 0x7FC00000
  | .inf n => if n then 0 else 0x7F800000
  | .fin _ m _ =>
    let t := x.fix 192
    if m = 0 then 0x3F800000
    else if 104 * 2 ^ 192 < -t then 0
    else if 89 * 2 ^ 192 < t then 0x7F800000
    else
      let n := t / ln2Fix
      let r := (t - n * ln2Fix).toNat
      fenc (.fin false (etSeries 192 r 60 0 (2 ^ 192)) (n - 192))

/-- The alternating series of sine and cosine: terms from `t`, whose index is `i`, each two factors on. -/
def altSeries (p : Nat) (r2 : Nat) : Nat → Nat → Nat → Int
  | 0, _, _ => 0
  | n + 1, i, t => (t : Int) - altSeries p r2 n (i + 2) (t * r2 / 2 ^ p / ((i + 1) * (i + 2)))

/-- sin or cos of an FP32 value, correctly rounded. -/
def ftrig (cosine : Bool) (w : Word) : Word :=
  let x := fdec w
  match x with
  | .nan => 0x7FC00000
  | .inf _ => 0x7FC00000
  | .fin _ m _ =>
    if m = 0 then (if cosine then 0x3F800000 else w)
    else
      let t := x.fix 400
      let n := t / halfPiFix
      let r := (t - n * halfPiFix).toNat
      let q := (n % 4).toNat + (if cosine then 1 else 0)
      let r2 := r * r / 2 ^ 400
      let v := if q % 2 = 0 then altSeries 400 r2 60 1 r else altSeries 400 r2 60 0 (2 ^ 400)
      let v := if q % 4 < 2 then v else -v
      fenc (.fin (decide (v < 0)) v.natAbs (-400))

/-- sin and cos. -/
def fsin (w : Word) : Word := ftrig false w
def fcos (w : Word) : Word := ftrig true w

end Sys2Proof.Machine
end

