-- ==== Sys2Proof/Machine/Ldl.lean ====
section
/-! DEFINITION. The factorisation core of the solver: LDLᵀ with the small-pivot rule in FP32 and in fixed point, the solves, and
iterative refinement (R301-R307). -/

namespace Sys2Proof.Machine

/-- *a* ≤ *b*; false for NaN. -/
def fle (a b : Word) : Bool := !isNaN a && !isNaN b && !flt b a

/-! ### FP32 (R302, R303) -/

/-- A row of a factor: L[*i*][0..*i*−1], W[*i*][0..*i*−1] and D[*i*]. -/
structure LRow where
  l : List Word
  w : List Word
  d : Word
  deriving DecidableEq, Repr

/-- What a factorisation counts: regularised pivots, the first of them, negative pivots (R303). -/
structure PivCnt where
  n : Nat := 0
  first : Option Nat := none
  neg : Nat := 0
  deriving DecidableEq, Repr

/-- Two counts, the first one first. -/
def PivCnt.add (a b : PivCnt) : PivCnt := { n := a.n + b.n, first := a.first.or b.first, neg := a.neg + b.neg }

/-- s − Σ L[i][k]·W[j][k], *k* ascending. -/
def subDots (s : Word) (l w : List Word) : Word := (l.zip w).foldl (fun s x => ffma (fneg x.1) x.2 s) s

/-- L[*i*][*j*] for the rows *j* of a factor, from row *i* of A. -/
def lowRow : List LRow → List Word → List Word → List Word
  | [], _, l => l
  | r :: rows, a, l => lowRow rows (a.drop 1) (l ++ [fdiv (subDots (a.headD 0) l r.w) r.d])

/-- The small-pivot rule: the pivot, and whether it was regularised. -/
def pivotF (tau lam d a : Word) : Word × Bool :=
  if flt (fabs d) tau then (fadd d (fmul lam (fmax 0x3F800000 (fabs a))), true) else (d, false)

/-- A factor and its counts. -/
structure Ldl where
  rows : List LRow := []
  cnt : PivCnt := {}
  deriving DecidableEq, Repr

/-- One more row of a factor, from the row's *i* + 1 words of A. -/
def Ldl.row (tau lam : Word) (f : Ldl) (a : List Word) : Ldl :=
  let i := f.rows.length
  let l := lowRow f.rows a []
  let w := List.zipWith fmul l (f.rows.map (·.d))
  let aii := a.getD i 0
  let (d, r) := pivotF tau lam (subDots aii l w) aii
  { rows := f.rows ++ [{ l, w, d }]
    cnt := f.cnt.add { n := bN r, first := if r then some i else none, neg := bN (flt d 0) } }

/-- LDLᵀ of the lower rows of A. -/
def ldlOf (tau lam : Word) (a : List (List Word)) : Ldl := a.foldl (Ldl.row tau lam) {}

/-- Forward: y. -/
def fwdF : List LRow → List Word → List Word → List Word
  | [], _, y => y
  | r :: rows, b, y =>
    fwdF rows (b.drop 1) (y ++ [(r.l.zip y).foldl (fun s x => ffma (fneg x.1) x.2 s) (b.headD 0)])

/-- Backward: x from z. `rs`: the rows from *n* − 1 down; `x`: the values of the rows already done, ascending. -/
def bwdF : List LRow → List Word → List LRow → List Word → List Word
  | [], _, _, x => x
  | r :: rs, z, done, x =>
    let i := rs.length
    let v := (done.zip x).foldl (fun s e => ffma (fneg (e.1.l.getD i 0)) e.2 s) (z.getD i 0)
    bwdF rs z (r :: done) (v :: x)

/-- Solve one column by a factor. -/
def solveF (f : List LRow) (b : List Word) : List Word :=
  let y := fwdF f b []
  let z := List.zipWith (fun y (r : LRow) => fdiv y r.d) y f
  bwdF f.reverse z [] []

/-! ### Refinement (R306, R307) -/

/-- A[*i*][*j*] of a symmetric matrix given by its lower rows. -/
def symAt (a : List (List Word)) (i j : Nat) : Word := if j ≤ i then (a.getD i []).getD j 0 else (a.getD j []).getD i 0

/-- One residual: b_i − Σ A[*i*][*j*]·x_j with its compensation. -/
def residRow (b : Word) (row x : List Word) : Word :=
  let (s, c) := (row.zip x).foldl (fun (s : Word × Word) e =>
    let p := fmul (fneg e.1) e.2
    let err := ffma (fneg e.1) e.2 (fneg p)
    let t := fadd s.1 p
    let z := fsub t s.1
    (t, fadd s.2 (fadd (fadd (fsub s.1 (fsub t z)) (fsub p z)) err))) (b, 0)
  fadd s c

/-- The residual b − A·x. -/
def resid (a : List (List Word)) (b x : List Word) : List Word :=
  let n := a.length
  (List.range n).map fun i => residRow (b.getD i 0) ((List.range n).map (symAt a i)) x

/-- The norm of a vector. -/
def normF (v : List Word) : Word := fsqrt (v.foldl (fun q r => ffma r r q) 0)

/-- A refined column: x, accepted corrections, ‖r‖, and whether it reverted. -/
structure Refined where
  x : List Word
  steps : Nat
  norm : Word
  stag : Bool
  deriving DecidableEq, Repr

/-- Refinement from step *s* with iterate `x`; `prev` the previous iterate and its norm (R307). -/
def refine (a : List (List Word)) (f : List LRow) (b : List Word) (tol : Word) (maxref : Nat) (fuel s : Nat) (x : List Word)
    (prev : Option (List Word × Word)) : Refined :=
  let r := resid a b x
  let n := normF r
  match prev.filter fun p => fle p.2 n with
  | some p => { x := p.1, steps := s - 1, norm := p.2, stag := true }
  | none =>
    if fle n (fmul tol (normF b)) ∨ maxref ≤ s then { x, steps := s, norm := n, stag := false }
    else match fuel with
      | 0 => { x, steps := s, norm := n, stag := false }
      | fuel + 1 => refine a f b tol maxref fuel (s + 1) (List.zipWith fadd x (solveF f r)) (some (x, n))

/-- The columns of a system solved and refined. -/
def solveCols (a : List (List Word)) (f : List LRow) (tol : Word) (maxref : Nat) (bs : List (List Word)) : List Refined :=
  bs.map fun b => refine a f b tol maxref maxref 0 (solveF f b) none

/-- The largest steps and norm over columns. -/
def stepsOf (l : List Refined) : Nat := l.foldl (fun m r => max m r.steps) 0
def normOf (l : List Refined) : Word := match l.map (·.norm) with
  | [] => 0
  | x :: r => r.foldl fmax x

/-! ### Fixed point (R304) -/

/-- rs(*v*, *s*): a rounding shift. -/
def rshift (v s : Int) : Int := if 0 < s then (v + 2 ^ (s - 1).toNat) / 2 ^ s.toNat else v * 2 ^ (-s).toNat

/-- A value saturated to 32 bits, and whether it was clamped. -/
def satR (v : Int) : Int × Bool := (sat32 v, sat32 v != v)

/-- The exact quotient rounded half away from zero. -/
def divAway (n d : Int) : Int :=
  let q : Int := ((2 * n.natAbs + d.natAbs) / (2 * d.natAbs) : Nat)
  if (decide (n < 0)) != decide (d < 0) then -q else q

/-- A quotient saturated to 32 bits; one by zero is a free value (notes/assumptions/22) and counts as out of range. -/
def divR (free n d : Int) : Int × Bool := if d = 0 then (free, true) else satR (divAway n d)

/-- A value fits the 64-bit accumulator. -/
def fits64 (v : Int) : Bool := decide (-9223372036854775808 ≤ v) && decide (v ≤ 9223372036854775807)

/-- An accumulator that takes terms away; one past 64 bits is a free value (notes/assumptions/22). -/
def accSub (free : Int) (v : Int) (ts : List Int) : Int × Bool :=
  let (r, bad) := ts.foldl (fun (s : Int × Bool) t => (s.1 - t, s.2 || !fits64 (s.1 - t))) (v, !fits64 v)
  if bad then (free, true) else (r, false)

/-- The Q table: fractional bits. -/
structure QTab where
  fA : Nat → Nat → Nat
  fL : Nat → Nat → Nat
  fD : Nat → Nat
  fB : Nat → Nat
  fX : Nat → Nat

/-- Bytes of the Q table of an *n*×*n* system. -/
def qLen (n : Nat) : Nat := let b := (n + 15) / 16; b * (b + 1) + 3 * b

/-- A Q table from its bytes; arguments are row and column numbers. -/
def QTab.ofBytes (n : Nat) (q : List Nat) : QTab :=
  let b := (n + 15) / 16
  let t := b * (b + 1) / 2
  let at2 := fun base (i j : Nat) => q.getD (base + i / 16 * (i / 16 + 1) / 2 + j / 16) 0
  let at1 := fun k (i : Nat) => q.getD (2 * t + k * b + i / 16) 0
  { fA := at2 0, fL := at2 t, fD := at1 0, fB := at1 1, fX := at1 2 }

/-- A row of a fixed factor. -/
structure IRow where
  l : List Int
  w : List Int
  d : Int
  deriving DecidableEq, Repr

/-- A fixed factor, its counts, and whether anything left its range. -/
structure ILdl where
  rows : List IRow := []
  cnt : PivCnt := {}
  range : Bool := false
  deriving DecidableEq, Repr

/-- The FP32 value of an integer with `f` fractional bits. -/
def ffix (v : Int) (f : Nat) : Word := fenc (Fp.ofSig v (-(f : Int)) false)

/-- An FP32 value in `f` fractional bits: nearest even, saturated; whether it was clamped. -/
def toFix (x : Word) (f : Nat) : Int × Bool :=
  let v := (fdec x).mul (.fin false 1 f)
  let big := Fp.toInt (-(2 ^ 200)) (2 ^ 200) v
  satR big

/-- The small-pivot rule in fixed point: pivot, regularised, out of range. -/
def pivotI (tau lam : Word) (d a : Int) (fA fD : Nat) : Int × Bool × Bool :=
  let (t, c) := toFix tau fD
  if (d.natAbs : Int) < t then
    let (e, c2) := toFix (fmul lam (fmax 0x3F800000 (fabs (ffix a fA)))) fD
    let (v, c3) := satR (d + e)
    (v, true, c || c2 || c3)
  else (d, false, c)

/-- The terms of row *i* against row *j*: rs(L[i][k]·W[j][k], fL + fL − F). -/
def dotsI (q : QTab) (i j : Nat) (l w : List Int) : List Int :=
  let f : Int := (q.fA i j : Int) + 8
  (List.range (min l.length w.length)).map fun k =>
    rshift (l.getD k 0 * w.getD k 0) ((q.fL i k : Int) + q.fL j k - f)

/-- L[*i*][*j*] in fixed point for the rows *j* of a factor. -/
def lowRowI (q : QTab) (free : Nat → Int) (i : Nat) : List IRow → Nat → List Int → List Int → List Int × Bool
  | [], _, _, l => (l, false)
  | r :: rows, j, a, l =>
    let (acc, c1) := accSub (free (2 * j)) (a.headD 0 * 256) (dotsI q i j l r.w)
    let (v, c2) := divR (free (2 * j + 1)) (acc * 2 ^ (q.fL i j + q.fD j)) (r.d * 2 ^ (q.fA i j + 8))
    let (l, c3) := lowRowI q free i rows (j + 1) (a.drop 1) (l ++ [v])
    (l, c1 || c2 || c3)

/-- One more row of a fixed factor. -/
def ILdl.row (q : QTab) (tau lam : Word) (free : Nat → Int) (f : ILdl) (a : List Int) : ILdl :=
  let i := f.rows.length
  let free := fun k => free (1024 * i + k)
  let (l, c1) := lowRowI q free i f.rows 0 a []
  let ws := (List.range i).map fun k => satR (rshift (l.getD k 0 * (f.rows.getD k ⟨[], [], 0⟩).d) (q.fD k))
  let w := ws.map (·.1)
  let aii := a.getD i 0
  let (acc, c2) := accSub (free (2 * i)) (aii * 256) (dotsI q i i l w)
  let (d, c3) := satR (rshift acc ((q.fA i i : Int) + 8 - q.fD i))
  let (d, r, c4) := pivotI tau lam d aii (q.fA i i) (q.fD i)
  { rows := f.rows ++ [{ l, w, d }]
    cnt := f.cnt.add { n := bN r, first := if r then some i else none, neg := bN (decide (d < 0)) }
    range := f.range || c1 || ws.any (·.2) || c2 || c3 || c4 }

/-- LDLᵀ in fixed point. -/
def ldlI (q : QTab) (tau lam : Word) (free : Nat → Int) (a : List (List Int)) : ILdl := a.foldl (ILdl.row q tau lam free) {}

/-- Forward in fixed point: y. -/
def fwdI (q : QTab) (free : Nat → Int) : List IRow → Nat → List Int → List Int → List Int × Bool
  | [], _, _, y => (y, false)
  | r :: rows, i, b, y =>
    let f : Int := (q.fX i : Int) + 8
    let (acc, c1) := accSub (free (3 * i)) (rshift (b.headD 0) ((q.fB i : Int) - f)) ((List.range i).map fun k =>
      rshift (r.l.getD k 0 * y.getD k 0) ((q.fL i k : Int) + q.fX k - f))
    let (v, c2) := satR (rshift acc 8)
    let (y, c3) := fwdI q free rows (i + 1) (b.drop 1) (y ++ [v])
    (y, c1 || c2 || c3)

/-- Backward in fixed point. -/
def bwdI (q : QTab) (free : Nat → Int) (rows : List IRow) (z : List Int) : Nat → List Int → List Int × Bool
  | 0, x => (x, false)
  | i + 1, x =>
    let f : Int := (q.fX i : Int) + 8
    let (acc, c1) := accSub (free (3 * i + 1)) (z.getD i 0 * 256) ((List.range x.length).map fun m =>
      let k := i + 1 + m
      rshift ((rows.getD k ⟨[], [], 0⟩).l.getD i 0 * x.getD m 0) ((q.fL k i : Int) + q.fX k - f))
    let (v, c2) := satR (rshift acc 8)
    let (x, c3) := bwdI q free rows z i (v :: x)
    (x, c1 || c2 || c3)

/-- Solve one column in fixed point. -/
def solveI (q : QTab) (free : Nat → Int) (f : List IRow) (b : List Int) : List Int × Bool :=
  let (y, c1) := fwdI q free f 0 b []
  let zs := (List.range f.length).map fun i =>
    divR (free (3 * i + 2)) (y.getD i 0 * 2 ^ q.fD i) (f.getD i ⟨[], [], 0⟩).d
  let (x, c2) := bwdI q free f (zs.map (·.1)) f.length []
  (x, c1 || zs.any (·.2) || c2)

end Sys2Proof.Machine
end

