-- ==== Sys2Proof/Machine/Camera.lean ====
section
/-! DEFINITION. The solver's camera model, its tangents, residuals and the accumulation of normal equations (R297-R300). -/

namespace Sys2Proof.Machine

/-- A value with its tangents, one per parameter (R298). -/
structure Dual where
  v : Word
  t : List Word
  deriving DecidableEq, Repr

/-- A constant: every tangent +0. -/
def dconst (n : Nat) (v : Word) : Dual := { v, t := List.replicate n 0 }
/-- The tangent rules of R298. -/
def Dual.add (a b : Dual) : Dual := { v := fadd a.v b.v, t := List.zipWith fadd a.t b.t }
def Dual.sub (a b : Dual) : Dual := { v := fsub a.v b.v, t := List.zipWith fsub a.t b.t }
def Dual.mul (a b : Dual) : Dual :=
  { v := fmul a.v b.v, t := List.zipWith (fun x y => fadd (fmul x b.v) (fmul a.v y)) a.t b.t }
def Dual.div (a b : Dual) : Dual :=
  let q := fdiv a.v b.v
  { v := q, t := List.zipWith (fun x y => fdiv (fsub x (fmul q y)) b.v) a.t b.t }
def Dual.fma (a b c : Dual) : Dual :=
  { v := ffma a.v b.v c.v, t := List.zipWith fadd (List.zipWith (fun x y => fadd (fmul x b.v) (fmul a.v y)) a.t b.t) c.t }
def Dual.sqrt (a : Dual) : Dual :=
  let q := fsqrt a.v
  { v := q, t := a.t.map fun x => fdiv x (fmul 0x40000000 q) }
def Dual.sin (a : Dual) : Dual := { v := fsin a.v, t := a.t.map (fmul (fcos a.v)) }
def Dual.cos (a : Dual) : Dual := { v := fcos a.v, t := a.t.map (fmul (fneg (fsin a.v))) }

/-- A vector of three. -/
structure D3 where
  x : Dual
  y : Dual
  z : Dual
  deriving DecidableEq, Repr

/-- cross(p, q). -/
def D3.cross (p q : D3) : D3 :=
  { x := (p.y.mul q.z).sub (p.z.mul q.y), y := (p.z.mul q.x).sub (p.x.mul q.z), z := (p.x.mul q.y).sub (p.y.mul q.x) }
def D3.add (p q : D3) : D3 := { x := p.x.add q.x, y := p.y.add q.y, z := p.z.add q.z }
/-- *s*·*p* per component. -/
def D3.scale (s : Dual) (p : D3) : D3 := { x := s.mul p.x, y := s.mul p.y, z := s.mul p.z }

/-- The rotation steps: (X + a·c) + b·d. -/
def rotate (n : Nat) (w p : D3) : D3 :=
  let k := dconst n
  let th2 := w.z.fma w.z (w.y.fma w.y (w.x.mul w.x))
  let (a, b) :=
    if flt th2.v 0x35800000 then
      ((k 0x3F800000).sub (th2.div (k 0x40C00000)), (k 0x3F000000).sub (th2.div (k 0x41C00000)))
    else
      let th := th2.sqrt
      (th.sin.div th, ((k 0x3F800000).sub th.cos).div th2)
  let c := w.cross p
  let d := w.cross c
  (p.add (.scale a c)).add (.scale b d)

/-- The projection: Xc.z, u and v. -/
def project (n : Nat) (cam : List Dual) (p : D3) : Dual × Dual × Dual :=
  let k := dconst n
  let e := fun i => cam.getD i (k 0)
  let xc := (rotate n { x := e 0, y := e 1, z := e 2 } p).add { x := e 3, y := e 4, z := e 5 }
  let x := xc.x.div xc.z
  let y := xc.y.div xc.z
  let r2 := (x.mul x).add (y.mul y)
  let rad := (((e 12).fma r2 (e 11)).fma r2 (e 10)).fma r2 (k 0x3F800000)
  let two := k 0x40000000
  let p1 := e 13
  let p2 := e 14
  let xd := ((x.mul rad).add (((two.mul p1).mul x).mul y)).add (p2.mul (r2.add ((two.mul x).mul x)))
  let yd := ((y.mul rad).add (p1.mul (r2.add ((two.mul y).mul y)))).add (((two.mul p2).mul x).mul y)
  (xc.z, (e 6).fma xd (e 8), (e 7).fma yd (e 9))

/-- Numbers of the camera parameters that are solved for: the pose and the intrinsics that INTR selects. -/
def paramsOf (intr : Nat) : List Nat := List.range 6 ++ ((List.range 9).filter (bitN intr)).map (6 + ·)

/-- Parameter number `i` of `n`, seeded when it is one of `sel`. -/
def seeded (n : Nat) (sel : List Nat) (i : Nat) (v : Word) : Dual :=
  match sel.findIdx? (· == i) with
  | some j => { v, t := (List.range n).map fun m => if m = j then 0x3F800000 else 0 }
  | none => dconst n v

/-- A scaled observation: the rows of J̃ and r̃. -/
structure ObsRow where
  j0 : List Word
  j1 : List Word
  r0 : Word
  r1 : Word
  deriving DecidableEq, Repr

/-- Evaluate an observation for the parameters `sel` (15, 16, 17: the point's X, Y, Z); none when it is rejected (R297-R299). -/
def evalObs (sel : List Nat) (huber zmin : Word) (cam pt : List Word) (uo vo wo : Word) : Option ObsRow :=
  let n := sel.length
  let c := (List.range 15).map fun i => seeded n sel i (cam.getD i 0)
  let p := fun i => seeded n sel (15 + i) (pt.getD i 0)
  let (z, u, v) := project n c { x := p 0, y := p 1, z := p 2 }
  if fle z.v zmin then none
  else
    let r0 := fsub u.v uo
    let r1 := fsub v.v vo
    let rho :=
      if flt 0 huber then
        let e := fsqrt (ffma r1 r1 (fmul r0 r0))
        if flt huber e then fdiv huber e else 0x3F800000
      else 0x3F800000
    let sg := fsqrt (fmul wo rho)
    some { j0 := u.t.map (fmul sg), j1 := v.t.map (fmul sg), r0 := fmul sg r0, r1 := fmul sg r1 }

/-- A normal block: lower rows of H, g, cost. -/
structure Normal where
  h : List (List Word)
  g : List Word
  cost : Word
  used : Nat := 0
  rej : Nat := 0
  deriving DecidableEq, Repr

/-- The empty normal block of `n` parameters. -/
def Normal.zero (n : Nat) : Normal :=
  { h := (List.range n).map fun a => List.replicate (a + 1) 0, g := List.replicate n 0, cost := 0 }

/-- Accumulate an observation (R300). -/
def Normal.take (m : Normal) (o : Option ObsRow) : Normal :=
  match o with
  | none => { m with rej := m.rej + 1 }
  | some e =>
    let h := m.h.zipIdx.map fun r => r.1.zipIdx.map fun x =>
      ffma (e.j1.getD r.2 0) (e.j1.getD x.2 0) (ffma (e.j0.getD r.2 0) (e.j0.getD x.2 0) x.1)
    let g := m.g.zipIdx.map fun x => ffma (e.j1.getD x.2 0) e.r1 (ffma (e.j0.getD x.2 0) e.r0 x.1)
    { m with h, g, cost := ffma e.r1 e.r1 (ffma e.r0 e.r0 m.cost), used := m.used + 1 }

/-- Damp the diagonal: fl(H + fl(μ·H)). -/
def dampDiag (mu : Word) (h : List (List Word)) : List (List Word) :=
  h.zipIdx.map fun r => r.1.zipIdx.map fun x => if x.2 = r.2 then fadd x.1 (fmul mu x.1) else x.1

end Sys2Proof.Machine
end

