-- ==== Sys2Proof/Machine/Act.lean ====
section
/-! DEFINITION. Activation functions, table interpolation and requantisation (R262-R265), shared by stage lists and vector
instructions. -/

namespace Sys2Proof.Machine

/-- The one NaN code. -/
def fNaN : Word := 0x7FC00000

/-- A NaN result is written as 0x7FC0_0000 (R257). -/
def fcan (w : Word) : Word := if isNaN w then fNaN else w

/-- A value scaled by 2^`k`. -/
def Fp.scale (k : Int) : Fp → Fp
  | .nan => .nan
  | .inf n => .inf n
  | .fin n m e => .fin n m (e + k)

/-- Interpolation of `x` in table `T` with lower bound `lo` and step 2^`e` (R263). -/
def interp (T : Nat → Word) (lo : Word) (e : Int) (x : Word) : Word :=
  let u := fenc ((fdec (fsub x lo)).scale (-e))
  if isNaN x || isNaN u then fNaN
  else if !flt 0 u then fcan (T 0)
  else if !flt u 0x437F0000 then fcan (T 255)
  else
    let i := min (fdec u).floor.toNat 254
    ffma (fsub u (fofInt i)) (fsub (T (i + 1)) (T i)) (T i)

/-- RELU: +0 below zero and for −0. -/
def relu (x : Word) : Word := if isNaN x then fNaN else if flt x 0 || x.fld 0 31 == 0 then 0 else x

/-- RELU6. -/
def relu6 (x : Word) : Word := fmin (relu x) 0x40C00000

/-- Entry `n` of table `t` of the LUT memory (R254). -/
def lutAt (lut : Nat → Nat → Word) (imm : Word) : Nat → Word := lut (imm.fld 0 3)

/-- Interpolation by the LUT fields of a stage or instruction: table IMM[2:0], LO IMM[18:3] in BF16, E IMM[26:19]. -/
def lutFn (lut : Nat → Nat → Word) (imm x : Word) : Word :=
  interp (lutAt lut imm) (Word.ofNat (imm.fld 3 16 * 65536)) (toSigned 8 (imm.fld 19 8)) x

/-- The activation function of a code on an FP32 value (R262). Codes 8-15 are illegal and never reach it. -/
def actFn (lut : Nat → Nat → Word) (code : Nat) (imm x : Word) : Word :=
  match code with
  | 0 => relu x
  | 1 => relu6 x
  | 2 => fmul x (interp romSigma 0xC1800000 (-3) x)
  | 3 => interp romSigma 0xC1800000 (-3) x
  | 4 => interp romTau 0xC1000000 (-4) x
  | 5 => fdiv (fmul x (relu6 (fadd x 0x40400000))) 0x40C00000
  | 6 => fmul x (interp romGamma 0xC1000000 (-4) x)
  | _ => lutFn lut imm x

/-- (*x*·MUL + 2^(*h*−1)) >> *h*, exact (R258, R264). -/
def mulShift (x mul : Int) (h : Nat) : Int := (x * mul + (if h = 0 then 0 else 2 ^ (h - 1))) / 2 ^ h

/-- REQUANT of an INT32 value to INT8 or UINT8 by an entry's MUL, *h* and ZP (R264). -/
def requantInt (fmt : Nat) (x mul : Int) (h : Nat) (zp : Int) : Nat :=
  let q := mulShift x mul h + zp
  ofSigned 8 (if fmt = 0 then clampI (-128) 127 q else clampI 0 255 q)

/-- Conversion of an FP32 value to an element format (R264, R265). -/
def encOf (fmt : Nat) (sat : Bool) (x : Word) : Nat := elemEnc fmt sat (x.bit 31) (fdec x)

/-- The 32-bit lane of a loaded element: integers extended, floating formats decoded to FP32, RAW32 unchanged (R259). -/
def laneOf (fmt v : Nat) : Word :=
  if fmt = 0 then wordOfInt (toSigned 8 v) else if fmt = 1 then Word.ofNat (v % 256)
  else if fmt = 6 then Word.ofNat v else fenc (elemDec fmt v)

end Sys2Proof.Machine
end

