-- ==== Sys2Proof/Machine/Mem.lean ====
section
/-! DEFINITION. The bytes of DRAM and of the activation stores, the address map (R139, R140) and the state of each DRAM
sector's code word (R141, R144). -/

namespace Sys2Proof.Machine

/-- The channel of a usable DRAM address (R139). -/
def chanOf (a : Nat) : Nat :=
  let g := a / 256
  (g % 8).xor ((g / 8 % 8).xor (g / 64 % 8))

/-- The channel-local usable address (R139). -/
def chanLocal (a : Nat) : Nat := a / 256 / 8 * 256 + a % 256

/-- The physical channel address of a channel-local address (R140). -/
def physOf (c : Nat) : Nat := c / 3840 * 4096 + c % 3840

/-- The usable address of offset `o` of span `r` of channel `ch`: the inverse of R139 and R140. -/
def usableOf (ch r o : Nat) : Nat :=
  let c := r * 3840 + o
  let hi := c / 256
  let low := ch.xor ((hi % 8).xor (hi / 8 % 8))
  (hi * 8 + low) * 256 + c % 256

/-- A byte of DRAM; one that nothing has written reads 0 (DESIGN CHOICE, notes/assumptions/4). -/
def Dev.byte (s : Dev) (a : Nat) : Byte := Tab.get (fun _ => 0) s.dram a

/-- `n` bytes of DRAM from `a`. -/
def Dev.bytes (s : Dev) (a n : Nat) : List Byte := (List.range n).map fun i => s.byte (a + i)

/-- Store bytes at consecutive addresses of a memory. -/
def storeBytes (m : Tab Byte) (a : Nat) : List Byte → Tab Byte
  | [] => m
  | b :: r => storeBytes (Tab.set (fun _ => 0) m a b) (a + 1) r

/-- Store bytes in DRAM, leaving the code words alone. -/
def Dev.putBytes (s : Dev) (a : Nat) (bs : List Byte) : Dev := { s with dram := storeBytes s.dram a bs }

/-- The state of the code word of sector `i` (address div 32). -/
def Dev.mark (s : Dev) (i : Nat) : SecMark := Tab.get (fun _ => .ok) s.marks i

/-- Set the state of sector `i`'s code word. -/
def Dev.setMark (s : Dev) (i : Nat) (m : SecMark) : Dev := { s with marks := Tab.set (fun _ => .ok) s.marks i m }

/-- The sectors that `n` bytes from `a` touch. -/
def sectors (a n : Nat) : List Nat :=
  if n = 0 then [] else (List.range ((a + n - 1) / 32 - a / 32 + 1)).map (a / 32 + ·)

/-- The injection armed for sector `i` is consumed: its KIND, and KIND returns to 0 (R457). -/
def Dev.takeInj (s : Dev) (i : Nat) : Nat × Dev :=
  let k := s.rf R.rasInjCtl 0 2
  if k ≠ 0 ∧ s.rq R.rasInjAddrLo / 32 = i then (k, s.setRf R.rasInjCtl 0 2 0) else (0, s)

/-- The form in which an injection of KIND `k` stores a fresh code word (R457). -/
def injMark (k : Nat) : SecMark := if k = 1 then .ce else if k = 2 then .ue else if k = 3 then .poison else .ok

/-- Write zero over `n` bytes of whole sectors from `a`: fresh code words (R408, R420). -/
def Dev.memZero (s : Dev) (a n : Nat) : Dev :=
  let s : Dev := { s with
    dram := s.dram.filter (fun x => x.1 < a || a + n ≤ x.1)
    marks := s.marks.filter (fun x => x.1 < a / 32 || (a + n) / 32 ≤ x.1) }
  let i := s.rq R.rasInjAddrLo / 32
  if a / 32 ≤ i ∧ i < (a + n) / 32 then
    let (k, s) := s.takeInj i
    s.setMark i (injMark k)
  else s

/-! ### Activation stores (R201-R204) -/

/-- A byte of core `k`'s AS; the AS is zero after every reset that reaches it (R204). -/
def Dev.asByte (s : Dev) (k o : Nat) : Byte := Tab.get (fun _ => 0) s.as (k * 2 ^ 23 + o)

/-- `n` bytes of core `k`'s AS from offset `o`. -/
def Dev.asBytes (s : Dev) (k o n : Nat) : List Byte := (List.range n).map fun i => s.asByte k (o + i)

/-- Store bytes in core `k`'s AS. -/
def Dev.asPutBytes (s : Dev) (k o : Nat) (bs : List Byte) : Dev := { s with as := storeBytes s.as (k * 2 ^ 23 + o) bs }

/-- Write zero over `n` bytes of core `k`'s AS from offset `o` (R204, R334). -/
def Dev.asZero (s : Dev) (k o n : Nat) : Dev :=
  let a := k * 2 ^ 23 + o
  { s with
    as := s.as.filter (fun x => x.1 < a || a + n ≤ x.1)
    asMarks := s.asMarks.filter (fun x => x.1 < (a + 63) / 64 || (a + n) / 64 ≤ x.1) }

end Sys2Proof.Machine
end

