-- ==== Sys2Proof/Machine/Bpm.lean ====
section
/-! DEFINITION. The buffer pool manager: pools, handles, admission, allocation, reference counts, the ledger, waiters,
retirement and the owner table (R115-R137, R460, R462). -/

namespace Sys2Proof.Machine

/-! ### Pools -/

/-- Pool `p` besides its configuration registers. -/
def Dev.pool (s : Dev) (p : Nat) : Pool := Tab.get (fun _ => {}) s.bpm.pools p

/-- Set pool `p`. -/
def Dev.setPool (s : Dev) (p : Nat) (x : Pool) : Dev :=
  { s with bpm := { s.bpm with pools := Tab.set (fun _ => {}) s.bpm.pools p x } }

/-- Pool `p` is enabled: CFG2.EN. -/
def Dev.poolEn (s : Dev) (p : Nat) : Bool := s.rb (R.bpmPoolCfg2 p) 14
/-- COUNT. -/
def Dev.poolCount (s : Dev) (p : Nat) : Nat := s.rf (R.bpmPoolCfg0 p) 0 21
/-- Buffer size in bytes: SIZE in 256 B units. -/
def Dev.poolSize (s : Dev) (p : Nat) : Nat := s.rf (R.bpmPoolCfg1 p) 0 19 * 256
/-- CLASS: 0 PIXEL, 1 TENSOR, 2 META, 3 CLIP, 4 CONTROL. -/
def Dev.poolCls (s : Dev) (p : Nat) : Nat := s.rf (R.bpmPoolCfg2 p) 0 3
/-- MODE: 0 QUOTA, 1 RESERVE, 2 QUOTA_RESERVE. -/
def Dev.poolMode (s : Dev) (p : Nat) : Nat := s.rf (R.bpmPoolCfg2 p) 3 2
/-- PLACE: placed in an AS. -/
def Dev.poolAs (s : Dev) (p : Nat) : Bool := s.rb (R.bpmPoolCfg2 p) 5
/-- CORE of an AS placement. -/
def Dev.poolCore (s : Dev) (p : Nat) : Nat := s.rf (R.bpmPoolCfg2 p) 6 4
/-- VF restriction, 0 none. -/
def Dev.poolVf (s : Dev) (p : Nat) : Nat := s.rf (R.bpmPoolCfg2 p) 10 4
/-- BASE. -/
def Dev.poolBase (s : Dev) (p : Nat) : Nat := s.rn (R.bpmPoolBaseLo p) + s.rn (R.bpmPoolBaseHi p) * 2 ^ 32

/-- Quota of requester `r` in pool `p`; 1,048,576 until set. -/
def Dev.quota (s : Dev) (p r : Nat) : Nat := Tab.get (fun _ => 0x100000) (s.pool p).quota r
/-- Reserve of requester `r` in pool `p`; ORPHAN has none (R119). -/
def Dev.reserve (s : Dev) (p r : Nat) : Nat := if r = 79 then 0 else Tab.get (fun _ => 0) (s.pool p).reserve r

/-! ### Buffers and handles (R118) -/

/-- Buffer `i` of pool `p`. -/
def Dev.buf (s : Dev) (p i : Nat) : Buf := Tab.get (fun _ => {}) s.bpm.bufs (p * 2 ^ 20 + i)

/-- Set buffer `i` of pool `p`. -/
def Dev.setBuf (s : Dev) (p i : Nat) (b : Buf) : Dev :=
  { s with bpm := { s.bpm with bufs := Tab.set (fun _ => {}) s.bpm.bufs (p * 2 ^ 20 + i) b } }

/-- POOL field of a handle. -/
def hPool (h : Nat) : Nat := fldN h 28 4
/-- INDEX field of a handle. -/
def hIdx (h : Nat) : Nat := fldN h 8 20
/-- GEN field of a handle. -/
def hGen (h : Nat) : Nat := fldN h 0 8
/-- A handle from its fields. -/
def mkHandle (p i g : Nat) : Nat := p % 16 * 2 ^ 28 + i % 2 ^ 20 * 256 + g % 256

/-- The generation after `n` advances since power-on: 0, then 1 to 255 and again 1, never 0 (R118). -/
def genOf (n : Nat) : Nat := if n = 0 then 0 else (n - 1) % 255 + 1

/-- The current generation of buffer `i` of pool `p`. -/
def Dev.bufGen (s : Dev) (p i : Nat) : Nat := genOf ((s.buf p i).allocs + s.bpm.resets)

/-- The handle of buffer `i` of pool `p` in its current generation. -/
def Dev.handleOf (s : Dev) (p i : Nat) : Nat := mkHandle p i (s.bufGen p i)

/-- A handle is valid: its pool is enabled, its index below COUNT, its buffer not retired, its generation current (R118). -/
def Dev.hValid (s : Dev) (h : Nat) : Bool :=
  let b := s.buf (hPool h) (hIdx h)
  s.poolEn (hPool h) && decide (hIdx h < s.poolCount (hPool h)) && b.st != .retired && hGen h == s.bufGen (hPool h) (hIdx h) && hGen h != 0

/-- Address of the buffer a handle names: DRAM address, or AS byte offset. -/
def Dev.hAddr (s : Dev) (h : Nat) : Nat := s.poolBase (hPool h) + hIdx h * s.poolSize (hPool h)

/-- Whether a pool accepts a context's operations: a restricted pool the PF's contexts and its VF's, an unrestricted one PF
contexts only (R117). -/
def Dev.poolMay (s : Dev) (p c : Nat) : Bool :=
  let v := s.ctxVf c
  if s.poolVf p = 0 then v == 0 else v == 0 || v == s.poolVf p

/-- The listed buffers of a pool. -/
def Dev.poolBufs (s : Dev) (p : Nat) : List (Nat × Buf) := s.bpm.bufs.filter fun x => x.1 / 2 ^ 20 == p

/-- USED(r, p): buffers of pool `p` charged to requester `r` (R120). -/
def Dev.used (s : Dev) (p r : Nat) : Nat := ((s.poolBufs p).filter fun x => x.2.st == .alloc && x.2.rq == r).length

/-- Retired buffers of a pool. -/
def Dev.retiredN (s : Dev) (p : Nat) : Nat :=
  ((s.poolBufs p).filter fun x => x.2.st == .retired && x.1 % 2 ^ 20 < s.poolCount p).length

/-- Allocated buffers of a pool. -/
def Dev.allocN (s : Dev) (p : Nat) : Nat := ((s.poolBufs p).filter fun x => x.2.st == .alloc).length

/-- The effective count *N* (Admission). -/
def Dev.poolN (s : Dev) (p : Nat) : Nat := s.poolCount p - s.retiredN p

/-- Sum of the reserves. -/
def Dev.sumRes (s : Dev) (p : Nat) : Nat := ((List.range 96).map (s.reserve p)).sum

/-- The shared space *S* is above 0: *N* exceeds the sum of max(*u*, *m*). -/
def Dev.shared (s : Dev) (p : Nat) : Bool :=
  decide (((List.range 96).map fun r => max (s.used p r) (s.reserve p r)).sum < s.poolN p)

/-! ### The free queue (R124) -/

/-- The first index at or above `i` and below `n` that is not retired. -/
def Dev.nextFresh (s : Dev) (p n i fuel : Nat) : Option Nat :=
  match fuel with
  | 0 => none
  | fuel + 1 =>
    if n ≤ i then none
    else if (s.buf p i).st = .retired then s.nextFresh p n (i + 1) fuel
    else some i

/-- The buffer at the head of the free queue, and the pool after taking it. -/
def Dev.freeHead (s : Dev) (p : Nat) : Option (Nat × Pool) :=
  let x := s.pool p
  match s.nextFresh p (s.poolCount p) x.fresh (s.retiredN p + 1) with
  | some i => some (i, { x with fresh := i + 1 })
  | none => match x.freed with
    | [] => none
    | i :: r => some (i, { x with freed := r })

/-- Free buffers of a pool. -/
def Dev.freeN (s : Dev) (p : Nat) : Nat := if s.poolEn p then s.poolN p - s.allocN p else 0

/-! ### Admission (R121) -/

/-- The first check of R121 that an allocation by `r` from pool `p` fails, if any. -/
def Dev.admits (s : Dev) (p r : Nat) : Option Nm :=
  let u := s.used p r
  let overQuota := decide (s.quota p r ≤ u)
  let none_ := !s.poolEn p || (s.freeHead p).isNone
  let room := decide (u < s.reserve p r) || s.shared p
  match s.poolMode p with
  | 0 => if overQuota then some .poolQuota else if none_ then some .poolEmpty else none
  | 1 => if !room || none_ then some .poolEmpty else none
  | _ => if overQuota then some .poolQuota else if !room || none_ then some .poolEmpty else none

/-- Take the head of the free queue for requester `rq` and context `c`: count 1, next generation, charged, recorded (R127). -/
def Dev.takeBuf (s : Dev) (p rq c : Nat) : Nat × Dev :=
  match s.freeHead p with
  | none => (0, s)
  | some (i, x) =>
    let s := s.setPool p x
    let s := s.setBuf p i { st := .alloc, count := 1, allocs := (s.buf p i).allocs + 1, rq, ctx := c }
    (s.handleOf p i, s.perf 0x10000 0 1)

/-! ### The ledger (R132) -/

/-- Slot `k`'s ledger entry for a handle. -/
def Dev.ledgerN (s : Dev) (k h : Nat) : Nat := ((s.bpm.ledger.find? fun e => e.slot == k && e.h == h).map (·.n)).getD 0

/-- The ledger has no free entry. -/
def Dev.ledgerFull (s : Dev) : Bool := decide (16384 ≤ s.bpm.ledger.length)

/-- Raise slot `k`'s entry for a handle, adding one when it has none. -/
def Dev.ledgerAdd (s : Dev) (k h : Nat) : Dev :=
  if s.ledgerN k h = 0 then { s with bpm := { s.bpm with ledger := s.bpm.ledger ++ [⟨k, h, 1⟩] } }
  else
    let l := s.bpm.ledger.map fun e => if e.slot == k && e.h == h then { e with n := e.n + 1 } else e
    { s with bpm := { s.bpm with ledger := l } }

/-- Lower slot `k`'s entry for a handle, removing it at 0. -/
def Dev.ledgerSub (s : Dev) (k h : Nat) : Dev :=
  let l := s.bpm.ledger.map fun e => if e.slot == k && e.h == h then { e with n := e.n - 1 } else e
  { s with bpm := { s.bpm with ledger := l.filter (·.n != 0) } }

/-! ### Events of the BPM and of retirement -/

/-- An event of the BPM (block 0x09) about a handle. -/
def Dev.bpmEvent (s : Dev) (nm : Nm) (c : Option Nat) (d0 d1 d2 : Nat) : Dev :=
  s.raise { nm, blk := 9, ctx := c, d0, d1, d2 }

/-- Pages of the retirement table. -/
def Dev.retirePages (s : Dev) : List Nat := s.ras.table.map (·.2 - 1)

/-- The retirement table becomes `t`, and so does its copy in the manager's flash (R151). -/
def Dev.setTable (s : Dev) (t : Tab Nat) : Dev :=
  { s with ras := { s.ras with table := t }, mgmt := { s.mgmt with stored := t } }

/-- Enter a page in the retirement table (R151): PAGE_RETIRED; a full table sets TABLE_FULL and records nothing. The table's
values are page + 1, so that an unlisted entry is an invalid one. -/
def Dev.tableAdd (s : Dev) (page : Nat) : Dev :=
  if page ∈ s.retirePages then s
  else
    let s :=
      if 1024 ≤ s.ras.table.length then s.setRb R.rasStat 1 true
      else
        let k := ((List.range 1024).find? fun i => Tab.get (fun _ => 0) s.ras.table i = 0).getD 0
        let s := s.setTable (Tab.set (fun _ => 0) s.ras.table k (page + 1))
        s.setReg R.rasRetireCnt (Word.ofNat s.ras.table.length)
    let s := s.irq 0x18000 1
    s.raise { nm := .pageRetired, blk := 0xA, d0 := page, d1 := s.rn R.rasRetireCnt, d3 := chanOf (page * 4096) }

/-- Retirement left *N* below the sum of reserves: SHORT (R123). -/
def Dev.checkShort (s : Dev) (p : Nat) : Dev :=
  if s.poolMode p ≠ 0 ∧ s.poolN p < s.sumRes p then (s.setRb (R.bpmPoolStat p) 4 true).irq 0x10000 1 else s

/-- Retire a buffer: RETIRED, out of the free queue and out of *N* (R137). -/
def Dev.retireBuf (s : Dev) (p i : Nat) : Dev :=
  let s := s.setPool p { s.pool p with freed := (s.pool p).freed.filter (· != i) }
  let s := s.setBuf p i { st := .retired, allocs := (s.buf p i).allocs }
  let s := s.setReg (R.bpmPoolRetired p) (Word.ofNat (s.retiredN p))
  s.checkShort p

/-- The buffers of pool `p` that overlap a 4 KiB page. -/
def Dev.bufsOn (s : Dev) (p page : Nat) : List Nat :=
  let base := s.poolBase p
  let size := s.poolSize p
  let a := page * 4096
  if s.poolAs p || size = 0 || a + 4096 ≤ base then []
  else
    let lo := (a - base) / size
    let hi := (a + 4095 - base) / size
    ((List.range (hi - lo + 1)).map (lo + ·)).filter (· < s.poolCount p)

/-- RAS retires a page: FREE buffers on it are retired, allocated ones are marked POISONED (R137). -/
def Dev.retirePage (s : Dev) (page : Nat) : Dev :=
  (List.range 16).foldl (fun s p =>
    if s.poolEn p then
      (s.bufsOn p page).foldl (fun s i =>
        match (s.buf p i).st with
        | .free => s.retireBuf p i
        | .alloc => s.setBuf p i { s.buf p i with poisoned := true }
        | .retired => s) s
    else s) s

/-! ### Waiters (R125, R126) -/

/-- The context slot of this unit that context `c` holds (R331): 0 for context 0; none when it has none. -/
def Dev.slotOf (s : Dev) (c : Nat) : Option Nat :=
  if c = 0 then some 0 else (s.slots.find? fun x => x.2 == c).map (·.1)

/-- The tag of a BPM operation that came in a frame: from unit `src` with transaction ID `txid` (R134). -/
def remoteTag (src txid : Nat) : Nat := 2 ^ 48 + src * 2 ^ 32 + txid

/-- Answer a port: what an engine's or core's operation got. The answer to another unit's operation leaves in a RESPONSE frame. -/
def Dev.answer (s : Dev) (tag : Nat) (st : Status) (v : Nat) : Dev :=
  if 2 ^ 48 ≤ tag then s.respond (tag / 2 ^ 32 % 16) 0 (tag % 2 ^ 32) st.code (bytesOf 4 v)
  else { s with bpm := { s.bpm with answers := (tag, st, v) :: s.bpm.answers } }

/-- An admitted allocation: for a context slot's BUF_ALLOC the ledger must have a place (R132). The status and the handle. -/
def Dev.allocNow (s : Dev) (p rq c : Nat) (slot : Option Nat) : Status × Nat × Dev :=
  match slot with
  | some k =>
    if s.ledgerFull then
      (⟨.poolQuota, 9⟩, 0, (s.perf 0x10000 4 1).irq 0x10000 0)
    else
      let (h, s) := s.takeBuf p rq c
      (.ok, h, s.ledgerAdd k h)
  | none =>
    let (h, s) := s.takeBuf p rq c
    (.ok, h, s)

/-- Serve waiters of a pool, oldest admitted first, while one is admitted (R126). -/
def Dev.serve (s : Dev) (p fuel : Nat) : Dev :=
  match fuel with
  | 0 => s
  | fuel + 1 =>
    match s.bpm.waiters.find? fun w => w.pool == p && (s.admits p w.rq).isNone with
    | none => s
    | some w =>
      let s : Dev := { s with bpm := { s.bpm with waiters := s.bpm.waiters.filter (·.id != w.id) } }
      let slot := match w.who with
        | .cmd _ _ => some w.rq
        | .eng _ => none
      let (st, h, s) := s.allocNow p w.rq w.ctx slot
      let s := match w.who with
        | .cmd c seq => s.finishRun c seq st h
        | .eng tag => s.answer tag st h
      s.serve p fuel

/-- Serve every waiter of a pool that can be served. -/
def Dev.serveAll (s : Dev) (p : Nat) : Dev := s.serve p s.bpm.waiters.length

/-! ### Freeing (R130, R408, R462) -/

/-- The Vent is ENFORCING: SEALED or DECOMMISSIONED (R405). -/
def Dev.enforcing (s : Dev) : Bool := s.sec.lc == .sealed || s.sec.lc == .decommissioned

/-- A class whose freed buffers are zeroised and whose egress the Vent blocks: PIXEL, TENSOR, CLIP (R406, R408). -/
def guarded (cls : Nat) : Bool := cls == 0 || cls == 1 || cls == 3

/-- Zeroise a freed buffer of a guarded class while the Vent is ENFORCING or ZERO_ON_FREE is set (R408). -/
def Dev.zeroBuf (s : Dev) (p i : Nat) : Dev :=
  if guarded (s.poolCls p) && (s.enforcing || s.rb R.secCtl 0) then
    let a := s.poolBase p + i * s.poolSize p
    if s.poolAs p then s.asZero (s.poolCore p) a (s.poolSize p) else s.memZero a (s.poolSize p)
  else s

/-- The buffer whose count reached 0 is freed, or retired with its recorded pages when it is POISONED or BAD (R130, R462). -/
def Dev.freeBuf (s : Dev) (p i : Nat) : Dev :=
  let b := s.buf p i
  let s := s.perf 0x10000 1 1
  if b.poisoned || b.bad then
    let s := s.retireBuf p i
    b.errPages.foldl Dev.tableAdd s
  else
    let s := s.zeroBuf p i
    let s := s.setBuf p i { allocs := b.allocs }
    let s := s.setPool p { s.pool p with freed := (s.pool p).freed ++ [i] }
    s.serveAll p

/-! ### Reference counts (R129) -/

/-- A refused reference operation: REFCOUNT_ERR. -/
def Dev.refRefuse (s : Dev) : Dev := s.irq 0x10000 17

/-- Increment for context `c`, by context slot `slot` or by an engine or core: status, returned count (R129, R132). -/
def Dev.bpmInc (s : Dev) (c h : Nat) (slot : Option Nat) : Status × Nat × Dev :=
  let p := hPool h
  let i := hIdx h
  let b := s.buf p i
  if !s.hValid h || !s.poolMay p c then (⟨.staleHandle, 9⟩, 0, s.refRefuse)
  else if b.count = 0 then (⟨.staleHandle, 9⟩, 0, s.refRefuse)
  else if 65535 ≤ b.count then (⟨.refcountOverflow, 9⟩, b.count, s.refRefuse)
  else match slot with
    | some k =>
      if s.ledgerN k h = 0 ∧ s.ledgerFull = true then (⟨.poolQuota, 9⟩, b.count, s.irq 0x10000 0)
      else (.ok, b.count + 1, ((s.setBuf p i { b with count := b.count + 1 }).ledgerAdd k h).perf 0x10000 2 1)
    | none => (.ok, b.count + 1, (s.setBuf p i { b with count := b.count + 1 }).perf 0x10000 2 1)

/-- Decrement, as `bpmInc`; at 0 the buffer is freed (R129, R130). -/
def Dev.bpmDec (s : Dev) (c h : Nat) (slot : Option Nat) : Status × Nat × Dev :=
  let p := hPool h
  let i := hIdx h
  let b := s.buf p i
  if !s.hValid h || !s.poolMay p c then (⟨.staleHandle, 9⟩, 0, s.refRefuse)
  else if b.count = 0 then (⟨.refcountUnderflow, 9⟩, 0, s.refRefuse)
  else if slot.isSome && s.ledgerN (slot.getD 0) h == 0 then (⟨.refcountUnderflow, 9⟩, b.count, s.refRefuse)
  else
    let s := (s.setBuf p i { b with count := b.count - 1 }).perf 0x10000 3 1
    let s := match slot with
      | some k => s.ledgerSub k h
      | none => s
    (.ok, b.count - 1, if b.count = 1 then s.freeBuf p i else s)

/-- The BPM is down: its page group is quiesced or in soft reset (R12). -/
def Dev.bpmDown (s : Dev) : Bool := s.rb (0x10000 + R.ctl) 1 || s.rb (0x10000 + R.stat) 0

/-- A reference operation of an engine or core `rq`; a refusal is also a class-1 event naming the buffer's context (R131). -/
def Dev.engRef (s : Dev) (incr : Bool) (rq c h : Nat) : Status × Nat × Dev :=
  let owner := (s.buf (hPool h) (hIdx h)).ctx
  let (st, n, s) := if incr then s.bpmInc c h none else s.bpmDec c h none
  if st.nm = .success then (st, n, s) else (st, n, s.bpmEvent st.nm (if owner = 0 then none else some owner) h rq 0)

/-- Hold a reference operation while the BPM is down (R12). -/
def Dev.holdOp (s : Dev) (o : HeldOp) : Dev := { s with bpm := { s.bpm with held := s.bpm.held ++ [o] } }

/-- An engine takes a reference; while the BPM is down the operation is held (R12). -/
def Dev.ref (s : Dev) (rq c h : Nat) : Status × Dev :=
  if s.bpmDown then (.ok, s.holdOp { rq, ctx := c, h, incr := true })
  else let (st, _, s) := s.engRef true rq c h; (st, s)

/-- An engine or seat releases a reference; while the BPM is down the operation is held (R12). -/
def Dev.unref (s : Dev) (rq c h : Nat) : Dev :=
  if s.bpmDown then s.holdOp { rq, ctx := c, h, incr := false } else (s.engRef false rq c h).2.2

/-! ### Allocation (R121-R127) -/

/-- An allocation by requester `rq` for context `c`: immediate or blocking. The status and handle when it ends now, none when
it waits (R121, R125, R126). -/
def Dev.allocate (s : Dev) (p rq c : Nat) (slot : Option Nat) (blocking : Bool) (who : WaitFor) :
    Option (Status × Nat) × Dev :=
  if rq = 78 then (some (⟨.ctxFaultCmd, 9⟩, 0), s)
  else if !s.poolMay p c then (some (⟨.poolQuota, 9⟩, 0), s.perf 0x10000 4 1)
  else
    match (if s.bpmDown then some Nm.poolEmpty else s.admits p rq) with
    | none =>
      let (st, h, s) := s.allocNow p rq c slot
      (some (st, h), s)
    | some e =>
      if !blocking then (some (⟨e, 9⟩, 0), s.perf 0x10000 4 1)
      else if 128 ≤ s.bpm.waiters.length then (some (⟨.poolEmpty, 9⟩, 0), s.perf 0x10000 4 1)
      else
        (none, ({ s with bpm := { s.bpm with
          waiters := s.bpm.waiters ++ [{ id := s.bpm.nextId, pool := p, rq, ctx := c, who }]
          nextId := s.bpm.nextId + 1 } } : Dev).perf 0x10000 5 1)

/-! ### The owner table (R135) -/

/-- The enabled DRAM pool whose extent covers a usable address, and the buffer in it. -/
def Dev.ownerOf (s : Dev) (a : Nat) : Option (Nat × Nat) :=
  ((List.range 16).find? fun p =>
    s.poolEn p && !s.poolAs p && decide (s.poolBase p ≤ a) && decide (a < s.poolBase p + s.poolCount p * s.poolSize p)).map
    fun p => (p, (a - s.poolBase p) / s.poolSize p)

/-- The content class of a usable address: its buffer's pool's, CONTROL outside every pool (R405). -/
def Dev.clsOf (s : Dev) (a : Nat) : Nat :=
  match s.ownerOf a with
  | none => 4
  | some (p, _) => s.poolCls p

/-! ### Configuration (R122, R460, the reasons table) -/

/-- The fields of a configuration record. -/
structure PoolCfg where
  w0 : Nat
  w1 : Nat
  w2 : Nat
  base : Nat
  deriving DecidableEq, Repr

/-- Two extents overlap. -/
def overlaps (a n b m : Nat) : Bool := decide (a < b + m) && decide (b < a + n)

/-- The first reason from 1 to 9 that refuses enabling pool `p` with a record and requester table `q`, `m`, *N* being `n` there; 0
for none. -/
def Dev.cfgReason (s : Dev) (p n : Nat) (g : PoolCfg) (q m : Nat → Nat) : Nat :=
  let count := fldN g.w0 0 21
  let size := fldN g.w1 0 19
  let cls := fldN g.w2 0 3
  let mode := fldN g.w2 3 2
  let inAs := bitN g.w2 5
  let core := fldN g.w2 6 4
  let vf := fldN g.w2 10 4
  let len := count * size * 256
  let res := fun r => if r = 79 then 0 else m r
  if count = 0 ∨ 1048576 < count then 1
  else if size = 0 ∨ 262144 < size then 2
  else if 5 ≤ cls ∨ mode = 3 ∨ (inAs && s.rf (R.pwrIslCtl core) 0 1 == 0) = true then 3
  else if g.base % 4096 ≠ 0 ∨ (if inAs then 8 * 2 ^ 20 else s.usable) < g.base + len then 4
  else if (List.range 16).any (fun o => o != p && s.poolEn o && s.poolAs o == inAs && (!inAs || s.poolCore o == core)
      && overlaps g.base len (s.poolBase o) (s.poolCount o * s.poolSize o)) then 5
  else if mode ≠ 0 ∧ n < ((List.range 96).map res).sum then 6
  else if mode = 2 ∧ (List.range 96).any (fun r => decide (q r < res r)) then 7
  else if vf ≠ 0 ∧ (inAs ∨ g.base < s.rf (R.hifVfSlice (vf - 1)) 0 8 * 2 ^ 30
      ∨ s.rf (R.hifVfSlice (vf - 1)) 0 8 * 2 ^ 30 + 4 * 2 ^ 30 < g.base + len) then 9
  else 0

/-- Refuse a configuration change with a reason (R122). -/
def Dev.cfgReject (s : Dev) (p reason : Nat) : Dev := (s.setRf (R.bpmPoolStat p) 0 4 reason).irq 0x10000 16

/-- Store a record's words in the pool's configuration registers. -/
def Dev.cfgStore (s : Dev) (p : Nat) (g : PoolCfg) (en : Bool) : Dev :=
  let s := s.setReg (R.bpmPoolCfg0 p) (Word.ofNat (fldN g.w0 0 21))
  let s := s.setReg (R.bpmPoolCfg1 p) (Word.ofNat (fldN g.w1 0 19))
  let s := s.setReg (R.bpmPoolCfg2 p) (Word.ofNat (fldN g.w2 0 14 + bN en * 2 ^ 14))
  (s.setReg (R.bpmPoolBaseLo p) (Word.ofNat g.base)).setReg (R.bpmPoolBaseHi p) (Word.ofNat (g.base / 2 ^ 32))

/-- Forget a pool's buffers but their generations. -/
def Dev.clearBufs (s : Dev) (p : Nat) : Dev :=
  let l := s.bpm.bufs.map fun x => if x.1 / 2 ^ 20 == p then (x.1, ({ allocs := x.2.allocs } : Buf)) else x
  { s with bpm := { s.bpm with bufs := l.filter fun x => x.2 != {} } }

/-- Enable pool `p`, whose configuration registers hold the new record: the free queue is rebuilt, and buffers on pages of
the retirement table are retired (R124, R151). -/
def Dev.poolStart (s : Dev) (p : Nat) : Dev :=
  let s := s.clearBufs p
  let s := s.setPool p { s.pool p with fresh := 0, freed := [] }
  let s := (s.setRf (R.bpmPoolStat p) 0 5 0).setReg (R.bpmPoolRetired p) 0
  s.retirePages.foldl (fun s page =>
    (s.bufsOn p page).foldl (fun s i => if (s.buf p i).st = .free then s.retireBuf p i else s) s) s

/-- The requester table `q`, `m` becomes pool `p`'s. -/
def Dev.setRqTab (s : Dev) (p : Nat) (q m : Nat → Nat) : Dev :=
  let quota := (List.range 96).foldl (fun t r => Tab.set (fun _ => 0x100000) t r (q r)) ([] : Tab Nat)
  let reserve := (List.range 96).foldl (fun t r => Tab.set (fun _ => 0) t r (m r)) ([] : Tab Nat)
  s.setPool p { s.pool p with quota, reserve }

/-- The layout part of CFG2: CLASS, PLACE, CORE, VF. -/
def cfg2Layout (w : Nat) : Nat := fldN w 0 3 + fldN w 5 9 * 8

/-- Configure pool `p` with a record, its EN and a requester table: the reason that refuses it, or 0 (R122, R460). -/
def Dev.configure (s : Dev) (p : Nat) (g : PoolCfg) (en : Bool) (q m : Nat → Nat) : Nat × Dev :=
  let busy := s.poolEn p && decide (0 < s.allocN p)
  let same := s.poolEn p && fldN g.w0 0 21 == s.poolCount p && fldN g.w1 0 19 * 256 == s.poolSize p
    && g.base == s.poolBase p && cfg2Layout g.w2 == cfg2Layout (s.rn (R.bpmPoolCfg2 p))
  if !en then
    if busy then (8, s.cfgReject p 8)
    else (0, ((s.cfgStore p g false).clearBufs p).setRqTab p q m)
  else
    -- a change that keeps the layout is checked against the effective count (R122)
    let r0 := s.cfgReason p (if same then s.poolN p else fldN g.w0 0 21) g q m
    -- reasons 1-8 come in order before 9: IN_USE is checked after 1-7
    let r := if r0 = 0 ∨ r0 = 9 then (if busy && !same then 8 else r0) else r0
    if r ≠ 0 then (r, s.cfgReject p r)
    else
      let s := (s.cfgStore p g true).setRqTab p q m
      let s := s.setRf (R.bpmPoolStat p) 0 4 0
      (0, if same then s.serveAll p else s.poolStart p)

end Sys2Proof.Machine
end

