-- ==== Sys2Proof/Machine/Ras.lean ====
section
/-! DEFINITION. DRAM accesses through inline ECC, what RAS does with errors, the scrubber and the retirement table
(R141-R151, R457-R459). -/

namespace Sys2Proof.Machine

/-- Page of MEMC `k`. -/
def memcPage (k : Nat) : Nat := 0x20000 + 0x1000 * k

/-- Bring the counts in RAS_STAT up to date: lookups held, hard-error pages pending. -/
def Dev.rasCounts (s : Dev) : Dev :=
  (s.setRf R.rasStat 8 8 s.ras.held.length).setRf R.rasStat 16 7 s.ras.pending.length

/-- POISON_FOUND (R149): handle or 0, address, channel; to the owning context, or to none. -/
def Dev.poisonFound (s : Dev) (c : Option Nat) (h a : Nat) : Dev :=
  (s.irq 0x18000 16).raise { nm := .poisonFound, blk := 0xA, ctx := c, d0 := h, d1 := a % 2 ^ 32, d2 := a / 2 ^ 32,
                             d3 := chanOf a }

/-- Enter a page in the retirement table without a report; whether the table changed. -/
def Dev.tableQuiet (s : Dev) (page : Nat) : Bool × Dev :=
  if page ∈ s.retirePages then (false, s)
  else if 1024 ≤ s.ras.table.length then (false, s.setRb R.rasStat 1 true)
  else
    let k := ((List.range 1024).find? fun i => Tab.get (fun _ => 0) s.ras.table i = 0).getD 0
    let s := s.setTable (Tab.set (fun _ => 0) s.ras.table k (page + 1))
    (true, s.setReg R.rasRetireCnt (Word.ofNat s.ras.table.length))

/-- What RAS does about an uncorrectable error at a usable address, by the owner lookup (R149). -/
def Dev.rasAct (s : Dev) (a : Nat) : Dev :=
  let page := a / 4096
  match s.ownerOf a with
  | none =>
    let (ch, s) := s.tableQuiet page
    if ch then s.poisonFound none 0 a else s
  | some (p, i) =>
    let b := s.buf p i
    match b.st with
    | .free => (s.tableAdd page).retirePage page
    | .alloc =>
      let known := if b.pinned then b.bad else b.poisoned
      let b : Buf := { b with
        poisoned := b.poisoned || !b.pinned, bad := b.bad || b.pinned
        errPages := if page ∈ b.errPages then b.errPages else b.errPages ++ [page] }
      let s := s.setBuf p i b
      if known then s else s.poisonFound (some b.ctx) (s.handleOf p i) a
    | .retired => s

/-- RAS looks up an uncorrectable error: at once, or held while the BPM is down; with 64 held a demand lookup is counted
lost and the scrubber pauses (R150). -/
def Dev.rasLookup (s : Dev) (a : Nat) (scrub : Bool) : Dev :=
  if !s.bpmDown then s.rasAct a
  else if s.ras.held.length < 64 then
    ({ s with ras := { s.ras with held := s.ras.held ++ [a] } } : Dev).rasCounts
  else if scrub then s.setRb R.rasStat 2 true
  else s.satFld R.rasStat 23 8 1

/-- An uncorrectable error is met at sector `i` on behalf of context `c` (0 for the scrubber): poison code written, counted,
captured, looked up (R143, R144, R458). -/
def Dev.ue (s : Dev) (i c : Nat) (scrub : Bool) : Dev :=
  let a := i * 32
  let k := chanOf a
  let s := s.setMark i .poison
  let s := (s.satInc (R.memcUeCnt k) 1).irq (memcPage k) 16
  let code := (Status.mk (if scrub then .poisonFound else .dataPoisoned) 0xB).code
  (s.capture (memcPage k) code c a 0).rasLookup a scrub

/-- Sum of corrected errors in the window that ends now (R145). -/
def Dev.ceSum (s : Dev) : Nat :=
  (s.ras.ceLog.filter fun x => s.ns < x.1 + s.rf R.rasCeWindow 0 16 * 1000000000).length

/-- A corrected error on channel `k`: counted; CE_THRESHOLD once when the window's sum reaches the threshold (R142, R145). -/
def Dev.ce (s : Dev) (k : Nat) : Dev :=
  let s := ((s.satInc (R.memcCeCnt k) 1).perf (memcPage k) 6 1).irq (memcPage k) 0
  let th := s.rf R.rasCeThresh 0 16
  let s : Dev := if s.ceSum < th then { s with ras := { s.ras with winRaised := false } } else s
  let log := (s.ns, k) :: s.ras.ceLog.filter fun x => s.ns < x.1 + s.rf R.rasCeWindow 0 16 * 1000000000
  let s : Dev := { s with ras := { s.ras with ceLog := log } }
  if th ≠ 0 ∧ th ≤ log.length ∧ s.ras.winRaised = false then
    let n := fun j => (log.filter (·.2 == j)).length
    let top := (List.range 8).foldl (fun b j => if n b < n j then j else b) 0
    let s : Dev := { s with ras := { s.ras with winRaised := true } }
    (s.irq 0x18000 0).raise { nm := .ceThreshold, blk := 0xA, d0 := top, d1 := log.length }
  else s

/-- A demand read of sector `i` for context `c`: corrected and written back, or poisoned (R142, R143). Whether its data is
poisoned. -/
def Dev.secRd (s : Dev) (i c : Nat) : Bool × Dev :=
  let k := chanOf (i * 32)
  let s := s.perf (memcPage k) 0 1
  match s.mark i with
  | .ok => (false, s)
  | .ce => (false, (s.setMark i .ok).ce k)
  | .ue => (true, s.ue i c false)
  | .poison => (true, s)

/-- A demand read of `n` bytes at usable address `a` for context `c`: whether any sector is poisoned, the bytes, the unit. -/
def Dev.memRd (s : Dev) (c a n : Nat) : Bool × List Byte × Dev :=
  let (bad, s') := (sectors a n).foldl (fun (x : Bool × Dev) i =>
    let (b, s) := x.2.secRd i c
    (x.1 || b, s)) (false, s)
  (bad, s.bytes a n, s')

/-- The bytes that a write of `n` bytes from `a` has in sector `i` cover all 32 of it. -/
def wholeSector (a n i : Nat) : Bool := decide (a ≤ i * 32) && decide (i * 32 + 32 ≤ a + n)

/-- What a write does to sector `i`'s code word: whole, a fresh one; in part, a read-modify-write that keeps poison and
poisons an uncorrectable sector; a poisoned TLP writes the poison code (R64, R105, R144, R457). -/
def Dev.secWr (s : Dev) (i c : Nat) (whole poisoned : Bool) : Dev :=
  let k := chanOf (i * 32)
  let s := s.perf (memcPage k) (if whole then 1 else 2) 1
  let (inj, s) := s.takeInj i
  if poisoned then s.setMark i .poison
  else if whole then s.setMark i (injMark inj)
  else match s.mark i with
    | .ok => s.setMark i (injMark inj)
    | .ce => (s.ce k).setMark i (injMark inj)
    | .ue => s.ue i c false
    | .poison => s

/-- A write of bytes at usable address `a` for context `c`. -/
def Dev.memWr (s : Dev) (c a : Nat) (bs : List Byte) (poisoned : Bool) : Dev :=
  let s := (sectors a bs.length).foldl (fun s i => s.secWr i c (wholeSector a bs.length i) poisoned) s
  s.putBytes a bs

/-! ### The scrubber (R146-R150) -/

/-- Sectors of data in a span (R140). -/
def spanSectors : Nat := 120

/-- Retire a hard-error page: FREE or NONE at once, ALLOCATED pending (R146). -/
def Dev.hardCe (s : Dev) (a : Nat) : Dev :=
  let page := a / 4096
  match s.ownerOf a with
  | none => s.tableAdd page
  | some (p, i) => match (s.buf p i).st with
    | .free => (s.tableAdd page).retirePage page
    | .alloc =>
      if page ∈ s.ras.pending ∨ 64 ≤ s.ras.pending.length then s
      else ({ s with ras := { s.ras with pending := s.ras.pending ++ [page] } } : Dev).rasCounts
    | .retired => s

/-- A pending hard-error page that is found FREE is retired (R146). -/
def Dev.pendingCe (s : Dev) (a : Nat) : Dev :=
  let page := a / 4096
  if page ∈ s.ras.pending then
    match s.ownerOf a with
    | some (p, i) =>
      if (s.buf p i).st = .alloc then s
      else
        let s : Dev := { s with ras := { s.ras with pending := s.ras.pending.filter (· != page) } }
        (s.rasCounts.tableAdd page).retirePage page
    | none =>
      let s : Dev := { s with ras := { s.ras with pending := s.ras.pending.filter (· != page) } }
      s.rasCounts.tableAdd page
  else s

/-- Physical spans of a channel: its capacity divided by 4 KiB (R138, R140). -/
def Dev.chanSpans (s : Dev) : Nat := s.usable / 8 / 3840

/-- Advance the scrubber to the next sector in physical order: sectors of a span, spans of a channel, channels; after the
last, the next pass starts (R147). -/
def Dev.scrubNext (s : Dev) : Dev :=
  let ch := s.rf R.rasScrubPos 0 3
  let span := s.rf R.rasScrubPos 3 29
  if s.ras.pos + 1 < spanSectors then { s with ras := { s.ras with pos := s.ras.pos + 1 } }
  else
    let s : Dev := { s with ras := { s.ras with pos := 0 } }
    if span + 1 < s.chanSpans then s.setRf R.rasScrubPos 3 29 (span + 1)
    else
      let s := s.setRf R.rasScrubPos 3 29 0
      if ch < 7 then s.setRf R.rasScrubPos 0 3 (ch + 1)
      else
        let s := (s.setRf R.rasScrubPos 0 3 0).wrapInc R.rasScrubPasses 1
        { s with ras := { s.ras with lastCe := s.ras.thisCe, thisCe := [], passStart := s.ns } }

/-- SCRUB_BEHIND (R147): the pass is behind a schedule that spreads it evenly over RAS_SCRUB_PERIOD hours. -/
def Dev.scrubBehind (s : Dev) : Dev :=
  let total := 8 * s.chanSpans * spanSectors
  let done := (s.rf R.rasScrubPos 0 3 * s.chanSpans + s.rf R.rasScrubPos 3 29) * spanSectors + s.ras.pos
  let period := s.rf R.rasScrubPeriod 0 8 * 3600 * 1000000000
  s.setRb R.rasStat 0 (decide ((done + 1) * period < (s.ns - s.ras.passStart) * total))

/-- One scrub read: read, correction and write-back of the sector at the scrubber's position as one serialised access. -/
def Dev.scrub (s : Dev) : Dev :=
  let a := usableOf (s.rf R.rasScrubPos 0 3) (s.rf R.rasScrubPos 3 29) (s.ras.pos * 32)
  let i := a / 32
  let k := chanOf a
  let s := (s.perf (memcPage k) 5 1).scrubBehind
  let s := match s.mark i with
    | .ok => s.pendingCe a
    | .ce =>
      let s := (s.setMark i .ok).ce k
      let again := i ∈ s.ras.lastCe
      let s : Dev := { s with ras := { s.ras with thisCe := s.ras.thisCe ++ [i] } }
      if again && s.rb R.rasCtl 1 then s.hardCe a else s
    | .ue => s.ue i 0 true
    | .poison => s.rasLookup a true
  if s.rb R.rasStat 2 then s else s.scrubNext

/-- The scrubber may run: enabled, DRAM trained, the unit in D0-Full or D0-Quiet, no lookup pause (R147, R150, R153). -/
def Dev.scrubRuns (s : Dev) : Bool :=
  s.rb R.rasCtl 0 && decide (0 < s.usable) && decide (s.rf R.pwrStat 0 3 ≤ 1) && !s.rb R.rasStat 2

/-- SCRUB_READ (R147): the scrubber takes one sector; while it may not run, nothing happens. -/
def execScrubRead (s : State) : Host.Outcome State Fault Refusal :=
  .next { s with toDev := if s.toDev.scrubRuns then s.toDev.scrub else s.toDev }

/-- RAS_RETIRE_PAGE (R151): management firmware writes the table entry that RAS_RETIRE_IDX selects; a write by anyone else
is ignored. -/
def Dev.rasRetireWrite (s : Dev) (src : Src) (v : Word) : Dev :=
  if src = .mgmt then
    let k := s.rf R.rasRetireIdx 0 10
    let e := if v.bit 31 then v.fld 0 25 + 1 else 0
    let s := s.setTable (Tab.set (fun _ => 0) s.ras.table k e)
    s.setReg R.rasRetireCnt (Word.ofNat s.ras.table.length)
  else s

def execRasRetirePage (src : Src) (v : Word) (s : State) : Host.Outcome State Fault Refusal :=
  .next { s with toDev := (s.toDev.busPosted src).rasRetireWrite src v }

/-- RAS_INJ_CTL (R457): the write arms the injection of KIND for the sector that RAS_INJ_ADDR names; KIND 0 disarms. -/
def Dev.rasInjWrite (s : Dev) (v : Word) : Dev := s.setRf R.rasInjCtl 0 2 (v.fld 0 2)

def execRasInjCtl (v : Word) (s : State) : Host.Outcome State Fault Refusal :=
  .next { s with toDev := s.toDev.rasInjWrite v }

end Sys2Proof.Machine
end

