-- ==== Sys2Proof/Machine/Hif.lean ====
section
/-! DEFINITION. The host endpoint's own operations: device reads with tags (R58-R62), AER (R63, R454), the address spaces a
context names (R54, R55, R96). -/

namespace Sys2Proof.Machine

/-- The tags in use: 768, 256 or 32 of them by the enables of Device Control and Device Control 2 (R59): first tag, count. -/
def Dev.tagSpan (s : Dev) : Nat × Nat :=
  if (s.cfg 0 0x22).bit 12 then (0x100, 768) else if (s.cfg 0 0x1A).bit 8 then (0, 256) else (0, 32)

/-- A tag that no outstanding read and no quarantine holds. -/
def Dev.tagFree (s : Dev) (t : Nat) : Bool := s.hif.reads.all (·.tag != t) && s.hif.quar.all (·.1 != t)

/-- The next free tag in round-robin order from the allocation pointer (R59). -/
def Dev.nextTag (s : Dev) : Option Nat :=
  let (lo, n) := s.tagSpan
  let start := if lo ≤ s.hif.tagPtr ∧ s.hif.tagPtr < lo + n then s.hif.tagPtr - lo else 0
  ((List.range n).map fun i => lo + (start + i) % n).find? s.tagFree

/-- HIF_TAG_STAT follows the tags. -/
def Dev.tagStat (s : Dev) : Dev :=
  ((s.setRf R.hifTagStat 0 10 s.hif.reads.length).setRf R.hifTagStat 10 10 s.hif.quar.length).setRb R.hifTagStat 20
    (s.cfg 0 0x22 |>.bit 12)

/-- Issue a device read with a free tag, or keep it waiting for one (R59). -/
def Dev.readIssue (s : Dev) (r : HRead) : Dev :=
  match s.nextTag with
  | none => { s with hif := { s.hif with tagQ := s.hif.tagQ ++ [r] } }
  | some t =>
    let r := { r with tag := t }
    let s : Dev := { s with hif := { s.hif with reads := s.hif.reads ++ [r], tagPtr := t + 1 } }
    ((s.tlp (.hostRd r.fn t r.addr r.len)).perf 0x6000 2 1).tagStat

/-- A device read of host memory: it waits for Bus Master Enable in order (R461), then for a tag. -/
def Dev.hostRd (s : Dev) (r : HRead) : Dev :=
  if s.hifHeld r.fn then { s with hif := { s.hif with waitQ := s.hif.waitQ ++ [.rd r] } } else s.readIssue r

/-- Requests of function `fn` that waited go out in order, once its Bus Master Enable is 1 and the PF is not in D3hot (R69, R461). -/
def Dev.hifRelease (s : Dev) (fn : Nat) : Dev :=
  if !s.bme fn || s.rf R.hifPmStat 0 2 == 3 then s
  else
    let mine := fun (o : HifOp) => match o with
      | .wr f _ _ => f == fn
      | .msg f _ => f == fn
      | .rd r => r.fn == fn
    let l := s.hif.waitQ.filter mine
    let s : Dev := { s with hif := { s.hif with waitQ := s.hif.waitQ.filter fun o => !mine o } }
    l.foldl (fun (s : Dev) o => match o with
      | .wr f a d => s.tlp (.hostWr f a d)
      | .msg f v => s.msixOut f v
      | .rd r => s.readIssue r) s

/-- A tag became free: the oldest read that waits for one is issued. -/
def Dev.tagWake (s : Dev) : Dev :=
  match s.hif.tagQ with
  | [] => s.tagStat
  | r :: q => if s.nextTag.isSome then ({ s with hif := { s.hif with tagQ := q } } : Dev).readIssue r else s.tagStat

/-- Status bit of an AER uncorrectable error in the Uncorrectable Error Status, Mask and Severity registers. -/
def Aer.bit : Aer → Nat
  | .dataLinkProtocol => 4 | .poisonedTlp => 12 | .completionTimeout => 14 | .completerAbort => 15
  | .unexpectedCompletion => 16 | .receiverOverflow => 17 | .malformedTlp => 18 | .ecrc => 19 | .unsupportedRequest => 20
  | .uncorrectableInternal => 22

/-- Log an error under the advisory rule (R63): while its severity is Non-Fatal it is an Advisory Non-Fatal error, else an
uncorrectable fatal error. -/
def Dev.aerAdvisory (s : Dev) (e : Aer) : Dev :=
  let s := s.setCfg 0 0x41 ((s.cfg 0 0x41).setBit e.bit true)
  if (s.cfg 0 0x43).bit e.bit then s.emit (.aer e true)
  else (s.setCfg 0 0x44 ((s.cfg 0 0x44).setBit 13 true)).emit (.aer e false)

/-- Log an uncorrectable error with the severity software has set. -/
def Dev.aerLog (s : Dev) (e : Aer) : Dev :=
  (s.setCfg 0 0x41 ((s.cfg 0 0x41).setBit e.bit true)).emit (.aer e ((s.cfg 0 0x43).bit e.bit))

/-- The effective completion timeout in µs by the PF's Completion Timeout Value (R60). -/
def cplTimeout (v : Nat) : Nat :=
  match v with
  | 1 => 80 | 2 => 8000 | 5 => 40000 | 6 => 160000 | 9 => 640000 | 10 => 2500000 | 13 => 10000000 | 14 => 50000000
  | _ => 40000

/-- The reads of context `c` are orphaned: what arrives for them is dropped (R89); those not yet issued go. -/
def Dev.dropReads (s : Dev) (c : Nat) : Dev :=
  let mine := fun (r : HRead) => r.for_ == .operand c || (match r.for_ with | .sq d _ => d == c | .masks d _ => d == c | _ => false)
  { s with hif := { s.hif with
    reads := s.hif.reads.map fun r => if mine r then { r with for_ := .dead } else r
    tagQ := s.hif.tagQ.filter fun r => !mine r
    waitQ := s.hif.waitQ.filter fun o => match o with | .rd r => !mine r | _ => true } }

/-- Base of VF `n`'s slice in usable DRAM (R55). -/
def Dev.sliceBase (s : Dev) (n : Nat) : Nat := s.rf (R.hifVfSlice (n - 1)) 0 8 * 2 ^ 30

/-- The usable DRAM address that a context's device address of `len` bytes means: for a VF's context an offset in the VF's
4 GiB slice; `none` outside (R96). -/
def Dev.ctxDram (s : Dev) (c a len : Nat) : Option Nat :=
  let n := s.ctxVf c
  if n = 0 then (if a + len ≤ s.usable then some a else none)
  else if a + len ≤ 4 * 2 ^ 30 ∧ s.sliceBase n + a + len ≤ s.usable then some (s.sliceBase n + a) else none

/-- The unit holds no free context slot for `c`, or gives it the lowest free one (R331). -/
def Dev.giveSlot (s : Dev) (c : Nat) : Option Nat × Dev :=
  match s.slotOf c with
  | some k => (some k, s)
  | none =>
    match (List.range 64).find? fun k => k != 0 && Tab.get (fun _ => 0) s.slots k == 0 with
    | none => (none, s)
    | some k => (some k, { s with slots := Tab.set (fun _ => 0) s.slots k c })

/-! ### LTR (R67) -/

/-- The condition of R67 that holds: 1 work or an armed entry, 2 Fumarole, 0 none. -/
def Dev.ltrCond (s : Dev) : Nat :=
  let st := s.rf R.pwrStat 0 3
  let busy := s.ctxs.any (fun x => x.2.sq ≠ [] || x.2.run ≠ []) || s.rn R.timeArmed ≠ 0
  if st ≤ 1 then (if busy then 1 else 0) else if st = 2 then 2 else 0

/-- The latency that an LTR Max register allows, in ns: value times scale. -/
def ltrMax (v : Nat) : Nat := v % 1024 * 32 ^ (v / 1024 % 8)

/-- Send an LTR message when LTR is enabled and the condition changed (R67). -/
def Dev.ltrUpdate (s : Dev) : Dev :=
  let k := s.ltrCond
  if !s.isMgr || !(s.cfg 0 0x22).bit 10 || k = s.hif.ltr then s
  else
    let ns := if k = 1 then 5000 else if k = 2 then 1000000 else 0
    let m := s.cfg 0 0x6F
    ({ s with hif := { s.hif with ltr := k } } : Dev).tlp
      (.pcie (.ltr (k ≠ 0) (min ns (ltrMax (m.fld 0 16))) (min ns (ltrMax (m.fld 16 16)))))

end Sys2Proof.Machine
end

