-- ==== Sys2Proof/Machine/Drop.lean ====
section
/-! DEFINITION. The engines' and cores' tables, what an engine asks of the pools, and how a context's work is dropped from
every engine and core (R133, R176, R195, R225, R293, R316, R330, R334, R344). -/

namespace Sys2Proof.Machine

/-! ### Access to the tables -/

/-- Stream `k` of this unit. -/
def Dev.strm (s : Dev) (k : Nat) : Option Stream := Tab.get (fun _ => none) s.eng.streams k
/-- Set stream `k`. -/
def Dev.setStrm (s : Dev) (k : Nat) (x : Option Stream) : Dev :=
  { s with eng := { s.eng with streams := Tab.set (fun _ => none) s.eng.streams k x } }
/-- Stream `k`'s ingress ring, at the manager. -/
def Dev.inRing (s : Dev) (k : Nat) : Option Ring := Tab.get (fun _ => none) s.eng.rings k
/-- Set stream `k`'s ring. -/
def Dev.setInRing (s : Dev) (k : Nat) (x : Option Ring) : Dev :=
  { s with eng := { s.eng with rings := Tab.set (fun _ => none) s.eng.rings k x } }
/-- Decode engine `n`. -/
def Dev.vdec (s : Dev) (n : Nat) : Vdec := Tab.get (fun _ => {}) s.eng.vdec n
/-- Set decode engine `n`. -/
def Dev.setVdec (s : Dev) (n : Nat) (x : Vdec) : Dev :=
  { s with eng := { s.eng with vdec := Tab.set (fun _ => {}) s.eng.vdec n x } }
/-- Job queue `q`: 0 JPEG, 1 PPU0, 2 PPU1, 3 DPP, 4 SLV, 5 the SLV's BUNDLEs. -/
def Dev.jq (s : Dev) (q : Nat) : JobQ := Tab.get (fun _ => {}) s.eng.queues q
/-- Set job queue `q`. -/
def Dev.setJq (s : Dev) (q : Nat) (x : JobQ) : Dev :=
  { s with eng := { s.eng with queues := Tab.set (fun _ => {}) s.eng.queues q x } }
/-- Route `r`. -/
def Dev.route (s : Dev) (r : Nat) : Option Route := Tab.get (fun _ => none) s.eng.routes r
/-- Set route `r`. -/
def Dev.setRoute (s : Dev) (r : Nat) (x : Option Route) : Dev :=
  { s with eng := { s.eng with routes := Tab.set (fun _ => none) s.eng.routes r x } }
/-- Model `m`. -/
def Dev.model (s : Dev) (m : Nat) : Option Model := Tab.get (fun _ => none) s.eng.models m
/-- Set model `m`. -/
def Dev.setModel (s : Dev) (m : Nat) (x : Option Model) : Dev :=
  { s with eng := { s.eng with models := Tab.set (fun _ => none) s.eng.models m x } }
/-- Core `k`. -/
def Dev.core (s : Dev) (k : Nat) : Core := Tab.get (fun _ => {}) s.eng.cores k
/-- Set core `k`. -/
def Dev.setCore (s : Dev) (k : Nat) (x : Core) : Dev :=
  { s with eng := { s.eng with cores := Tab.set (fun _ => {}) s.eng.cores k x } }

/-- The requester ID of SCHED's references (DESIGN CHOICE, notes/assumptions/9: R119 gives SCHED none; its firmware is the
management firmware's). -/
def schedRq : Nat := 77

/-- Change clip request `n`. -/
def Dev.setClipReq (s : Dev) (n : Nat) (f : ClipReq → ClipReq) : Dev :=
  let v := s.eng.venc
  { s with eng := { s.eng with venc := { v with reqs := v.reqs.map fun q => if q.n = n then f q else q } } }
/-- Set VENC. -/
def Dev.setVenc (s : Dev) (v : Venc) : Dev := { s with eng := { s.eng with venc := v } }

/-! ### Timetable entries (R356) -/

/-- Entry `e`. -/
def Dev.ent (s : Dev) (e : Nat) : Ent := Tab.get (fun _ => {}) s.tim.ents e
/-- ACTION of an entry. -/
def Ent.action (x : Ent) : Nat := fldN x.w 38 3
/-- Set entry `e`; TIME_ARMED counts the armed ones. -/
def Dev.setEnt (s : Dev) (e : Nat) (x : Ent) : Dev :=
  let ents := Tab.set (fun _ => {}) s.tim.ents e x
  ({ s with tim := { s.tim with ents } } : Dev).setReg R.timeArmed (Word.ofNat (ents.filter fun y => y.2.action != 0).length)
/-- Entry `e` is disarmed: ACTION reads NONE. -/
def Dev.disarm (s : Dev) (e : Nat) : Dev :=
  let x := s.ent e
  s.setEnt e { x with w := x.w - x.action * 2 ^ 38, down := false, retry := none }
/-- Context `c`'s entries are disarmed (R344 step 5). -/
def Dev.dropEnts (s : Dev) (c : Nat) : Dev :=
  (s.tim.ents.filter fun x => x.2.owner == c && x.2.action != 0).foldl (fun (s : Dev) x => s.disarm x.1) s

/-! ### Allocations by engines -/

/-- A fresh tag for an engine's own allocation or transfer. -/
def Dev.newTag (s : Dev) : Nat × Dev :=
  (2 ^ 32 + s.eng.tags, { s with eng := { s.eng with tags := s.eng.tags + 1 } })

/-- Take the answer to a tag, if it has come. -/
def Dev.takeAnswer (s : Dev) (tag : Nat) : Option (Status × Nat) × Dev :=
  match s.bpm.answers.find? (·.1 == tag) with
  | none => (none, s)
  | some a => (some a.2, { s with bpm := { s.bpm with answers := s.bpm.answers.filter (·.1 != tag) } })

/-- An allocation is given up: its waiter goes; a buffer it got is released. -/
def Dev.cancelWant (s : Dev) (rq c : Nat) (w : Want) : Dev :=
  match w with
  | .no => s
  | .failed => s
  | .got h => s.unref rq c h
  | .wait tag =>
    let (a, s) := s.takeAnswer tag
    match a with
    | some (st, h) => if st.nm = .success then s.unref rq c h else s
    | none => { s with bpm := { s.bpm with waiters := s.bpm.waiters.filter (·.who != .eng tag) } }

/-- The 16-byte prefix of a DATA frame. -/
def framePrefix (addr c rq len h : Nat) : List Byte :=
  bytesOf 8 addr ++ bytesOf 4 (c % 256 + rq % 256 * 256 + len % 65536 * 65536) ++ bytesOf 4 h

/-- CHAIN gives up what an ingress entry under way has been given: its allocation, or its bitstream buffer on the owning unit
(R176). -/
def Dev.dropXfer (s : Dev) (r : Ring) : Dev :=
  match r.xfer with
  | .idle => s
  | .alloc _ tag => s.cancelWant 75 r.ctx (.wait tag)
  | .data _ h _ =>
    if r.unit = s.addr then s.unref 75 r.ctx h
    else s.issue { cls := 0, vc := 0, dst := r.unit, sub := 2, arg := 2, payload := framePrefix 0 r.ctx 75 0 h } .regWrite

/-- Release a handle unless it is 0. -/
def Dev.unref0 (s : Dev) (rq c h : Nat) : Dev := if h = 0 then s else s.unref rq c h

/-! ### Streams (R176) -/

/-- The stream ID that events name: of the clip slot, the stream whose span it decodes. -/
def Dev.strmName (s : Dev) (k : Nat) : Nat := ((s.strm k).bind (·.clip)).getD k

/-- Requester of a stream's engine: VDEC's, or CHAIN's for a RETAIN_ONLY stream. -/
def Stream.rq (x : Stream) : Nat := match x.eng with
  | some n => 64 + n
  | none => 75

/-- Requester of a stream's bitstream buffers: VENC's for a clip's span (R319). -/
def Stream.auRq (x : Stream) : Nat := if x.clip.isSome then 68 else x.rq

/-- The key of the clip slot among the streams. -/
def clipKey : Nat := 4096

/-- Release what an access unit holds. -/
def Dev.dropAu (s : Dev) (x : Stream) (a : Au) : Dev :=
  let s := s.unref x.auRq x.ctx a.h
  (s.cancelWant x.rq x.ctx a.pic).cancelWant x.rq x.ctx a.twin

/-- Release what a picture of the decoded picture buffer holds: its twin while it waits for output. -/
def Dev.dropDpb (s : Dev) (x : Stream) (d : DpbPic) : Dev :=
  let s := s.unref x.rq x.ctx d.pic.h
  if d.wait then s.unref0 x.rq x.ctx d.pic.twin else s

/-- Release what a ready picture holds. -/
def Dev.dropPic (s : Dev) (c : Nat) (p : Pic) : Dev := (s.unref schedRq c p.h).unref0 schedRq c p.twin

/-- Bound streams of engine `n` in VDEC_STAT. -/
def Dev.vdecCount (s : Dev) (n : Nat) : Dev :=
  s.setRf (R.vdecStat n) 0 7 ((s.eng.streams.filter fun x => x.1 != clipKey && (x.2.bind (·.eng)) == some n).length)

/-- The spans of clips of stream `k` grow no more: the stream is detached (R319). -/
def Dev.clipsShort (s : Dev) (k : Nat) : Dev :=
  let v := s.eng.venc
  s.setVenc { v with clips := v.clips.map fun q =>
    if q.stream = k ∧ q.acc = true ∧ q.grow = true then { q with grow := false, short := true } else q }

/-- A stream ends: queued access units, retained ones, the decoded picture buffer and the ready queue release their
references; the stream ID is free. -/
def Dev.endStream (s : Dev) (k : Nat) : Dev :=
  match s.strm k with
  | none => s
  | some x =>
    let s := x.queue.foldl (fun s a => s.dropAu x a) s
    let s := x.retain.foldl (fun s a => s.unref x.rq x.ctx a.h) s
    let s := x.dpb.foldl (fun s d => s.dropDpb x d) s
    let s := x.ready.foldl (fun s p => s.dropPic x.ctx p) s
    let s := (s.setStrm k none).clipsShort k
    match x.eng with
    | some n => s.vdecCount n
    | none => s

/-- The picture in decode on engine `n` stops with its writes suppressed. -/
def Dev.stopDecode (s : Dev) (n : Nat) : Dev :=
  let v := s.vdec n
  match v.job with
  | none => s
  | some j =>
    let s := match s.strm j.stream with
      | some x => s.dropAu x j.au
      | none => s
    (s.setVdec n { v with job := none }).setRb (R.vdecStat n) 7 false

/-- Streams of context `c` on this unit end, their ingress stops, and their pictures in decode stop (R176). -/
def Dev.dropStreams (s : Dev) (c : Nat) : Dev :=
  let mine := s.eng.streams.filter fun x => (x.2.map (·.ctx)) == some c
  let s := (List.range 4).foldl (fun s n =>
    match (s.vdec n).job with
    | some j => if mine.any (·.1 == j.stream) then s.stopDecode n else s
    | none => s) s
  let s := mine.foldl (fun s x => s.endStream x.1) s
  let rings := s.eng.rings.filter fun x => (x.2.map (·.ctx)) == some c
  rings.foldl (fun s x =>
    let s := match x.2 with
      | none => s
      | some r => s.dropXfer r
    s.setInRing x.1 none) s

/-! ### Job queues (R195, R293, R316) -/

/-- The requester ID of job queue `q`'s engine; queue 5 holds the SLV's BUNDLEs. -/
def jqRq (q : Nat) : Nat := if q = 5 then 73 else 69 + q

/-- Page of job queue `q`'s engine. -/
def jqPage (q : Nat) : Nat := if q ≤ 2 then 0x50000 + 0x1000 * q else if q = 3 then 0x60000 else 0x68000

/-- The block type code of job queue `q`'s engine. -/
def jqBlk (q : Nat) : Nat := if q = 0 then 0x0F else if q ≤ 2 then 0x10 else if q = 3 then 0x11 else 0x12

/-- Release a job's references. -/
def Dev.dropJob (s : Dev) (q : Nat) (j : Job) : Dev := j.refs.foldl (fun s h => s.unref (jqRq q) j.ctx h) s

/-- JOB_STAT of a queue's page: jobs queued, whether one runs, and its context. -/
def Dev.jqStat (s : Dev) (q : Nat) : Dev :=
  let l := if q ≤ 3 then (s.jq q).jobs else (s.jq 4).jobs ++ (s.jq 5).jobs
  let off := jqPage q + 0x108
  let s := s.setRf off 0 7 l.length
  match l.find? fun j => decide (1 ≤ j.phase) with
  | some j => (s.setRf off 7 1 1).setRf off 8 8 j.ctx
  | none => (s.setRf off 7 1 0).setRf off 8 8 0

/-- What the running JPEG job allocated is given up. -/
def Dev.dropJpeg (s : Dev) (c : Nat) : Dev :=
  let r := s.eng.jpeg
  let s := (s.cancelWant 69 c r.out).cancelWant 69 c r.scratch
  { s with eng := { s.eng with jpeg := {} } }

/-- Context `c`'s jobs leave queue `q`; a running one stops without status, NOTIFY or interrupt. -/
def Dev.dropJobs (s : Dev) (q c : Nat) : Dev :=
  let mine := (s.jq q).jobs.filter (·.ctx == c)
  let s := mine.foldl (fun s j => s.dropJob q j) s
  let s := if q = 0 ∧ mine.any (fun j => decide (1 ≤ j.phase)) = true then s.dropJpeg c else s
  let s : Dev := if q = 5 ∧ mine.any (fun j => decide (1 ≤ j.phase)) = true then { s with eng := { s.eng with bundle := none } } else s
  let x := s.jq q
  (s.setJq q { x with jobs := x.jobs.filter (·.ctx != c), waits := x.waits.filter (·.ctx != c) }).jqStat q

/-! ### Cores (R225, R334) -/

/-- Channels, outbound entries and flights of a route on core `k` go (R225). -/
def Dev.dropRouteOn (s : Dev) (k r : Nat) : Dev :=
  let x := s.core k
  let mine := (x.chans.filter fun e => e.2.route == r).map (·.1)
  let s := mine.foldl (fun s ch => (s.setRb (R.mbxChCfg0 k ch) 31 false).setReg (R.mbxChStat k ch) 0) s
  let bank := (x.progs.find? (·.route == r)).map (·.bank)
  let x := { x with
    progs := x.progs.filter (·.route != r), chans := x.chans.filter fun e => e.2.route != r
    outs := x.outs.filter (·.route != r), cur := if x.cur = some r then none else x.cur
    epi := if x.cur = some r then none else x.epi
    sig := match bank with | some b => x.sig.filter (fun e => e.1 / 16 != b) | none => x.sig }
  let running := (s.core k).cur == some r
  let s := (s.setCore k x).setRf (R.mbxOutUsed k) 0 7 x.outs.length
  let s : Dev := { s with eng := { s.eng with flights := s.eng.flights.filter fun f => !(running && f.core == k) } }
  if running then ((s.setReg (R.seqStat k) 0).setReg (R.seqPc k) 0).setRf (R.mxuStat k) 2 2 0 else s

/-- The AS window of a context on a core: base and size in bytes (R332). -/
def Dev.window (s : Dev) (c : Nat) : Nat × Nat := (s.rf (R.ctxQuota c) 0 8 * 65536, s.rf (R.ctxQuota c) 8 8 * 65536)

/-- After a route of context `c` left core `k`: when it was the context's last there, the window is zeroised (R334). -/
def Dev.zeroWindow (s : Dev) (k c : Nat) : Dev :=
  if (s.core k).progs.any (·.ctx == c) then s
  else let (b, n) := s.window c; s.asZero k b n

/-- Route `r` leaves core `k`. -/
def Dev.leaveCore (s : Dev) (k r c : Nat) : Dev := (s.dropRouteOn k r).zeroWindow k c

/-- A seat's picture reference is released. -/
def Dev.dropSeat (s : Dev) (c : Nat) (e : Seat) : Dev :=
  if e.released then s else (s.unref schedRq c e.pic).unref0 schedRq c e.twin

/-- A route's seats and waiting sequences release their references (R344 step 4). -/
def Dev.dropSeats (s : Dev) (x : Route) : Dev :=
  let s := (x.steps ++ x.held).foldl (fun s st => st.seats.foldl (fun s e => s.dropSeat x.ctx e) s) s
  x.waiting.foldl (fun s w => s.dropPic x.ctx w.pic) s

/-- Every route of context `c` on this unit ends at once (R225, R344 steps 2 and 4). -/
def Dev.dropRoutes (s : Dev) (c : Nat) : Dev :=
  let mine := s.eng.routes.filter fun x => (x.2.map (·.ctx)) == some c
  let s := mine.foldl (fun s x => match x.2 with | some r => s.dropSeats r | none => s) s
  let s := (List.range 16).foldl (fun s k =>
    ((s.core k).progs.filter (·.ctx == c)).foldl (fun s p => s.leaveCore k p.route c) s) s
  let s := mine.foldl (fun s x => s.setRoute x.1 none) s
  { s with eng := { s.eng with notices := s.eng.notices.filter (·.ctx != c) } }

/-! ### Clips (R330) -/

/-- What a clip holds is released: its span, the pictures that wait for the encoder, its object buffer. -/
def Dev.dropClip (s : Dev) (q : Clip) : Dev :=
  let s := q.span.foldl (fun (s : Dev) (a : Au) => s.unref 68 q.ctx a.h) s
  let s := q.pics.foldl (fun (s : Dev) (p : Pic) => s.unref 68 q.ctx p.h) s
  s.cancelWant 68 q.ctx q.buf

/-- VENC_STAT, VENC_CUR_CLIP and VENC_CUR_PIC. -/
def Dev.vencStat (s : Dev) : Dev :=
  let l := s.eng.venc.clips
  match l.find? (·.run) with
  | some q => ((s.setReg R.vencStat (Word.ofNat (1 + min 15 (l.length - 1) * 2 + q.stream % 4096 * 32))).setReg R.vencCurClip
      (Word.ofNat q.id)).setReg R.vencCurPic (Word.ofNat q.index.length)
  | none => ((s.setReg R.vencStat (Word.ofNat (min 15 l.length * 2))).setReg R.vencCurClip 0).setReg R.vencCurPic 0

/-- Context `c`'s clips and clip requests are dropped (R330); the clip slot's decode goes with its streams. -/
def Dev.dropClips (s : Dev) (c : Nat) : Dev :=
  let v := s.eng.venc
  let s := (v.clips.filter (·.ctx == c)).foldl (fun (s : Dev) q => s.dropClip q) s
  (s.setVenc { v with clips := v.clips.filter (·.ctx != c), reqs := v.reqs.filter (·.ctx != c)
                      taken := v.taken.filter (·.ctx != c) }).vencStat

/-- Steps 2 to 5 and 7 of R344 for the engines and cores of this unit. -/
def Dev.dropEngines (s : Dev) (c : Nat) : Dev :=
  let s := s.dropRoutes c
  let s := [0, 1, 2, 3, 4, 5].foldl (fun s q => s.dropJobs q c) s
  ((s.dropClips c).dropEnts c).dropStreams c

end Sys2Proof.Machine
end

