-- ==== Sys2Proof/Machine/Teardown.lean ====
section
/-! DEFINITION. A context's fault and the teardown of its work (R87, R89, R344, R133). -/

namespace Sys2Proof.Machine

/-- Decrement a buffer by `n` references at once, freeing it at 0 (R133). -/
def Dev.decBy (s : Dev) (h n : Nat) : Dev :=
  let p := hPool h
  let i := hIdx h
  let b := s.buf p i
  if !s.hValid h || b.count = 0 then s
  else
    let m := b.count - n
    let s := s.setBuf p i { b with count := m }
    if m = 0 then s.freeBuf p i else s

/-- The BPM releases what context `c`'s slot `k` holds: waiters, ledger entries, charges to ORPHAN (R120, R133). -/
def Dev.bpmRelease (s : Dev) (c k : Nat) : Dev :=
  let gone := s.bpm.waiters.filter (·.ctx == c)
  let s : Dev := { s with bpm := { s.bpm with waiters := s.bpm.waiters.filter (·.ctx != c) } }
  -- a waiter of another unit's port has its frame answered, so that its transaction ends
  let s := gone.foldl (fun (s : Dev) w => match w.who with
    | .eng tag => if 2 ^ 48 ≤ tag then s.answer tag ⟨.poolEmpty, 9⟩ 0 else s
    | .cmd _ _ => s) s
  let mine := s.bpm.ledger.filter (·.slot == k)
  let s : Dev := { s with bpm := { s.bpm with ledger := s.bpm.ledger.filter (·.slot != k) } }
  let s := mine.foldl (fun s e => s.decBy e.h e.n) s
  let l := s.bpm.bufs.map fun x => if x.2.st == .alloc && x.2.rq == k then (x.1, { x.2 with rq := 79 }) else x
  { s with bpm := { s.bpm with bufs := l } }

/-- The teardown of context `c`'s work on this unit (R344 steps 2 to 8): cores, engines, seats, timetable entries, BPM,
windows, slot. -/
def Dev.dropWork (s : Dev) (c : Nat) : Dev :=
  let s := s.dropEngines c
  match s.slotOf c with
  | none => s
  | some k =>
    if c = 0 then s
    else
      let s := s.bpmRelease c k
      { s with slots := Tab.del k s.slots }

/-- Workers in QUARANTINE or JOINED, in address order (R377). -/
def Dev.workers (s : Dev) : List Nat :=
  (List.range 16).filter fun u => u != 0 &&
    (let x := Tab.get (fun _ => {}) s.chain.units u; x.st == .quarantine || x.st == .joined)

/-- Context `c`'s queued and running commands, fetched entries and pending records are dropped (R7, R89). -/
def Ctx.dropped (x : Ctx) : Ctx :=
  { x with sq := [], sqArr := [], run := [], opAsked := false, opData := none, wdata := [], mqWait := [] }

/-- Context `c` faults with a status (R87, R89, R344 step 1): FAULTED, fetching stops, its work is torn down on this unit and
the teardown is sent to the workers. On a worker the fault goes to the manager. A context that is not OPEN does not fault
again. -/
def Dev.ctxFault (s : Dev) (c : Nat) (st : Status) (seq d2 core : Nat) : Dev :=
  if c = 0 then s
  else if !s.isMgr then s.fwSend 0 (.fault c st d2 core)
  else if s.ctxSt c ≠ 1 then s
  else
    let s := (s.setRf (R.ctxStat c) 0 2 2).setRf (R.ctxStat c) 16 16 st.code
    let s := (s.irq (ctxPage c) 16).irq 0x7000 16
    let s := s.recordsDrop c
    let s := s.setCtx c { (s.ctx c).dropped with tear := some { status := some st, seq, d2, core, t0 := s.ns } }
    let s := s.dropReads c
    let s := ((s.dropWork c).perf 0x7000 3 1).ltrUpdate
    s.workers.foldl (fun s u => s.fwSend u (.teardown c)) s

/-- A host command ends with a status: recorded under R85, and a faulting status faults its context (R87). On a worker the end
is sent to the manager, where the fault is taken. -/
def Dev.endCmd (s : Dev) (c seq : Nat) (st : Status) (result d2 : Nat) : Dev :=
  let s := s.finishRun c seq st result
  (if s.isMgr && st.nm.faults then s.ctxFault c st seq d2 0xFFFF else s).ltrUpdate

end Sys2Proof.Machine
end

