-- ==== Sys2Proof/Machine/Ctx.lean ====
section
/-! DEFINITION. Contexts: opening, resetting, doorbells, the fetch of submission entries, the order and sequence rules of host
commands, completions, metadata records and moderation (R76-R95, R99, R100). -/

namespace Sys2Proof.Machine

/-! ### Fetching (R84, R93) -/

/-- SCHED is down (R12): in soft reset, or the control island is off or frozen. -/
def Dev.schedDown (s : Dev) : Bool := s.rb (0x7000 + R.ctl) 1 || s.rb (0x7000 + R.stat) 0 || s.rf (R.pwrIslCtl 23) 4 2 != 1

/-- Address of the SQ entry of count `k`: for SQ_DEV a usable DRAM address, for a VF's context in its slice. -/
def Dev.sqAddr (s : Dev) (c k : Nat) : Nat := s.ringBase c 0 + k % s.ringLen c 0 * 64

/-- The words of 64 bytes. -/
def wordsOf : List Byte → List Word
  | a :: b :: c :: d :: r => Word.ofNat (natOf [a, b, c, d]) :: wordsOf r
  | _ => []

/-- A fetched SQ entry joins the context's queue; the SQ fetch count advances. -/
def Dev.sqGot (s : Dev) (c : Nat) (ws : List Word) : Dev :=
  let x := s.ctx c
  (s.setCtx c { x with sq := x.sq ++ [ws] }).wrapInc (R.ctxRingCnt c 0) 1

/-- Entries that arrived ahead of an earlier one join in count order. -/
def Dev.sqDrain (s : Dev) (c fuel : Nat) : Dev :=
  match fuel with
  | 0 => s
  | fuel + 1 =>
    let x := s.ctx c
    match x.sqArr.find? (·.1 == s.rn (R.ctxRingCnt c 0)) with
    | none => s
    | some e => ((s.setCtx c { x with sqArr := x.sqArr.filter (·.1 != e.1) }).sqGot c e.2).sqDrain c fuel

/-- Fetch what the doorbell has announced, while the context is OPEN, its CQ not full and SCHED up: from manager DRAM at once,
from host memory by device reads (R93, R102). -/
def Dev.fetchSq (s : Dev) (c fuel : Nat) : Dev :=
  match fuel with
  | 0 => s
  | fuel + 1 =>
    let x := s.ctx c
    if s.ctxSt c ≠ 1 ∨ x.sqIssued = x.sqTail ∨ s.ringFull c 1 = true ∨ s.schedDown = true ∨ s.inD3 = true then s
    else
      let k := x.sqIssued
      let s := s.setCtx c { x with sqIssued := (k + 1) % 2 ^ 32 }
      if s.rb (R.ctxCtl c) 3 then
        match s.ctxDram c (s.sqAddr c k) 64 with
        | none => s.ctxFault c ⟨.ctxFaultAddr, 8⟩ 0 (s.sqAddr c k) 0xFFFF
        | some a =>
          let (bad, bs, s) := s.memRd c a 64
          if bad then s.ctxFault c ⟨.dataPoisoned, 8⟩ 0 a 0xFFFF
          else (s.sqGot c (wordsOf bs)).fetchSq c fuel
      else
        (s.hostRd { tag := 0, fn := (s.ctxVec c).1, for_ := .sq c k, addr := s.sqAddr c k, len := 64 }).fetchSq c fuel

/-! ### The front of the queue (R84-R86) -/

/-- A fetched HCMD's fields (R96). -/
def hOp (w : List Word) : Nat := (w.headD 0).fld 0 8
/-- FENCE. -/
def hFence (w : List Word) : Bool := (w.headD 0).bit 8
/-- NO_CPL. -/
def hNoCpl (w : List Word) : Bool := (w.headD 0).bit 9
/-- IRQ. -/
def hIrq (w : List Word) : Bool := (w.headD 0).bit 10
/-- CID. -/
def hCid (w : List Word) : Nat := (w.headD 0).fld 16 16
/-- SEQ. -/
def hSeq (w : List Word) : Nat := ((w.drop 1).headD 0).toNat
/-- The operand word at byte offset `o`. -/
def hW (w : List Word) (o : Nat) : Word := (w.drop (o / 4)).headD 0
/-- A field of the operand word at byte offset `o`. -/
def hF (w : List Word) (o lo len : Nat) : Nat := (hW w o).fld lo len
/-- The address operand at byte offset `o` (R96). -/
def hAddrAt (w : List Word) (o : Nat) : HAddr :=
  let v := (hW w o).toNat + (hW w (o + 4)).toNat * 2 ^ 32
  { dram := v.testBit 63, addr := v % 2 ^ 63 }

/-- The opcodes of the HCMD table (R96). -/
def hcmdOps : List Nat := [0, 1, 2, 3, 4, 0x10, 0x11, 0x20, 0x30, 0x40, 0x41, 0x50, 0x51, 0x52, 0x53]

/-- *d* of R85: how far a sequence number lies from the highest accepted one. -/
def Dev.seqDist (s : Dev) (c seq : Nat) : Int := toSigned 32 (seq + 2 ^ 32 - s.rn (R.ctxSeqHigh c))

/-- A completion for a command that is not executed joins the finished ones. -/
def Dev.finAdd (s : Dev) (c : Nat) (x : Cpl) : Dev := s.setCtx c { s.ctx c with fin := (s.ctx c).fin ++ [x] }

/-- The host-memory operand record that the command at the front needs before it can start: address and length (R96). -/
def hostOperand (w : List Word) : Option (Nat × Nat) :=
  let rd := fun (a : HAddr) n => if a.dram then none else some (a.addr, n)
  match hOp w with
  | 0x01 => rd (hAddrAt w 8) (hW w 0x10).toNat
  | 0x20 => rd (hAddrAt w 8) 256
  | 0x30 => rd (hAddrAt w 8) 128
  | 0x53 => let a := hAddrAt w 0x28
            if !a.dram && a.addr = 0 then none else rd a 768
  | _ => none

/-- The front of a context's queue is settled: entries that are not executed complete at once as DUPLICATE or
DUPLICATE_STALE, a skipped sequence number faults the context, an illegal opcode fails with CTX_FAULT_CMD, and the operand
record of a command that is to start is asked of host memory (R85, R86, R6, R102). -/
def Dev.settle (s : Dev) (c fuel : Nat) : Dev :=
  match fuel with
  | 0 => s
  | fuel + 1 =>
    let x := s.ctx c
    match x.sq with
    | [] => s
    | w :: r =>
      if s.ctxSt c ≠ 1 ∨ s.schedDown = true then s
      else
        let seq := hSeq w
        let d := s.seqDist c seq
        let pop := s.setCtx c { x with sq := r }
        if d = 1 then
          if hOp w ∈ hcmdOps then
            match hostOperand w with
            | some (a, n) =>
              if x.opAsked then s
              else (s.setCtx c { x with opAsked := true, opData := none }).hostRd
                { tag := 0, fn := (s.ctxVec c).1, for_ := .operand c, addr := a, len := n }
            | none => s
          else if hFence w && x.run ≠ [] then s
          else
            let s := (pop.setReg (R.ctxSeqHigh c) (Word.ofNat seq)).setReg (R.ctxWinSeq c (seq % 64)) (Word.ofNat seq)
            let s := s.setCtx c { s.ctx c with run := (s.ctx c).run ++
              [{ seq, op := hOp w, cid := hCid w, noCpl := hNoCpl w, irq := hIrq w }] }
            s.endCmd c seq ⟨.ctxFaultCmd, 8⟩ 0 (hOp w)
        else if 2 ≤ d then pop.ctxFault c ⟨.ctxFaultCmd, 8⟩ seq (hOp w) 0xFFFF
        else if -63 ≤ d ∧ x.run.any (·.seq == seq) then
          let run := x.run.map fun e => if e.seq == seq then { e with dups := e.dups ++ [(hCid w, hIrq w)] } else e
          (s.setCtx c { x with sq := r, run }).settle c fuel
        else
          let i := seq % 64
          let hit := decide (-63 ≤ d) && s.rn (R.ctxWinSeq c i) == seq && s.rb (R.ctxWinStatus c i) 31
          let e : Cpl :=
            if hit then { seq, cid := hCid w, irq := hIrq w, result := s.rn (R.ctxWinResult c i)
                          status := Nm.duplicate.base + 8 * 64, orig := s.rf (R.ctxWinStatus c i) 0 16 }
            else { seq, cid := hCid w, irq := hIrq w, result := 0
                   status := Nm.duplicateStale.base + 8 * 64, orig := 0 }
          (pop.finAdd c e).settle c fuel

/-- Fetch and settle after anything that may let a context's queue move. -/
def Dev.kick (s : Dev) (c : Nat) : Dev :=
  let s := s.fetchSq c (((s.ctx c).sqTail + 2 ^ 32 - (s.ctx c).sqIssued) % 2 ^ 32 % 65536)
  (s.settle c ((s.ctx c).sq.length + 1)).ltrUpdate

/-- Start the command at the front of context `c`'s queue if its opcode is `op` and it may start: OPEN, its sequence number
the next, its FENCE met, its host operand record there (R84, R85). Its words, and the unit with the command running. -/
def Dev.startCmd (s : Dev) (c op : Nat) : Option (List Word × Dev) :=
  let x := s.ctx c
  match x.sq with
  | [] => none
  | w :: r =>
    let seq := hSeq w
    let okSeq := !s.isMgr || decide (s.seqDist c seq = 1)
    let okOp := !s.isMgr || (hostOperand w).isNone || x.opData.isSome
    if (s.ctxSt c = 1 ∨ s.isMgr = false) ∧ s.schedDown = false ∧ hOp w = op ∧ okSeq = true
        ∧ (hFence w = false ∨ x.run = []) ∧ okOp = true then
      let s :=
        if s.isMgr then
          ((s.setReg (R.ctxSeqHigh c) (Word.ofNat seq)).setReg (R.ctxWinSeq c (seq % 64)) (Word.ofNat seq)).setReg
            (R.ctxWinStatus c (seq % 64)) 0
        else s
      let opData := if s.isMgr then x.opData else some (((x.wdata.find? (·.1 == seq)).map (·.2)).getD [])
      some (w, s.setCtx c { x with sq := r, opAsked := false, opData, wdata := x.wdata.filter (·.1 != seq), run := x.run ++
        [{ seq, op, cid := hCid w, noCpl := hNoCpl w, irq := hIrq w, words := w }] })
    else none

/-- The effect of a host command that acts on this unit: run `f` on its words when it starts, then let the queue move. A
command that cannot start changes nothing. -/
def Dev.hostCmd (s : Dev) (c op : Nat) (f : List Word → Dev → Dev) : Dev :=
  match s.startCmd c op with
  | none => s
  | some (w, s) =>
    let s := f w s
    if s.isMgr then s.kick c else s

/-- A unit is in the chain: this one, or JOINED in the manager's view (R377). -/
def Dev.unitIn (s : Dev) (u : Nat) : Bool :=
  u == s.addr || (s.isMgr && (Tab.get (fun _ => ({} : UnitInfo)) s.chain.units u).st == .joined)

/-- The effect of a command that names unit `u`: an absent or lost unit fails it with UNIT_LOST (R381); another unit's SCHED
gets it and answers; this unit runs `f`. -/
def Dev.onUnit (s : Dev) (c u : Nat) (w : List Word) (f : Dev → Dev) : Dev :=
  if u = s.addr then f s
  else if !s.unitIn u then s.endCmd c (hSeq w) ⟨.unitLost, 8⟩ 0 u
  else
    let x := s.ctx c
    let run := x.run.map fun e => if e.seq == hSeq w then { e with await := [u] } else e
    let s := s.setCtx c { x with run }
    s.fwSend u (.cmd c (s.rn (R.ctxPrio c)) (s.rn (R.ctxQuota c)) (s.rn (R.ctxCoreset c u)) (hSeq w) w
      (x.opData.getD []))

/-! ### NOP and completions -/

/-- NOP (R96): completes with RESULT 0. -/
def execHostNop (c : Nat) (s : State) : Host.Outcome State Fault Refusal :=
  .next { s with toDev := s.toDev.hostCmd c 0 fun w d => d.endCmd c (hSeq w) .ok 0 0 }

/-- COMMAND_COMPLETE (R88, R93): the oldest finished command's completion record is written when the CQ can take it, and the
fetch goes on. -/
def execCommandComplete (c : Nat) (s : State) : Host.Outcome State Fault Refusal :=
  .next { s with toDev := (s.toDev.cplWrite c).kick c }

/-- MODERATION_TIMEOUT (R95): TIME_US passed since the first unannounced record of ring `r`; with COUNT and TIME_US not 0 the
ring becomes due. -/
def Dev.modTimeout (s : Dev) (c r : Nat) : Dev :=
  if (r = 1 ∨ r = 2 ∨ r = 3) ∧ s.modCount c r ≠ 0 ∧ s.rf (R.ctxMod c r) 8 16 ≠ 0 ∧ (s.ctx c).un r ≠ 0 then s.ctxMsg c else s

def execModerationTimeout (c ring : Nat) (s : State) : Host.Outcome State Fault Refusal :=
  .next { s with toDev := s.toDev.modTimeout c ring }

/-! ### Doorbells (R82, R83, R12, R52) -/

/-- Who may reach context `c`'s doorbell page: the VF that owns it, else the PF (R52); management firmware any. -/
def Dev.dbMay (s : Dev) (src : Src) (c : Nat) : Bool :=
  match src with
  | .host n => c != 0 && n == s.ctxVf c
  | .mgmt => true
  | .time => true
  | .sched => true

/-- The count doorbell `i` holds: 0 SQ producer, 1 to 3 the consumer counts. -/
def Ctx.db (x : Ctx) (i : Nat) : Nat := if i = 0 then x.sqTail else x.head i

/-- Set the count doorbell `i` holds. -/
def Ctx.setDb (x : Ctx) (i v : Nat) : Ctx :=
  if i = 0 then { x with sqTail := v } else if i = 1 then { x with cqHead := v } else if i = 2 then { x with eqHead := v }
  else { x with mqHead := v }

/-- A doorbell value acts on an OPEN context: accepted or ignored and counted (R83). -/
def Dev.dbAct (s : Dev) (c i v : Nat) : Dev :=
  let x := s.ctx c
  let cur := x.db i
  if v = cur then s
  else if i = 0 then
    if (v + 2 ^ 32 - s.rn (R.ctxRingCnt c 0)) % 2 ^ 32 ≤ s.ringLen c 0 then (s.setCtx c (x.setDb 0 v)).kick c
    else s.satInc (R.ctxDbErr c) 1
  else if (v + 2 ^ 32 - cur) % 2 ^ 32 ≤ (s.rn (R.ctxRingCnt c i) + 2 ^ 32 - cur) % 2 ^ 32 then
    let s := s.setCtx c (x.setDb i v)
    if i = 1 then s.kick c else s
  else s.satInc (R.ctxDbErr c) 1

/-- A doorbell value by the context's state: acted on in OPEN, latched in FAULTED, dropped in CLOSED and RESETTING (R77); while
SCHED is in reset the HIF latches the last value (R12). -/
def Dev.dbValue (s : Dev) (c i v : Nat) : Dev :=
  if s.schedDown then
    let l := s.hif.dbLatch.filter fun e => !(e.1 == c && e.2.1 == i)
    { s with hif := { s.hif with dbLatch := l ++ [(c, i, v)] } }
  else if s.ctxSt c = 1 then s.dbAct c i v
  else if s.ctxSt c = 2 then
    s.setCtx c { s.ctx c with latched := ((s.ctx c).latched.filter (·.1 != i)) ++ [(i, v)] }
  else s

/-- A write of a doorbell register (R36, R52, R82). BAR 4 writes are refused in D3hot and during the function's FLR. -/
def Dev.doorbell (s : Dev) (src : Src) (c i : Nat) (v : Word) (be : Nat) : Dev :=
  if !s.isMgr || s.inD3 || !s.dbMay src c || (s.ctx c).flr then s
  else if be ≠ 15 then s.accErr 0 .partialWrite (c * 0x1000 + 4 * i)
  else s.dbValue c i v.toNat

/-- DB_SQ_TAIL (R83). -/
def execDbSqTail (src : Src) (c : Nat) (v : Word) (be : Nat) (s : State) : Host.Outcome State Fault Refusal :=
  .next { s with toDev := (s.toDev.busPosted src).doorbell src c 0 v be }
/-- DB_CQ_HEAD (R83). -/
def execDbCqHead (src : Src) (c : Nat) (v : Word) (be : Nat) (s : State) : Host.Outcome State Fault Refusal :=
  .next { s with toDev := (s.toDev.busPosted src).doorbell src c 1 v be }
/-- DB_EQ_HEAD (R83). -/
def execDbEqHead (src : Src) (c : Nat) (v : Word) (be : Nat) (s : State) : Host.Outcome State Fault Refusal :=
  .next { s with toDev := (s.toDev.busPosted src).doorbell src c 2 v be }
/-- DB_MQ_HEAD (R83). -/
def execDbMqHead (src : Src) (c : Nat) (v : Word) (be : Nat) (s : State) : Host.Outcome State Fault Refusal :=
  .next { s with toDev := (s.toDev.busPosted src).doorbell src c 3 v be }

/-- SCHED_RESET_END (R12): SCHED leaves reset and acts on the latched doorbell values. -/
def Dev.schedResetEnd (s : Dev) : Dev :=
  let l := s.hif.dbLatch
  let s := (s.setRb (0x7000 + R.ctl) 1 false).setRb (0x7000 + R.stat) 0 false
  let s : Dev := { s with hif := { s.hif with dbLatch := [] } }
  let s := l.foldl (fun (s : Dev) e => s.dbValue e.1 e.2.1 e.2.2) s
  s.ctxs.foldl (fun (s : Dev) x => s.kick x.1) s

def execSchedResetEnd (s : State) : Host.Outcome State Fault Refusal := .next { s with toDev := s.toDev.schedResetEnd }

/-- STAGED_EVENT_WRITE (R12). -/
def execStagedEventWrite (plane : Nat) (s : State) : Host.Outcome State Fault Refusal :=
  .next { s with toDev := s.toDev.stagedWrite plane }

/-! ### CTX_CTL (R76-R78, R90, R91) -/

/-- Who may write context `c`'s page 0: the PF and management firmware any, a VF its own contexts, `c` not 0 for OPEN (R52,
R76). -/
def Dev.pageMay (s : Dev) (src : Src) (c : Nat) : Bool :=
  match src with
  | .host 0 => true
  | .host n => c != 0 && n == s.ctxVf c && !(s.ctx c).flr
  | _ => true

/-- The smaller of 4 KiB and a ring's size in bytes: what its base must be aligned to (R78). -/
def Dev.ringAlign (s : Dev) (c r : Nat) : Nat :=
  min 4096 (s.ringLen c r * (if r = 0 then 64 else if r = 1 then 16 else if r = 2 then 32 else 64))

/-- The configuration that R78 refuses. -/
def Dev.openBad (s : Dev) (c : Nat) (sqDev : Bool) : Bool :=
  (List.range 4).any (fun r => decide (s.rf (R.ctxRingSize c r) 0 4 < 4) || decide (s.ringBase c r % s.ringAlign c r ≠ 0))
    || (sqDev && (s.ctxDram c (s.ringBase c 0) (s.ringLen c 0 * 64)).isNone)

/-- Empty the sequence window on page 3. -/
def Dev.emptyWindow (s : Dev) (c : Nat) : Dev :=
  { s with regs := s.regs.filter fun x => !(decide (ctxPage c + 0x3100 ≤ x.1) && decide (x.1 < ctxPage c + 0x3500)) }

/-- A write of CTX_CTL (R76-R78, R90, R91): RESET alone when it is set; DEV_EVENTS by R91; OPEN of a CLOSED context with the
SQ_DEV of the same write. -/
def Dev.ctxCtlWrite (s : Dev) (src : Src) (c : Nat) (v : Word) : Dev :=
  if !s.pageMay src c then s
  else if v.bit 1 then
    -- a context reset: the teardown of a fault without its event
    if s.ctxSt c = 3 ∨ c = 0 then s
    else
      let s := s.setRf (R.ctxStat c) 0 2 3
      let s := (s.setRb (R.ctxCtl c) 1 true).setRb (R.ctxCtl c) 0 false
      let s := s.recordsDrop c
      let s := s.setCtx c { (s.ctx c).dropped with tear := some { status := none, seq := 0, d2 := 0, core := 0xFFFF, t0 := s.ns } }
      let s := s.dropReads c
      let s := (s.dropWork c).perf 0x7000 3 1
      s.workers.foldl (fun s u => s.fwSend u (.teardown c)) s
  else
    let held := (List.range 256).any fun o => o != c && s.rb (R.ctxCtl o) 2
    let s := if v.bit 2 then
        (if held || c == 0 || s.ctxVf c != 0 then s else s.setRb (R.ctxCtl c) 2 true)
      else s.setRb (R.ctxCtl c) 2 false
    if s.ctxSt c ≠ 0 then s
    else
      let s := s.setRb (R.ctxCtl c) 3 (v.bit 3)
      if !v.bit 0 || c == 0 then s
      else if s.openBad c (v.bit 3) then s.setRb (R.ctxStat c) 2 true
      else
        let s := (s.setRb (R.ctxStat c) 2 false).setRf (R.ctxStat c) 0 2 1
        let s := s.setRb (R.ctxCtl c) 0 true
        let s := (s.setReg (R.ctxSeqHigh c) (s.reg (R.ctxSeqInit c) - 1)).emptyWindow c
        let s := [0, 1, 2, 3].foldl (fun s r => s.setReg (R.ctxRingCnt c r) 0) s
        s.setCtx c { hbSeq := (s.ctx c).hbSeq }

/-- CTX_OPEN (R78). -/
def execCtxOpen (src : Src) (c : Nat) (v : Word) (s : State) : Host.Outcome State Fault Refusal :=
  .next { s with toDev := (s.toDev.busPosted src).ctxCtlWrite src c (v.setBit 0 true |>.setBit 1 false) }

/-- CTX_RESET (R90). -/
def execCtxReset (src : Src) (c : Nat) (v : Word) (s : State) : Host.Outcome State Fault Refusal :=
  .next { s with toDev := (s.toDev.busPosted src).ctxCtlWrite src c (v.setBit 1 true) }

/-- DEV_EVENTS (R91); the DRAM failure of the boot is reported once a context takes the device events (R422). -/
def Dev.devEventsWrite (s : Dev) (src : Src) (c : Nat) (v : Word) : Dev :=
  let s := s.ctxCtlWrite src c (v.setBit 1 false)
  if s.boot.dramFail && s.devHolder.isSome then
    let e : Event :=
      { nm := .dramFail, blk := 0xA, d0 := ((List.range 8).map fun k => bN (s.rb (R.memcTrainStat k) 1) * 2 ^ k).sum }
    ({ s with boot := { s.boot with dramFail := false } } : Dev).raise e
  else s

def execDevEvents (src : Src) (c : Nat) (v : Word) (s : State) : Host.Outcome State Fault Refusal :=
  .next { s with toDev := (s.toDev.busPosted src).devEventsWrite src c v }

/-- What a context reset clears: counts, doorbells, window, CTX_STAT, CTX_DB_ERR, CTX_FULL_CNT; CLOSED (R90). -/
def Dev.ctxClear (s : Dev) (c : Nat) : Dev :=
  let s := [0, 1, 2, 3].foldl (fun s r => s.setReg (R.ctxRingCnt c r) 0) s
  let s := (s.setReg (R.ctxStat c) 0).emptyWindow c
  let s := ((s.setReg (R.ctxSeqHigh c) 0).setReg (R.ctxDbErr c) 0).setReg (R.ctxFullCnt c) 0
  let s := (s.setRb (R.ctxCtl c) 1 false).setRb (R.ctxCtl c) 0 false
  let staged := s.staged.filter (·.ring != c)
  { (s.setCtx c { flr := (s.ctx c).flr }) with staged }

/-- SCHED_TEARDOWN_MAX: the longest teardown in µs. -/
def Dev.tornDown (s : Dev) (t : Tear) : Dev := s.maxReg R.schedTeardownMax ((s.ns - t.t0 + 999) / 1000)

/-- The teardown of a resetting context has ended. -/
def Dev.ctxResetDone (s : Dev) (c : Nat) : Dev :=
  if s.ctxSt c ≠ 3 then s
  else ((match (s.ctx c).tear with
    | some t => s.tornDown t
    | none => s).ctxClear c)

/-- CTX_RESET_DONE (R90). -/
def execCtxResetDone (c : Nat) (s : State) : Host.Outcome State Fault Refusal :=
  .next { s with toDev := s.toDev.ctxResetDone c }

/-- TEARDOWN_DONE (R89, R344): the teardown of a faulted context has ended on every unit; the fault event goes to its EQ and to
the device event ring. -/
def Dev.teardownDone (s : Dev) (c : Nat) : Dev :=
  let x := s.ctx c
  match x.tear with
  | some t => match t.status with
    | some st =>
      ((s.setCtx c { x with tear := none }).tornDown t).raise
        { nm := st.nm, blk := st.blk, ctx := some c, d0 := t.seq, d1 := s.rn (R.ctxRingCnt c 0), d2 := t.d2, d3 := t.core }
    | none => s
  | none => s

def execTeardownDone (c : Nat) (s : State) : Host.Outcome State Fault Refusal :=
  .next { s with toDev := s.toDev.teardownDone c }

end Sys2Proof.Machine
end

