-- ==== Sys2Proof/Machine/BpmCmd.lean ====
section
/-! DEFINITION. The host commands and register writes of the buffer pool manager, the page attributes of a context, and the
acceptance of metadata records (R96, R100, R112, R121-R135, R460, R463). -/

namespace Sys2Proof.Machine

/-! ### BUF_ALLOC, BUF_REF, BUF_UNREF -/

/-- The slot of a context that an operation on this unit needs, or the command's end with POOL_QUOTA (R331). -/
def Dev.withSlot (s : Dev) (c seq : Nat) (f : Nat → Dev → Dev) : Dev :=
  match s.giveSlot c with
  | (none, s) => s.endCmd c seq ⟨.poolQuota, 8⟩ 0 0
  | (some k, s) => f k s

/-- BUF_ALLOC on its unit (R125, R128, R132): BLOCK = 1 with TIMEOUT_US = 0 is illegal. -/
def Dev.bufAlloc (s : Dev) (c : Nat) (w : List Word) : Dev :=
  let seq := hSeq w
  let block := (hW w 8).bit 8
  if block && hF w 8 16 16 = 0 then s.endCmd c seq ⟨.ctxFaultCmd, 8⟩ 0 (hOp w)
  else s.withSlot c seq fun k s =>
    match s.allocate (hF w 8 4 4) k c (some k) block (.cmd c seq) with
    | (some (st, h), s) => s.endCmd c seq st h 0
    | (none, s) => s

/-- BUF_ALLOC (R125). -/
def execBufAlloc (c : Nat) (s : State) : Host.Outcome State Fault Refusal :=
  .next { s with toDev := s.toDev.hostCmd c 0x50 fun w d => d.onUnit c (hF w 8 0 4) w fun d => d.bufAlloc c w }

/-- BUF_REF or BUF_UNREF on its unit (R129, R12): a context without a slot there holds no reference, so that an UNREF finds
none, and a REF needs a slot for its ledger entry. -/
def Dev.bufRefOp (s : Dev) (c : Nat) (w : List Word) (incr : Bool) : Dev :=
  let seq := hSeq w
  let h := (hW w 12).toNat
  let act := fun (k : Nat) (s : Dev) =>
    if s.bpmDown then s.holdOp { rq := k, ctx := c, h, incr, seq := some seq }
    else
      let (st, n, s) := if incr then s.bpmInc c h (some k) else s.bpmDec c h (some k)
      s.endCmd c seq st n 0
  if incr then s.withSlot c seq act
  else act ((s.slotOf c).getD 64) s

/-- BUF_REF (R129). -/
def execBufRef (c : Nat) (s : State) : Host.Outcome State Fault Refusal :=
  .next { s with toDev := s.toDev.hostCmd c 0x51 fun w d => d.onUnit c (hF w 8 0 4) w fun d => d.bufRefOp c w true }

/-- BUF_UNREF (R129, R130). -/
def execBufUnref (c : Nat) (s : State) : Host.Outcome State Fault Refusal :=
  .next { s with toDev := s.toDev.hostCmd c 0x52 fun w d => d.onUnit c (hF w 8 0 4) w fun d => d.bufRefOp c w false }

/-! ### POOL_CONFIG -/

/-- Entry `r` of a requester table in bytes: QUOTA, RESERVE. -/
def rqEntry (bs : List Byte) (r : Nat) : Nat × Nat := (natOf ((bs.drop (8 * r)).take 4), natOf ((bs.drop (8 * r + 4)).take 4))

/-- POOL_CONFIG with the requester table's bytes, none for QTAB 0 (R117, R122, R460): a VF's context is refused with
reason 9. -/
def Dev.poolConfigWith (s : Dev) (c : Nat) (w : List Word) (tab : Option (List Byte)) : Dev :=
  let seq := hSeq w
  let p := hF w 8 4 4
  let g : PoolCfg := { w0 := (hW w 0x10).toNat, w1 := (hW w 0x14).toNat, w2 := (hW w 0x18).toNat,
                       base := (hW w 0x20).toNat + (hW w 0x24).toNat * 2 ^ 32 }
  let q := fun r => match tab with | some b => (rqEntry b r).1 | none => fldN g.w0 0 21
  let m := fun r => match tab with | some b => (rqEntry b r).2 | none => 0
  let (r, s) := if s.ctxVf c ≠ 0 then (9, s.cfgReject p 9) else s.configure p g (bitN g.w2 14) q m
  if r = 0 then s.endCmd c seq .ok 0 0 else s.endCmd c seq ⟨.poolCfgReject, 9⟩ r 0

/-- POOL_CONFIG on its unit: the requester table comes with the command from host memory, or is read from DRAM (R96). -/
def Dev.poolConfig (s : Dev) (c : Nat) (w : List Word) : Dev :=
  let seq := hSeq w
  let q := hAddrAt w 0x28
  s.withSlot c seq fun _ s =>
    if !q.dram then s.poolConfigWith c w (if q.addr = 0 then none else (s.ctx c).opData)
    else if !s.isMgr then s.poolConfigWith c w (s.ctx c).opData
    else match s.ctxDram c q.addr 768 with
      | none => s.endCmd c seq ⟨.ctxFaultAddr, 8⟩ 0 q.addr
      | some a =>
        let (bad, bs, s) := s.memRd c a 768
        if bad then s.endCmd c seq ⟨.dataPoisoned, 8⟩ 0 a else s.poolConfigWith c w (some bs)

/-- The operand record of a command that names another unit, when it lies in manager DRAM: read here and sent along. -/
def Dev.dramOperand (s : Dev) (c : Nat) (w : List Word) (a : HAddr) (n : Nat) (f : Dev → Dev) : Dev :=
  if a.dram then
    match s.ctxDram c a.addr n with
    | none => s.endCmd c (hSeq w) ⟨.ctxFaultAddr, 8⟩ 0 a.addr
    | some d =>
      let (bad, bs, s) := s.memRd c d n
      if bad then s.endCmd c (hSeq w) ⟨.dataPoisoned, 8⟩ 0 d
      else f (s.setCtx c { s.ctx c with opData := some bs })
  else f s

/-- POOL_CONFIG at the unit that holds it: here, or sent with its requester table to the unit it names. -/
def Dev.poolConfigRun (c : Nat) (w : List Word) (s : Dev) : Dev :=
  if hF w 8 0 4 = s.addr then s.poolConfig c w
  else s.dramOperand c w (hAddrAt w 0x28) 768 fun s => s.onUnit c (hF w 8 0 4) w fun s => s.poolConfig c w

/-- A POOL_CONFIG for this unit waits while its zeroisation runs (R420). -/
def Dev.poolWaits (s : Dev) (c : Nat) : Bool :=
  s.rb R.topStat 4 && (match (s.ctx c).sq with
    | w :: _ => hF w 8 0 4 == s.addr
    | [] => false)

/-- POOL_CONFIG (R122). -/
def execPoolConfig (c : Nat) (s : State) : Host.Outcome State Fault Refusal :=
  .next { s with toDev := if s.toDev.poolWaits c then s.toDev else s.toDev.hostCmd c 0x53 (Dev.poolConfigRun c) }

/-! ### Pool registers (R122, R460, R463) -/

/-- POOL_ENABLE: a write of CFG2. The record is the pool's registers with the new CFG2; a refused EN keeps CFG2. While the unit's
zeroisation runs an enable waits (R420). -/
def Dev.poolEnable (s : Dev) (p : Nat) (v : Word) : Dev :=
  if s.rb R.topStat 4 && v.bit 14 then { s with boot := { s.boot with waitEn := s.boot.waitEn ++ [(p, v)] } }
  else
    let g : PoolCfg := { w0 := s.rn (R.bpmPoolCfg0 p), w1 := s.rn (R.bpmPoolCfg1 p), w2 := v.fld 0 15, base := s.poolBase p }
    (s.configure p g (v.bit 14) (s.quota p) (s.reserve p)).2

def execPoolEnable (p : Nat) (v : Word) (s : State) : Host.Outcome State Fault Refusal :=
  .next { s with toDev := if p < 16 then s.toDev.poolEnable p v else s.toDev }

/-- The pool and requester that BPM_RQ_SEL selects; 96 to 127 select none (R463). -/
def Dev.rqSel (s : Dev) : Option (Nat × Nat) :=
  let r := s.rf R.bpmRqSel 8 7
  if r < 96 then some (s.rf R.bpmRqSel 0 4, r) else none

/-- A requester-table change for the selected pair, checked while the pool is enabled (R122): reason 6 or 7, else it applies
and waiters are served. -/
def Dev.rqWrite (s : Dev) (p r q m : Nat) : Dev :=
  let res := fun i => if i = 79 then 0 else if i = r then m else s.reserve p i
  let quo := fun i => if i = r then q else s.quota p i
  let bad :=
    if !s.poolEn p then 0
    else if s.poolMode p ≠ 0 ∧ s.poolN p < ((List.range 96).map res).sum then 6
    else if s.poolMode p = 2 ∧ (List.range 96).any (fun i => decide (quo i < res i)) then 7
    else 0
  if bad ≠ 0 then (s.setRf R.bpmRqStat 0 4 bad).irq 0x10000 16
  else
    let x := s.pool p
    let x : Pool := { x with quota := Tab.set (fun _ => 0x100000) x.quota r q, reserve := Tab.set (fun _ => 0) x.reserve r m }
    let s := s.setPool p x
    if s.poolEn p then s.serveAll p else s

/-- BPM_RQ_QUOTA (R122, R463): a value above 1,048,576 is ignored. -/
def Dev.rqQuotaWrite (s : Dev) (v : Word) : Dev :=
  match s.rqSel with
  | some (p, r) => if v.toNat ≤ 1048576 then s.rqWrite p r v.toNat (Tab.get (fun _ => 0) (s.pool p).reserve r) else s
  | none => s

def execBpmRqQuota (v : Word) (s : State) : Host.Outcome State Fault Refusal :=
  .next { s with toDev := s.toDev.rqQuotaWrite v }

/-- BPM_RQ_RESERVE (R122, R463). -/
def Dev.rqReserveWrite (s : Dev) (v : Word) : Dev :=
  match s.rqSel with
  | some (p, r) => s.rqWrite p r (s.quota p r) v.toNat
  | none => s

def execBpmRqReserve (v : Word) (s : State) : Host.Outcome State Fault Refusal :=
  .next { s with toDev := s.toDev.rqReserveWrite v }

/-- BPM_OWN_ADDR_HI (R135): the lookup of the address written, its result in the page's registers. -/
def Dev.ownLookup (s : Dev) (v : Word) : Dev :=
  let s := s.setReg R.bpmOwnAddrHi v
  let a := s.rn R.bpmOwnAddrLo + v.toNat * 2 ^ 32
  match s.ownerOf a with
  | none => ((s.setReg R.bpmOwnResult (Word.ofNat 32)).setReg R.bpmOwnHandle 0).setReg R.bpmOwnCount 0
  | some (p, i) =>
    let b := s.buf p i
    let st := match b.st with | .free => 1 | .alloc => 2 | .retired => 3
    let w := st + bN b.pinned * 4 + bN b.poisoned * 8 + bN b.bad * 16 + 32 + b.ctx % 256 * 2 ^ 8 + b.rq % 128 * 2 ^ 16
      + s.poolCls p * 2 ^ 23
    ((s.setReg R.bpmOwnResult (Word.ofNat w)).setReg R.bpmOwnHandle (Word.ofNat (s.handleOf p i))).setReg R.bpmOwnCount
      (Word.ofNat b.count)

def execBpmOwnAddrHi (v : Word) (s : State) : Host.Outcome State Fault Refusal :=
  .next { s with toDev := s.toDev.ownLookup v }

/-! ### Waiters, and the BPM's return (R12, R125) -/

/-- BPM_WAIT_TIMEOUT (R125): the waiter fails with the status of its last failed check. -/
def Dev.waitTimeout (s : Dev) (id : Nat) : Dev :=
  match s.bpm.waiters.find? (·.id == id) with
  | none => s
  | some w =>
    let s : Dev := { s with bpm := { s.bpm with waiters := s.bpm.waiters.filter (·.id != id) } }
    let st : Status := ⟨(s.admits w.pool w.rq).getD .poolEmpty, 9⟩
    let s := s.perf 0x10000 4 1
    match w.who with
    | .cmd c seq => s.endCmd c seq st 0 0
    | .eng tag => s.answer tag st 0

def execBpmWaitTimeout (id : Nat) (s : State) : Host.Outcome State Fault Refusal :=
  .next { s with toDev := s.toDev.waitTimeout id }

/-- An allocation by an engine or core port (R121, R125, R127): its answer is kept under its tag. -/
def Dev.engAlloc (s : Dev) (rq c p : Nat) (blocking : Bool) (tag : Nat) : Dev :=
  match s.allocate p rq c none blocking (.eng tag) with
  | (some (st, h), s) => s.answer tag st h
  | (none, s) => s

/-- A reference operation by an engine or core port (R129, R131), held while the BPM is down (R12). -/
def Dev.engOp (s : Dev) (incr : Bool) (rq c h tag : Nat) : Dev :=
  if s.bpmDown then s.holdOp { rq, ctx := c, h, incr, tag := some tag }
  else
    let (st, n, s) := s.engRef incr rq c h
    s.answer tag st n

/-- Apply one held reference operation (R12). -/
def Dev.applyHeld (s : Dev) (o : HeldOp) : Dev :=
  match o.seq with
  | some seq =>
    let (st, n, s) := if o.incr then s.bpmInc o.ctx o.h (some o.rq) else s.bpmDec o.ctx o.h (some o.rq)
    s.endCmd o.ctx seq st n 0
  | none =>
    let (st, n, s) := s.engRef o.incr o.rq o.ctx o.h
    match o.tag with
    | some t => s.answer t st n
    | none => s

/-- BPM_RETURN (R12, R150): the BPM leaves reset; held reference operations are applied in order, then RAS's lookups. -/
def Dev.bpmReturn (s : Dev) : Dev :=
  let s := (s.setRb (0x10000 + R.ctl) 1 false).setRb (0x10000 + R.stat) 0 false
  let ops := s.bpm.held
  let s : Dev := { s with bpm := { s.bpm with held := [] } }
  let s := ops.foldl Dev.applyHeld s
  let looks := s.ras.held
  let s : Dev := { s with ras := { s.ras with held := [] } }
  let s := (looks.foldl Dev.rasAct s).rasCounts
  s.setRb R.rasStat 2 false

def execBpmReturn (s : State) : Host.Outcome State Fault Refusal := .next { s with toDev := s.toDev.bpmReturn }

/-! ### Page attributes (R112) -/

/-- The 4 KiB pages of context `c`'s PREFETCH_OK range `i`: first page, count. -/
def Dev.pfRange (s : Dev) (c i : Nat) : Nat × Nat := (s.rf (R.ctxPfBase c i) 0 25, s.rf (R.ctxPfPages c i) 0 25)

/-- Context `c`'s range `i` is enabled. -/
def Dev.pfOn (s : Dev) (c i : Nat) : Bool := s.rb (R.ctxPfCtl c) i

/-- The first page of the usable DRAM that a context's pages count from: a VF's slice, or 0. -/
def Dev.pfBase (s : Dev) (c : Nat) : Nat := if s.ctxVf c = 0 then 0 else s.sliceBase (s.ctxVf c) / 4096

/-- Why R112 refuses range `i` of context `c`: 1 outside, 2 overlap with another context's enabled range, 3 no pages; 0 for
no reason. -/
def Dev.pfReason (s : Dev) (c i : Nat) : Nat :=
  let (b, n) := s.pfRange c i
  let limit := if s.ctxVf c = 0 then s.usable / 4096 else 2 ^ 20
  if n = 0 then 3
  else if limit < b + n ∨ s.usable / 4096 < s.pfBase c + b + n then 1
  else if (List.range 256).any (fun d => d != c && (List.range 16).any fun j => s.pfOn d j &&
      (let (b', n') := s.pfRange d j; overlaps (s.pfBase c + b) n (s.pfBase d + b') n')) then 2
  else 0

/-- Discard every read-ahead line that `f` selects (R109). -/
def Dev.dropLines (s : Dev) (f : Line → Bool) : Dev :=
  let ahead := s.hif.ahead.map fun r => { r with lines := r.lines.filter fun l => !f l }
  { s with hif := { s.hif with ahead } }

/-- The function through whose BAR 2 a context's pages are read. -/
def Dev.ctxFn (s : Dev) (c : Nat) : Nat := s.ctxVf c

/-- The usable address that a read-ahead line's first byte holds: lines keep usable addresses. -/
def Line.page (l : Line) : Nat := l.addr / 4096

/-- A line lies in context `c`'s range `i`. -/
def Dev.lineIn (s : Dev) (c i : Nat) (l : Line) : Bool :=
  let (b, n) := s.pfRange c i
  decide (s.pfBase c + b ≤ l.page) && decide (l.page < s.pfBase c + b + n)

/-- CTX_PF_CTL (R112, R109): each range whose EN is newly set is checked; a refused or newly disabled range loses its lines. -/
def Dev.pfCtlWrite (s : Dev) (c : Nat) (v : Word) : Dev :=
  (List.range 16).foldl (fun s i =>
    let was := s.pfOn c i
    if v.bit i then
      if was then s
      else
        let r := s.pfReason c i
        if r = 0 then s.setRb (R.ctxPfCtl c) i true
        else ((s.dropLines (s.lineIn c i)).setRb (R.ctxPfStat c) i true).setRf (R.ctxPfStat c) 16 2 r
    else if was then (s.dropLines (s.lineIn c i)).setRb (R.ctxPfCtl c) i false
    else s) s

/-- CTX_PF_CTL (R112), written by one who may write the context's pages (R52). -/
def execCtxPfCtl (src : Src) (c : Nat) (v : Word) (s : State) : Host.Outcome State Fault Refusal :=
  .next { s with toDev := if s.toDev.pageMay src c then (s.toDev.busPosted src).pfCtlWrite c v else s.toDev.busPosted src }

end Sys2Proof.Machine
end

