-- ==== Sys2Proof/Machine/Tim.lean ====
section
/-! DEFINITION. Shop time: how it counts, the discipline source, and the lock (R349, R351, R354). -/

namespace Sys2Proof.Machine

/-- TIME_CTL.SRC: 0 FREE, 1 SW, 2 PTM (R351). -/
def Dev.timeSrc (s : Dev) : Nat := s.rf R.timeCtl 0 2

/-- One TCLK edge (R349): 2 ns × (1 + TIME_RATE × 2^-40), in units of 2^-48 ns. -/
def Dev.tick (s : Dev) : Dev :=
  { s with shop := (((s.shop : Nat) + 2 ^ 49 + (s.reg R.timeRate).int * 512) % 2 ^ 112).toNat }

/-- TIME_STAT.LOCKED changes (R351, R354): TIME_LOCKED or TIME_UNLOCKED with TIME_ERR and the reason, and the interrupt bits;
a worker's firmware tells the manager. -/
def Dev.timeLock (s : Dev) (on : Bool) (reason : Nat) : Dev :=
  if s.rb R.timeStat 0 = on then s
  else
    let s := (s.setRb R.timeStat 0 on).irq 0x70000 0
    let s := if on then s else s.irq 0x70000 16
    let s := s.raise { nm := if on then .timeLocked else .timeUnlocked, blk := 0x13, d0 := s.rn R.timeErr
                       d1 := if on then 0 else reason }
    if s.isMgr then s else s.fwSend 0 (.timeLocked on)

/-- TIME_ERR: a signed count of ns, saturating. -/
def errWord (e : Int) : Word := Word.ofNat (ofSigned 32 (max (-2147483648) (min 2147483647 e)))

/-- A measurement of the error against the discipline source (R351, R354): within `lock` ns it counts as good, and 8 good ones in
a row set the lock; above `lose` ns `k` times in a row it clears it. -/
def Dev.measure (s : Dev) (e : Int) (lock lose k : Nat) : Dev :=
  let s := s.setReg R.timeErr (errWord e)
  let good := if e.natAbs ≤ lock then satAdd 255 (s.rf R.timeStat 8 8) 1 else 0
  let bad := if lose < e.natAbs then s.tim.bad + 1 else 0
  let s : Dev := (({ s with tim := { s.tim with bad } } : Dev).setRf R.timeStat 8 8 good)
  let s := if 8 ≤ good then s.timeLock true 0 else s
  if k ≤ bad then s.timeLock false 1 else s

/-! ### Timetable entries: fields and lateness (R356-R363) -/

/-- The period in 1/16 ns, 0 for a one-shot entry. -/
def Ent.per (x : Ent) : Nat := if bitN x.w 37 then fldN x.w 0 37 * 16000 else fldN x.w 0 37

/-- ARG. -/
def Ent.arg (x : Ent) : Nat := fldN x.w 43 21

/-- The late policy: 1 RUN_LATE, 2 SKIP, 3 FAULT. DEFAULT is SKIP for a periodic entry and RUN_LATE for a one-shot one (R362). -/
def Ent.late (x : Ent) : Nat := if fldN x.w 41 2 = 0 then (if x.per = 0 then 1 else 2) else fldN x.w 41 2

/-- Shop time in 1/16 ns. -/
def Dev.now16 (s : Dev) : Nat := s.shop / 2 ^ 44

/-- An entry's occurrence is due (R358): its time has come; a one-shot occurrence whose push is refused is past that. -/
def Ent.due (x : Ent) (now : Nat) : Bool := x.action != 0 && decide (x.t ≤ now) && (x.per != 0 || x.retry.isNone)

/-- Occurrences of an entry that are due by now. -/
def Ent.missed (x : Ent) (now : Nat) : Nat := if x.per = 0 then 1 else (now - x.t) / x.per + 1

/-- Raise entry `e`'s held LAUNCH_LATE. -/
def Dev.lateRaise (s : Dev) (e : Nat) : Dev :=
  let x := s.ent e
  match x.held with
  | none => s
  | some (n, l) =>
    (s.setEnt e { x with held := none, lastRep := some s.ns }).raise
      { nm := .launchLate, blk := 0x13, ctx := some x.owner, d0 := e, d1 := min 0xFFFFFFFF n, d2 := min 0xFFFFFFFF l }

/-- A late handling (R363): `n` occurrences missed, the first of the late ones scheduled at `t`. The report is held while the
entry's last one lies less than 100 ms back. -/
def Dev.lateReport (s : Dev) (e n t : Nat) : Dev :=
  let s := ((s.satInc R.timeLateCnt n).perf 0x70000 1 n).irq 0x70000 1
  let x := s.ent e
  let l := (s.now16 - t) / 16
  let held := match x.held with
    | some (m, l0) => (m + n, l0)
    | none => (n, l)
  let s := s.setEnt e { x with held := some held }
  if x.lastRep.all fun r => decide (r + 100000000 ≤ s.ns) then s.lateRaise e else s

/-- The late policy FAULT: the owner faults with CTX_FAULT_TIMEOUT (R362). -/
def Dev.lateFault (s : Dev) (e : Nat) : Dev := s.ctxFault (s.ent e).owner ⟨.ctxFaultTimeout, 0x13⟩ 0 e 0xFFFF

/-- The occurrence of entry `e` scheduled at `t` has been launched, skipped or faulted: a one-shot entry is disarmed (R359). -/
def Dev.entDone (s : Dev) (e : Nat) : Dev := if (s.ent e).per = 0 then s.disarm e else s

/-- The push of entry `e`'s occurrence scheduled at `t` was refused (R362). -/
def Dev.pushRefused (s : Dev) (e t : Nat) : Dev :=
  let x := s.ent e
  let n := (x.retry.map (·.2)).getD 0
  match x.late with
  | 1 => s.setEnt e { x with retry := some (t, n) }
  | 2 => ((s.setEnt e { x with retry := none }).lateReport e (n + 1) t).entDone e
  | _ => (((s.setEnt e { x with retry := none }).lateReport e (n + 1) t).lateFault e).entDone e

/-- The push of entry `e`'s occurrence was accepted: one that was late is reported. -/
def Dev.pushTaken (s : Dev) (e : Nat) : Dev :=
  let x := s.ent e
  match x.retry with
  | none => s.entDone e
  | some (t, n) => ((s.setEnt e { x with retry := none }).lateReport e n t).entDone e

/-- The scheduled time of entry `e`'s occurrence that is being launched. -/
def Ent.launched (x : Ent) : Nat := match x.retry with
  | some (t, _) => t
  | none => x.t - x.per

/-- SYNC_OUT follows the pulses while TIME_CTL.SYNC_OUT_EN is 1 (R355). -/
def Dev.syncPin (s : Dev) : Dev :=
  let on := s.rb R.timeCtl 3 && !s.tim.pulses.isEmpty
  if s.tim.high = on then s else ({ s with tim := { s.tim with high := on } } : Dev).emit (.pin .syncOut on)

end Sys2Proof.Machine
end

