-- ==== Sys2Proof/Machine/Vent.lean ====
section
/-! DEFINITION. The Vent: which egress it blocks by content class, what a blocked access leaves (R405-R408). -/

namespace Sys2Proof.Machine

/-- Paths of the Vent: HIF writes, BAR 2 reads, chain frames, DBG reads. -/
inductive VentPath where
  | hifWrite | bar2Read | chain | dbg
  deriving DecidableEq, Repr

/-- The path's number in VENT_LAST_INFO. -/
def VentPath.num : VentPath → Nat
  | .hifWrite => 0 | .bar2Read => 1 | .chain => 2 | .dbg => 3

/-- Capture the first blocked access since the last read of VENT_LAST_ADDR_LO (R407). -/
def Dev.ventCapture (s : Dev) (p : VentPath) (a cls rq req : Nat) : Dev :=
  if s.vent.cap.isSome then s
  else
    let w := Word.ofNat (p.num + cls % 8 * 4 + rq % 128 * 2 ^ 8 + req % 2 ^ 16 * 2 ^ 16)
    ({ s with vent := { s.vent with cap := some a } } : Dev).setReg R.ventLastInfo w

/-- VENT_BLOCKED of a path when one is due: at most once per second, with the count and the first access since the last one
(R407). -/
def Dev.ventEvent (s : Dev) (p : VentPath) : Dev :=
  let x := Tab.get (fun _ => ({} : VPath)) s.vent.paths p.num
  if x.n = 0 ∨ onceDue x.last s.ns = false then s
  else
    let e : Event := { nm := .ventBlocked, blk := 0x16, ctx := x.ctx, d0 := p.num, d1 := x.n, d2 := x.addr % 2 ^ 32, d3 := x.cls }
    let y : VPath := { last := some s.ns }
    ({ s with vent := { s.vent with paths := Tab.set (fun _ => {}) s.vent.paths p.num y } } : Dev).raise e

/-- An access that the Vent blocks (R407): counted, captured, reported. `a` is its lowest blocked address, `cls` that byte's
class, `c` the context that owns the address. -/
def Dev.ventBlock (s : Dev) (p : VentPath) (a cls : Nat) (c : Option Nat) (rq req : Nat) : Dev :=
  let s := ((s.satInc R.ventBlockCnt 1).perf 0x7C000 p.num 1).irq 0x7C000 16
  let s := s.ventCapture p a cls rq req
  let x := Tab.get (fun _ => ({} : VPath)) s.vent.paths p.num
  let x : VPath := if x.n = 0 then { x with n := 1, addr := a, cls, ctx := c } else { x with n := x.n + 1 }
  ({ s with vent := { s.vent with paths := Tab.set (fun _ => {}) s.vent.paths p.num x }
            sec := { s.sec with ventBlocks := s.sec.ventBlocks + 1 } } : Dev).ventEvent p

/-- An access that MONITOR lets pass and ENFORCING would block (R405). -/
def Dev.ventWould (s : Dev) : Dev := s.satInc R.ventWouldCnt 1

/-- DBG reads of every class pass: BLANK at FULL (R406). -/
def Dev.dbgOpen (s : Dev) : Bool := s.sec.lc == .blank && s.sec.dbgLevel == 3

/-- The context that owns a usable address: of the allocated buffer that covers it. -/
def Dev.ctxOfAddr (s : Dev) (a : Nat) : Option Nat :=
  match s.ownerOf a with
  | some (p, i) => if (s.buf p i).st = .alloc then some (s.buf p i).ctx else none
  | none => none

/-- The class that a pending zeroisation gives a usable address (R420). -/
def Dev.zeroCls (s : Dev) (a : Nat) : Option Nat :=
  (s.boot.zero.find? fun e => decide (e.base ≤ a) && decide (a < e.base + e.len)).map (·.cls)

/-- The class and whether ENFORCING (or a pending zeroisation) blocks it, of a byte read through BAR 2 (R406, R420). -/
def Dev.bar2Byte (s : Dev) (a : Nat) : Nat × Bool :=
  match s.zeroCls a with
  | some k => (k, true)
  | none => let k := s.clsOf a; (k, s.enforcing && guarded k)

/-- A write of device data of class `cls` at usable address `a` to host memory by requester `rq` for context `c` (R406, R407):
whether it passes. VENC's copy of a clip object passes with `clip`. -/
def Dev.hifMay (s : Dev) (cls a c rq : Nat) (clip : Bool) : Bool × Dev :=
  if guarded cls && !(clip && cls == 3) then
    if s.enforcing then (false, s.ventBlock .hifWrite a cls (some c) rq 0) else (true, s.ventWould)
  else (true, s)

/-- A chain frame with data of class `cls` to unit `u` (R406): of every class it passes only to a JOINED unit over a link with keys
installed. -/
def Dev.chainMay (s : Dev) (cls a u c rq : Nat) : Bool × Dev :=
  let port := routeOf (s.rn R.chainRoute) u
  let keyed := (port == 1 && s.glk0.key.isSome) || (port == 2 && s.glk1.key.isSome)
  let joined := if s.isMgr then (Tab.get (fun _ => ({} : UnitInfo)) s.chain.units u).st == .joined else s.chain.own == .joined
  if keyed && joined then (true, s)
  else if s.enforcing then (false, s.ventBlock .chain a cls (some c) rq 0) else (true, s.ventWould)

/-- A DBG read of a byte: its class and whether it is blocked; below FULL in MONITOR as in ENFORCING (R405, R406). -/
def Dev.dbgByte (s : Dev) (a : Nat) : Nat × Bool :=
  let k := s.clsOf a
  (k, guarded k && !s.dbgOpen)

/-- VENT_LAST_ADDR_LO (R407): a read returns the low half, latches the high half, restarts the capture. -/
def Dev.ventLastRead (s : Dev) : Nat × Dev :=
  let a := s.vent.cap.getD 0
  let s := s.setReg R.ventLastAddrHi (Word.ofNat (a / 2 ^ 32))
  (a % 2 ^ 32, { s with vent := { s.vent with cap := none } })

end Sys2Proof.Machine
end

