-- ==== Sys2Proof/Machine/Pcie.lean ====
section
/-! DEFINITION. BAR 2 writes and reads, the read-ahead buffer, completions of device reads, tags, PTM and ASPM (R54, R55,
R58-R68, R103-R111). -/

namespace Sys2Proof.Machine

/-! ### BAR 2 (R54, R55, R69, R73) -/

/-- ECRC Check Enable is set (R63). -/
def Dev.ecrcOn (s : Dev) : Bool := (s.cfg 0 0x46).bit 8

/-- A received TLP with a failing ECRC is dropped and logged (R63). -/
def Dev.ecrcDrop (s : Dev) : Dev := (s.aerLog .ecrc).irq 0x6000 18

/-- VF `n` is in FLR (R73). -/
def Dev.inFlr (s : Dev) (n : Nat) : Bool := s.rb R.hifFlrStat n

/-- A usable address lies in the slice of an enabled VF. -/
def Dev.inSlice (s : Dev) (a n : Nat) : Bool :=
  (List.range 16).any fun v => s.vfOn v && overlaps a n (s.sliceBase v) (4 * 2 ^ 30)

/-- The usable address of a BAR 2 access of function `fn`, none where it gets UR: past the usable capacity, in an enabled VF's
slice, in D3hot or FLR, or with memory space disabled (R54, R55, R69, R73). -/
def Dev.bar2Addr (s : Dev) (fn off len : Nat) : Option Nat :=
  if !s.isMgr || s.inD3 || !s.mse fn || s.inFlr fn then none
  else if fn = 0 then
    let a := s.rf R.hifBar2Offset 0 8 * 2 ^ 30 + off
    if a + len ≤ s.usable ∧ s.inSlice a len = false then some a else none
  else if s.vfOn fn && decide (off + len ≤ 4 * 2 ^ 30) then
    let a := s.sliceBase fn + off
    if a + len ≤ s.usable then some a else none
  else none

/-- An access that completes with UR or is dropped as one: logged as Unsupported Request (R54). -/
def Dev.urLog (s : Dev) : Dev := (s.aerLog .unsupportedRequest).irq 0x6000 20

/-- BAR2_WRITE (R64, R103, R105, R109): lines that overlap are discarded, a poisoned write stores poison. -/
def Dev.bar2Write (s : Dev) (fn off : Nat) (data : List Byte) (poisoned ecrcBad : Bool) : Dev :=
  let s := s.perf 0x6000 0 1
  if ecrcBad && s.ecrcOn then s.ecrcDrop
  else match s.bar2Addr fn off data.length with
    | none => s.urLog
    | some a =>
      let s := s.dropLines fun l => overlaps l.addr 128 a data.length
      let s := if poisoned then (s.aerAdvisory .poisonedTlp).irq 0x6000 19 else s
      s.memWr 0 a data poisoned

/-- BAR2_WRITE (R103). `req` is the writer's PCIe Requester ID, which no rule tells apart for writes. -/
def execBar2Write (_req fn off : Nat) (data : List Byte) (poisoned ecrcBad : Bool) (s : State) :
    Host.Outcome State Fault Refusal :=
  .next { s with toDev := s.toDev.bar2Write fn off data poisoned ecrcBad }

/-! ### Read-ahead (R106-R109) -/

/-- The context range that makes a usable page PREFETCH_OK (R108). -/
def Dev.pfOf (s : Dev) (page : Nat) : Option Nat :=
  (List.range 256).find? fun c => (List.range 16).any fun i =>
    s.pfOn c i && (let (b, n) := s.pfRange c i; decide (s.pfBase c + b ≤ page) && decide (page < s.pfBase c + b + n))

/-- The lines of a requester. -/
def Dev.linesOf (s : Dev) (req : Nat) : List Line := ((s.hif.ahead.find? (·.req == req)).map (·.lines)).getD []

/-- A requester's lines, served just now; a 33rd requester takes the place of the least recently served one (R106). -/
def Dev.setLines (s : Dev) (req : Nat) (l : List Line) : Dev :=
  let others := s.hif.ahead.filter (·.req != req)
  let others := if 32 ≤ others.length then others.drop 1 else others
  { s with hif := { s.hif with ahead := others ++ [{ req, lines := l }] } }

/-- An acquire read discards every line of its requester (R108). -/
def Dev.acquire (s : Dev) (req : Nat) : Dev :=
  { s with hif := { s.hif with ahead := s.hif.ahead.map fun r => if r.req = req then { r with lines := [] } else r } }

/-- The byte at `a` that lines of function `fn` hold. -/
def lineByte (l : List Line) (fn a : Nat) : Option Byte :=
  (l.find? fun x => x.fn == fn && decide (x.addr ≤ a) && decide (a < x.addr + 128)).bind fun x => x.data[a - x.addr]?

/-- Fill at most 8 lines with the 128-byte blocks after the read, within its page, none from a poisoned sector; the oldest
lines go first (R107). -/
def Dev.fillLines (s : Dev) (req fn a len ctx : Nat) : Dev :=
  let first := (a + len - 1) / 128 + 1
  let stop := (a + len - 1) / 4096 * 32 + 32
  let blocks := (List.range 8).map (first + ·) |>.filter (· < stop)
  blocks.foldl (fun s b =>
    let (bad, bs, s) := s.memRd 0 (b * 128) 128
    if bad then s
    else
      let l := (s.linesOf req).filter fun x => !(x.fn == fn && x.addr == b * 128)
      let l := if 16 ≤ l.length then l.drop 1 else l
      (s.setLines req (l ++ [{ fn, addr := b * 128, data := bs }])).satInc (R.ctxPfFills ctx) 1) s

/-- A read served from DRAM: every sector with a byte that the Vent does not block is read. -/
def Dev.bar2Fetch (s : Dev) (a len : Nat) (blocked : Nat → Bool) : Dev :=
  (sectors a len).foldl (fun s i =>
    if (List.range 32).any (fun k => decide (a ≤ i * 32 + k) && decide (i * 32 + k < a + len) && !blocked (i * 32 + k)) then
      (s.secRd i 0).2
    else s) s

/-- BAR2_READ (R65, R104, R107, R108). -/
def Dev.bar2Read (s : Dev) (req fn off len : Nat) (ecrcBad : Bool) : Dev :=
  let s := s.perf 0x6000 1 1
  if ecrcBad && s.ecrcOn then s.ecrcDrop
  else match s.bar2Addr fn off len with
    | none => s.urLog.tlp (.cplUr req)
    | some a =>
      let page := s.pfOf (a / 4096)
      let s := if page.isSome then s else s.acquire req
      let at_ := (List.range len).map (a + ·)
      let cls := at_.map s.bar2Byte
      let held := at_.map (lineByte (s.linesOf req) fn)
      let hit := page.isSome && held.all (·.isSome)
      let firstBad := (at_.zip cls).find? (·.2.2)
      let s := if hit then s else s.bar2Fetch a len fun b => (s.bar2Byte b).2
      let raw := if hit then held.map (·.getD 0) else s.bytes a len
      let data := (raw.zip cls).map fun x => if x.2.2 then 0 else x.1
      let ep := (at_.zip cls).any fun x => !x.2.2 && s.mark (x.1 / 32) == .poison
      let s := match firstBad with
        | some (b, k, _) => s.ventBlock .bar2Read b k (s.ctxOfAddr b) 76 req
        | none => if !s.enforcing && at_.any (fun b => guarded (s.clsOf b)) then s.ventWould else s
      let s := match page with
        | some c =>
          if hit then (s.setLines req (s.linesOf req)).satInc (R.ctxPfHits c) 1
          else (s.setLines req (s.linesOf req)).fillLines req fn a len c
        | none => s
      s.tlp (.cpl req data ep)

def execBar2Read (req fn off len : Nat) (ecrcBad : Bool) (s : State) : Host.Outcome State Fault Refusal :=
  .next { s with toDev := s.toDev.bar2Read req fn off len ecrcBad }

/-- READAHEAD_LINE_EXPIRY (R109): the line is discarded. -/
def Dev.lineExpiry (s : Dev) (req fn line : Nat) : Dev :=
  { s with hif := { s.hif with ahead := s.hif.ahead.map fun r =>
    if r.req = req then { r with lines := r.lines.filter fun l => !(l.fn == fn && l.addr == line) } else r } }

def execReadaheadLineExpiry (req fn line : Nat) (s : State) : Host.Outcome State Fault Refusal :=
  .next { s with toDev := s.toDev.lineExpiry req fn line }

/-! ### Device reads (R59-R62) -/

/-- The command at the front of a context's queue fails before it could start: it counts as executed (R85, R102). -/
def Dev.failFront (s : Dev) (c : Nat) (st : Status) (d2 : Nat) : Dev :=
  let x := s.ctx c
  match x.sq with
  | [] => s
  | w :: r =>
    let seq := hSeq w
    let s := (s.setReg (R.ctxSeqHigh c) (Word.ofNat seq)).setReg (R.ctxWinSeq c (seq % 64)) (Word.ofNat seq)
    let s := s.setCtx c { x with sq := r, opAsked := false, run := x.run ++
      [{ seq, op := hOp w, cid := hCid w, noCpl := hNoCpl w, irq := hIrq w, words := w }] }
    s.endCmd c seq st 0 d2

/-- What a finished device read brings: an SQ entry in count order, or an operand record (R84, R102). -/
def Dev.readDone (s : Dev) (r : HRead) (data : List Byte) (bad : Bool) : Dev :=
  match r.for_ with
  | .dead => s
  | .sq c k =>
    if s.ctxSt c ≠ 1 then s
    else if bad then s.ctxFault c ⟨.dataPoisoned, 7⟩ 0 r.addr 0xFFFF
    else
      let s := s.setCtx c { s.ctx c with sqArr := (s.ctx c).sqArr ++ [(k, wordsOf data)] }
      (s.sqDrain c 32768).kick c
  | .operand c =>
    if s.ctxSt c ≠ 1 then s
    else if bad then s.failFront c ⟨.dataPoisoned, 7⟩ r.addr
    else s.setCtx c { s.ctx c with opData := some data }
  | .masks _ n => s.setClipReq n fun q =>
    if bad then { q with masks := some [], bad := some ⟨.dataPoisoned, 7⟩ } else { q with masks := some data }

/-- A completion with a tag (R62, R64, R73). -/
def Dev.completion (s : Dev) (tag : Nat) (data : List Byte) (last poisoned ecrcBad : Bool) : Dev :=
  let s := s.perf 0x6000 3 1
  if ecrcBad && s.ecrcOn then s.ecrcDrop
  else match s.hif.quar.find? (·.1 == tag) with
    | some (_, told) =>
      let s := ((s.satInc R.hifLateCplCnt 1).irq 0x6000 17).aerAdvisory .unexpectedCompletion
      if told then s
      else
        let quar := s.hif.quar.map fun x => if x.1 = tag then (x.1, true) else x
        ({ s with hif := { s.hif with quar } } : Dev).raise
          { nm := .lateCompletion, blk := 7, d0 := tag, d1 := s.rn R.hifLateCplCnt }
    | none => match s.hif.reads.find? (·.tag == tag) with
      | none => s.aerLog .unexpectedCompletion
      | some r =>
        let s := if poisoned then (s.aerAdvisory .poisonedTlp).irq 0x6000 19 else s
        let r := { r with got := r.got ++ data, bad := r.bad || poisoned }
        let others := s.hif.reads.filter (·.tag != tag)
        if last then
          let s := ({ s with hif := { s.hif with reads := others } } : Dev).tagWake
          if r.fn ≠ 0 && s.inFlr r.fn then s else s.readDone r r.got r.bad
        else { s with hif := { s.hif with reads := others ++ [r] } }

/-- COMPLETION_RECEIVED (R62). -/
def execCompletionReceived (tag : Nat) (data : List Byte) (last poisoned ecrcBad : Bool) (s : State) :
    Host.Outcome State Fault Refusal :=
  .next { s with toDev := s.toDev.completion tag data last poisoned ecrcBad }

/-- READ_TIMEOUT (R61): the read fails, its tag is quarantined, its operation's context faults. -/
def Dev.readTimeout (s : Dev) (tag : Nat) : Dev :=
  match s.hif.reads.find? (·.tag == tag) with
  | none => s
  | some r =>
    let s : Dev := { s with hif := { s.hif with
      reads := s.hif.reads.filter (·.tag != tag), quar := s.hif.quar ++ [(tag, false)] } }
    let s := (((s.satInc R.hifRdToCnt 1).irq 0x6000 16).aerAdvisory .completionTimeout).tagWake
    match r.for_ with
    | .dead => s
    | .sq c _ => s.ctxFault c ⟨.readTimeout, 7⟩ 0 tag 0xFFFF
    | .operand c => if s.ctxSt c = 1 then s.failFront c ⟨.readTimeout, 7⟩ tag else s
    | .masks _ n => s.setClipReq n fun q => { q with masks := some [], bad := some ⟨.readTimeout, 7⟩ }

def execReadTimeout (tag : Nat) (s : State) : Host.Outcome State Fault Refusal :=
  .next { s with toDev := s.toDev.readTimeout tag }

/-- TAG_QUARANTINE_END (R61). -/
def Dev.quarEnd (s : Dev) (tag : Nat) : Dev :=
  ({ s with hif := { s.hif with quar := s.hif.quar.filter (·.1 != tag) } } : Dev).tagWake

def execTagQuarantineEnd (tag : Nat) (s : State) : Host.Outcome State Fault Refusal :=
  .next { s with toDev := s.toDev.quarEnd tag }

/-! ### PTM, ASPM (R66, R68) -/

/-- PTM_REQUEST (R66): with PTM Enable set the HIF issues a request. In PTM mode, 8 intervals without a result clear the lock
(R351). -/
def Dev.ptmReq (s : Dev) : Dev :=
  if s.isMgr && (s.cfg 0 0x76).bit 0 && !s.inD3 then
    let n := s.tim.ptmMiss
    let s : Dev := { s with tim := { s.tim with ptmMiss := n + 1 } }
    let s := if s.timeSrc = 2 ∧ 8 ≤ n then s.timeLock false 3 else s
    ({ s with hif := { s.hif with ptmOut := true } } : Dev).tlp (.pcie .ptmRequest)
  else s

def execPtmRequest (s : State) : Host.Outcome State Fault Refusal := .next { s with toDev := s.toDev.ptmReq }

/-- ASPM_L1_ENTRY (R68): with ASPM L1 enabled in Link Control, the link enters L1, or the substate that L1 PM Substates
Control enables. -/
def Dev.aspmL1 (s : Dev) : Dev :=
  if s.rb R.hifLinkStat 10 && (s.cfg 0 0x1C).bit 1 then
    let c := s.cfg 0 0x72
    s.setRf R.hifLinkStat 11 2 (if c.bit 2 then 3 else if c.bit 3 then 2 else 1)
  else s

def execAspmL1Entry (s : State) : Host.Outcome State Fault Refusal := .next { s with toDev := s.toDev.aspmL1 }

end Sys2Proof.Machine
end

