-- ==== Sys2Proof/Machine/Reset.lean ====
section
/-! DEFINITION. What the resets clear (R39, R418-R420), the boot of the manager and of a worker (R421-R426), function level
resets (R72, R73). -/

namespace Sys2Proof.Machine

/-! ### Registers by group (R39) -/

/-- The register at an offset is held in the always-on island (R399). -/
def isAon (off : Nat) : Bool :=
  match pageAt off with
  | some p => ((findReg p.regs (off % 0x1000)).map (·.aon)).getD false
  | none => false

/-- The register at an offset is sticky, or belongs to the error capture (R39). -/
def isSticky (off : Nat) : Bool :=
  let o := off % 0x1000
  (decide (0x28 ≤ o) && decide (o < 0x40)) ||
    (match pageAt off with
      | some p => ((findReg p.regs o).map (·.sticky)).getD false
      | none => false)

/-- Pages of the keep set (R418): CLK, PWR, SEC, MGMT, GLK0, GLK1, CHAIN; and TIME's TIME_CTL and TIME_RATE. -/
def inKeepSet (off : Nat) : Bool :=
  let p := off / 0x1000
  p == 1 || p == 2 || p == 3 || p == 5 || p == 0x78 || p == 0x79 || p == 0x7A || off == R.timeCtl || off == R.timeRate

/-- Registers that show what a reset of codes 2 to 7 does not change: the straps, the training of the channels, the cause. -/
def showsHw (off : Nat) : Bool :=
  off == R.topStrap || off == R.topRstCause ||
    (decide (0x20 ≤ off / 0x1000) && decide (off / 0x1000 < 0x28) && (off % 0x1000 == 0x100 || off % 0x1000 == 0x104))

/-- Whether a reset of the code keeps the register at an offset. -/
def keepReg (code off : Nat) (aonKept : Bool) : Bool :=
  if code = 1 ∨ code = 8 then aonKept && isAon off
  else if 0x400000 ≤ off then false
  else if showsHw off || isSticky off || isAon off then true
  else if code = 7 then off / 0x1000 == 6
  else if code = 2 then false
  else inKeepSet off

/-- The registers after a reset of the code; an own address stays (R39). -/
def Dev.resetRegs (s : Dev) (code : Nat) : Dev :=
  let own := s.rf R.chainStat 0 5
  let ras := s.rb R.rasStat 3
  let top := s.reg R.topStat
  let link := s.reg R.hifLinkStat
  let fw := [R.vdecFwVer 0, R.vdecFwVer 1, R.vdecFwVer 2, R.vdecFwVer 3, R.vencFwVer].map fun a => (a, s.reg a)
  let regs := s.regs.filter fun x => keepReg code x.1 s.boot.aonKept
  let s : Dev := { s with regs }
  if code = 1 ∨ code = 8 then s
  else
    let s := (s.setRf R.chainStat 0 5 own).setRb R.rasStat 3 ras
    if code = 2 then s
    else if code = 7 then s
    else
      -- the boot state, the codec firmware and the host link stay as they are
      let s := fw.foldl (fun (s : Dev) x => s.setReg x.1 x.2) s
      let s := (s.setRf R.topStat 0 4 (top.fld 0 4)).setRf R.topStat 6 1 (top.fld 6 1)
      if code = 4 then s else s.setReg R.hifLinkStat link

/-- Record the code of a reset (R418): resets since power-on. -/
def Dev.resetCause (s : Dev) (code : Nat) : Dev :=
  let n := s.rf R.topRstCause 16 16
  s.setReg R.topRstCause (Word.ofNat (code + (if code = 1 ∨ code = 8 then 0 else satAdd 0xFFFF n 1) * 2 ^ 16))

/-! ### State behind the registers -/

/-- The BPM after a reset (R118): every generation advances once; power-on clears them. -/
def Bpm.afterReset (b : Bpm) (code : Nat) : Bpm :=
  if code = 1 ∨ code = 8 then {}
  else
    let bufs := (b.bufs.map fun x => (x.1, ({ allocs := x.2.allocs } : Buf))).filter fun x => x.2 != {}
    { bufs, resets := b.resets + 1, nextId := b.nextId }

/-- The extents of the enabled DRAM pools of the guarded classes (R420). -/
def Dev.guardedExtents (s : Dev) : List Extent :=
  ((List.range 16).filter fun p => s.poolEn p && guarded (s.poolCls p) && !s.poolAs p).map fun p =>
    { base := s.poolBase p, len := s.poolCount p * s.poolSize p, cls := s.poolCls p }

/-- All usable DRAM, read as CONTROL while it is zeroised. -/
def allDram : Extent := { base := 0, len := 2 ^ 40, cls := 4 }

/-- What is to be zeroised after a reset of the code (R401, R420). -/
def Dev.zeroAfter (s : Dev) (code : Nat) : List Extent :=
  if code = 1 ∨ code = 8 then
    (if s.enforcing || s.sec.sealPending then [allDram] else [])
  else if s.boot.zero ≠ [] ∧ (code = 2 ∨ code = 7) then [allDram]
  else s.boot.zero ++ (if s.enforcing then s.guardedExtents else [])

/-- Configuration space after a reset: PME bits are sticky; error logging is sticky across a hot reset and an FLR; an FLR keeps
the payload size, the link controls and the BAR size (PRESUMED, notes/assumptions/7). -/
def cfgAfter (cfg : Tab Word) (code : Nat) (aonKept : Bool) : Tab Word :=
  let pme := (Tab.get cfgReset cfg 0x11) &&& 0x8100
  let kept := cfg.filter fun x =>
    (x.1 < 1024) && ((code != 1 && code != 2 && code != 8 && decide (0x41 ≤ x.1) && decide (x.1 ≤ 0x4D)) ||
      (code == 5 && (x.1 == 0x1C || x.1 == 0x6C)))
  let kept := if code = 5 then
      Tab.set cfgReset kept 0x1A (((Tab.get cfgReset cfg 0x1A) &&& 0xE0) ||| (cfgReset 0x1A &&& ~~~0xE0))
    else kept
  if (code = 1 ∨ code = 8) ∧ aonKept = false then kept else Tab.set cfgReset kept 0x11 (cfgReset 0x11 ||| pme)

/-- The endpoint after a reset of codes 1 to 5: outstanding reads fail with their contexts, the posted queue and every line
are gone (R72, R74, R109). -/
def Hif.afterReset (h : Hif) (code : Nat) (aonKept : Bool) : Hif :=
  { cfg := cfgAfter h.cfg code aonKept, rrs := code = 1 ∨ code = 2 ∨ code = 5 ∨ code = 8 }

/-- The endpoint after a unit soft reset, which does not reach it: reads of contexts are nobody's any more. -/
def Hif.orphan (h : Hif) : Hif :=
  { h with reads := h.reads.map fun r => { r with for_ := .dead }, tagQ := [], waitQ := [], dbLatch := [] }

/-- A link layer after a reset of codes 3 to 6 keeps everything; one of codes 1, 2 and 7 is new (R419). -/
def Chain.afterReset (c : Chain) (code : Nat) (aonKept : Bool) : Chain :=
  if code = 1 ∨ code = 8 then (if aonKept then { res := c.res } else {})
  else if code = 2 ∨ code = 7 then
    { res := c.res, addressed := c.addressed, mgrSerial := c.mgrSerial, polls := c.polls
      own := if c.own = .absent then .absent else .quarantine }
  else { c with txNext := [], rxNext := [], out := [], wait := [], early := [], applied := [] }

/-- The unit after a reset of the code (R39, R418, R420): registers, tables, queues, engines, activation stores. -/
def Dev.resetUnit (s : Dev) (code : Nat) : Dev :=
  let boots := code = 1 ∨ code = 2 ∨ code = 7 ∨ code = 8
  let zero := s.zeroAfter code
  let sec := { s.sec with dbgLevel := 0, nonce := [], unlocking := none, fumForce := false, tap := false
                          audit := s.sec.audit + (if s.sec.dbgLevel = 0 then 0 else 1) }
  let sec := if code = 1 ∨ code = 8 then
      { sec with
        lc := if sec.sealPending then .sealed else sec.lc, audit := sec.audit + bN sec.sealPending, sealPending := false, refuse := 0, unlocks := 0, ventBlocks := 0
        evLoaded := sec.evFused, kekLoaded := sec.kekFused, keysLocked := false }
    else sec
  let boot : Boot := { powered := true, perst := s.boot.perst, aonKept := false, sampled := s.boot.sampled && code != 1 && code != 8
                       codecOk := !boots && s.boot.codecOk
                       zero, wakeLow := s.boot.wakeLow, pmePend := s.boot.pmePend
                       dramFail := s.boot.dramFail, startNs := if code = 1 ∨ code = 8 then 0 else if boots then s.ns else s.boot.startNs
                       started := if boots then false else s.boot.started }
  let onlyNew := code = 1 ∨ code = 8
  let s' : Dev := (s.resetRegs code).resetCause code
  let s' : Dev := { s' with
    staged := [], lost := [], ctxs := [], slots := [], eng := {}, as := [], asMarks := [], vent := {}
    hif := if code = 7 then s.hif.orphan else if code = 6 then s.hif else s.hif.afterReset code s.boot.aonKept
    bpm := s.bpm.afterReset code
    ras := { table := if onlyNew then [] else s.ras.table, passStart := if onlyNew then 0 else s.ns }
    chain := s.chain.afterReset code s.boot.aonKept
    glk0 := if boots then {} else s.glk0, glk1 := if boots then {} else s.glk1
    sec, boot
    pwr := if boots then { tripped := s.pwr.tripped } else s.pwr
    mctp := if boots then {} else s.mctp
    mgmt := { s.mgmt with wdtAt := if boots then [] else s.mgmt.wdtAt, updBusy := s.mgmt.updBusy && !boots }
    tim := {}
    shop := if onlyNew then 0 else s.shop
    dram := if onlyNew then [] else s.dram, marks := if onlyNew then [] else s.marks }
  let s' := if onlyNew then s' else s'.setReg R.rasRetireCnt (Word.ofNat s'.ras.table.length)
  let s' := if s.tim.high then s'.emit (.pin .syncOut false) else s'
  if zero = [] then s' else s'.setRb R.topStat 4 true

/-! ### Chain reset (R418, R419) -/

/-- The manager sends a chain reset to every worker in QUARANTINE or JOINED and awaits their acknowledgements. -/
def Dev.sendChainReset (s : Dev) : Dev :=
  let l := s.workers
  let s := l.foldl (fun s u => s.fwSend u .chainReset) s
  { s with chain := { s.chain with txNext := [], rxNext := [], out := [], wait := [], early := [], applied := [] }
           boot := { s.boot with chainWait := l } }

/-- A reset of the manager of codes 2 to 5 and 7: the chain reset goes out, then the unit resets. -/
def Dev.mgrReset (s : Dev) (code : Nat) : Dev :=
  let s := s.sendChainReset
  let l := s.boot.chainWait
  let s := s.resetUnit code
  { s with boot := { s.boot with chainWait := l } }

/-- CHAIN_RESET (R419): a worker resets under code 6, and acknowledges. -/
def Dev.chainReset (s : Dev) : Dev := if s.isMgr then s else (s.resetUnit 6).fwSend 0 .chainResetAck

def execChainReset (s : State) : Host.Outcome State Fault Refusal := .next { s with toDev := s.toDev.chainReset }

/-- A reset under way with a lower code absorbs this one (R418): PERST_N holds, or a PF FLR has not ended. -/
def Dev.absorbs (s : Dev) (code : Nat) : Bool := s.boot.perst || (s.rb R.hifFlrStat 0 && decide (5 ≤ code))

/-- HOT_RESET (R418). -/
def execHotReset (s : State) : Host.Outcome State Fault Refusal :=
  .next { s with toDev := if s.toDev.isMgr && !s.toDev.absorbs 3 then s.toDev.mgrReset 3 else s.toDev }

/-- PCIE_LINK_DOWN (R74): outside D3cold, as a hot reset; HIF_LINK_STAT reads a link that is down. -/
def execPcieLinkDown (s : State) : Host.Outcome State Fault Refusal :=
  .next { s with toDev := if s.toDev.isMgr && !s.toDev.absorbs 4 && s.toDev.boot.powered then
    (s.toDev.mgrReset 4).irq 0x6000 1 else s.toDev }

/-- PF_FLR (R72, R418): the manager resets under code 5; configuration requests get RRS until it is done. -/
def Dev.pfFlr (s : Dev) : Dev :=
  if s.isMgr && !s.absorbs 5 then (s.mgrReset 5).setRb R.hifFlrStat 0 true else s

def execPfFlr (s : State) : Host.Outcome State Fault Refusal := .next { s with toDev := s.toDev.pfFlr }

/-- PF_FLR_DONE (R72). -/
def Dev.pfFlrDone (s : Dev) : Dev :=
  if s.rb R.hifFlrStat 0 then
    ({ s with hif := { s.hif with rrs := false } } : Dev).setRb R.hifFlrStat 0 false
  else s

def execPfFlrDone (s : State) : Host.Outcome State Fault Refusal := .next { s with toDev := s.toDev.pfFlrDone }

/-! ### VF FLR (R73) -/

/-- The contexts of VF `n`. -/
def Dev.ctxsOfVf (s : Dev) (n : Nat) : List Nat := (s.vfCtxs n).filter (· != 0)

/-- VF_FLR (R73, R345): the VF's contexts are torn down like by a reset, nothing more reaches the VF, and its MSI-X table and
PCIe control registers reset. -/
def Dev.vfFlr (s : Dev) (n : Nat) : Dev :=
  if !s.isMgr || !s.vfOn n || s.inFlr n then s
  else
    let s := s.setRb R.hifFlrStat n true
    let s := (s.ctxsOfVf n).foldl (fun s c =>
      let live := s.ctxSt c == 1 || s.ctxSt c == 2
      let s := if live then s.ctxCtlWrite .mgmt c 2 else s
      s.setCtx c { s.ctx c with flr := true }) s
    let hif := { s.hif with
      cfg := s.hif.cfg.filter fun x => x.1 / 1024 != n
      msixTab := s.hif.msixTab.filter fun x => x.1 / 1024 != n
      pba := s.hif.pba.filter (·.1 != n)
      ahead := s.hif.ahead.map fun r => { r with lines := r.lines.filter (·.fn != n) }
      waitQ := s.hif.waitQ.filter fun o => match o with
        | .wr f _ _ => f != n
        | .msg f _ => f != n
        | .rd r => r.fn != n
      tagQ := s.hif.tagQ.filter (·.fn != n)
      reads := s.hif.reads.map fun r => if r.fn = n then { r with for_ := .dead } else r }
    { s with hif }

def execVfFlr (n : Nat) (s : State) : Host.Outcome State Fault Refusal := .next { s with toDev := s.toDev.vfFlr n }

/-- VF_RESET_DONE (R73): the VF's context pages reset, HIF_VF_DONE is set and the PF receives VF_RESET_DONE. -/
def Dev.vfResetDone (s : Dev) (n : Nat) : Dev :=
  if n = 0 || !s.inFlr n then s
  else
    let s := (s.ctxsOfVf n).foldl (fun s c =>
      let staged := s.staged.filter (·.ring != c)
      let regs := s.regs.filter fun x => !(decide (ctxPage c ≤ x.1) && decide (x.1 < ctxPage c + 0x4000))
      { (s.setCtx c {}) with staged, regs, lost := Tab.del c s.lost }) s
    let s := ((s.setRb R.hifFlrStat n false).setRb R.hifVfDone n true).irq 0x6000 0
    s.raise { nm := .vfResetDone, blk := 7, d0 := n }

def execVfResetDone (n : Nat) (s : State) : Host.Outcome State Fault Refusal := .next { s with toDev := s.toDev.vfResetDone n }

end Sys2Proof.Machine
end

