-- ==== Sys2Proof/Machine/Freq.lean ====
section
/-! DEFINITION. Clock islands: domains, ceilings by level, supply limits, and a change of frequency (R13, R14, R24, R386, R387). -/

namespace Sys2Proof.Machine

/-- The programmable domain of an island: 0 CCLK, 1 VCLK, 2 PCLK; 3 a fixed one (R13, R14). -/
def domOf (i : Nat) : Nat := if i < 16 then 0 else if i = 21 then 1 else if i = 22 then 2 else 3

/-- An island may be gated in D0 (R14). -/
def gateable (i : Nat) : Bool := decide (i < 19) || i == 21 || i == 22

/-- A request of `f` MHz lies in the domain's range and step (R13). -/
def freqOk (d f : Nat) : Bool :=
  match d with
  | 0 => decide (100 ≤ f) && decide (f ≤ 1200) && f % 25 == 0
  | 1 => decide (200 ≤ f) && decide (f ≤ 800) && f % 50 == 0
  | 2 => decide (250 ≤ f) && decide (f ≤ 1000) && f % 50 == 0
  | _ => false

/-- The ceiling of a domain at level `k` (R386). -/
def ceilOf (d k : Nat) : Nat :=
  match d with
  | 0 => if k ≤ 8 then 1200 - 50 * k else 800 - 100 * (k - 8)
  | 1 => if k ≤ 8 then 800 else max 200 (800 - 100 * (k - 8))
  | _ => if k ≤ 8 then 1000 else 1000 - 100 * (k - 8)

/-- The highest frequency of a domain under a VSEL (R387). -/
def vselMax (d v : Nat) : Nat :=
  match d with
  | 0 => [600, 900, 1200].getD v 1200
  | 1 => [400, 600, 800].getD v 800
  | _ => [500, 750, 1000].getD v 1000

/-- The lowest VSEL that supports a frequency (R387). -/
def vselFor (d f : Nat) : Nat := if f ≤ vselMax d 0 then 0 else if f ≤ vselMax d 1 then 1 else 2

/-- The effective level (R386). -/
def Dev.level (s : Dev) : Nat := max s.pwr.gov (max s.pwr.therm (s.rf R.pwrLvlMin 0 4))

/-- PWR_CTL.GOV_EN. -/
def Dev.govEn (s : Dev) : Bool := s.rb R.pwrCtl 0

/-- The frequency at which an island of a programmable domain is to run: its request under the ceiling, and in Fumarole CCLK at
most 200 MHz and PCLK 250 MHz (R385, R386). A debug session's FUM_FORCE changes no frequency. -/
def Dev.freqWant (s : Dev) (i : Nat) : Nat :=
  let d := domOf i
  let f := min (s.rf (R.clkIslFreq i) 0 11) (ceilOf d s.level)
  if s.pwr.fum then (if d = 0 then min f 200 else if d = 2 then 250 else f) else f

/-- The frequency of an island of a fixed domain in MHz (R13); MCLK follows the data rate that training selected (R138). -/
def Dev.fixedMhz (s : Dev) (i : Nat) : Nat :=
  if i = 16 then 1000 else if i = 17 ∨ i = 18 ∨ i = 24 then 500 else if i = 23 then 600 else if i = 25 then 25
  else [533, 687, 800, 937, 1066].getD (s.rf (R.memcCfg 0) 0 4) 0

/-- Island `i` runs: its MODE reads on. -/
def Dev.islRuns (s : Dev) (i : Nat) : Bool := s.rf (R.pwrIslCtl i) 4 2 == 1

/-- An island that runs at another frequency than it is to stops its clock to retune (R24); its supply is raised first (R387). -/
def Dev.retune (s : Dev) (i : Nat) : Dev :=
  let f := s.freqWant i
  if domOf i = 3 ∨ s.islRuns i = false ∨ s.rf (R.clkIslStat i) 4 12 = f then s
  else
    let v := vselFor (domOf i) f
    let s := if s.govEn && decide (s.rf (R.pwrIslCtl i) 2 2 < v) then s.setRf (R.pwrIslCtl i) 2 2 v else s
    s.setRb (R.clkIslStat i) 0 false

/-- Every affected island follows a change of level or limit (R386). -/
def Dev.retuneAll (s : Dev) : Dev := (List.range 26).foldl (fun (s : Dev) i => s.retune i) s

/-- The island's clock runs: LOCKED, the frequency, and the supply lowered to what it needs. -/
def Dev.relock (s : Dev) (i : Nat) : Dev :=
  if domOf i = 3 then s.setRb (R.clkIslStat i) 0 true
  else
    let f := s.freqWant i
    let s := (s.setRb (R.clkIslStat i) 0 true).setRf (R.clkIslStat i) 4 12 f
    if s.govEn then s.setRf (R.pwrIslCtl i) 2 2 (vselFor (domOf i) f) else s

/-- ISLAND_RELOCK: the synthesiser has locked. -/
def execIslandRelock (isl : Nat) (s : State) : Host.Outcome State Fault Refusal :=
  .next { s with toDev := if isl < 26 ∧ s.islRuns isl = true ∧ s.rb (R.clkIslStat isl) 0 = false then s.toDev.relock isl else s.toDev }

/-- CLK_ISL_FREQ (R13, R387): a request off the range or step, or beyond what software's VSEL supports, is refused. -/
def Dev.freqWrite (s : Dev) (i : Nat) (v : Word) : Dev :=
  let d := domOf i
  let f := v.fld 0 11
  if 26 ≤ i ∨ d = 3 then s
  else
    let bad := !freqOk d f || (!s.govEn && decide (vselMax d (s.rf (R.pwrIslCtl i) 2 2) < f))
    let s := s.setRb (R.clkIslStat i) 1 bad
    if bad then s else (s.setReg (R.clkIslFreq i) (Word.ofNat f)).retune i

/-- PWR_STAT shows the levels, CAP_UNMET and the state; a change of the state sets BLK_IRQ_STAT bit 0 (R385). -/
def Dev.pwrShow (s : Dev) : Dev :=
  let lv := s.level
  let st := if s.inD3 || s.chain.asleep && !s.isMgr then 3 else if s.pwr.fum then 2 else if lv = 0 then 0 else 1
  let unmet := s.pwr.gov == 15 && decide (s.rf R.pwrCap 0 10 * 250 < s.rf R.pwrPower 0 18)
  let old := s.reg R.pwrStat
  let s := s.setReg R.pwrStat (Word.ofNat (st + lv * 16 + s.pwr.gov * 2 ^ 8 + s.pwr.therm * 2 ^ 12 + bN unmet * 2 ^ 16
    + old.fld 17 2 * 2 ^ 17))
  let s := if old.fld 0 3 = st then s else s.irq 0x2000 0
  s.ltrUpdate

end Sys2Proof.Machine
end

