-- ==== Sys2Proof/Machine/Boot.lean ====
section
/-! DEFINITION. Power-on, straps, PERST_N, the boot of the manager and of a worker, DRAM training, zeroisation, the unit soft
reset (R152, R418-R426, R439). -/

namespace Sys2Proof.Machine

/-! ### Image slots (R423) -/

/-- Slot `k` of the flash: 0 A, 1 B. -/
def Mgmt.slot (m : Mgmt) (k : Nat) : Flash := if k = 0 then m.slotA else m.slotB

/-- Set slot `k`. -/
def Mgmt.setSlot (m : Mgmt) (k : Nat) (f : Flash) : Mgmt := if k = 0 then { m with slotA := f } else { m with slotB := f }

/-- The slots in the order the boot ROM tries them. -/
def Mgmt.order (m : Mgmt) (alt : Bool) : List Nat :=
  let is := fun (st : SlotSt) => [0, 1].filter fun k => (m.slot k).st == st
  let pend := is .pending
  let act := is .active
  let other := [0, 1].filter fun k => (m.slot k).st == .fallback || ((m.slot k).st == .pending && !pend.contains k)
  pend ++ (if alt then other ++ act else act ++ other)

/-- TOP_STAT.BOOT. -/
def Dev.setBoot (s : Dev) (n : Nat) : Dev := s.setRf R.topStat 0 3 n

/-- A GLK port that is enabled starts training (R367). -/
def Dev.glkTrain (s : Dev) (p : Nat) : Dev := if s.rb (R.glkCtl p) 0 then s.setRf (R.glkStat p) 0 2 1 else s

/-- Every channel's training has ended. -/
def Dev.trained (s : Dev) : Bool := (List.range 8).all fun k => s.rb (R.memcTrainStat k) 0

/-- The manager reaches READY when its image runs, or in RECOVERY, and training has ended (R422): readiness, the HIF's
isolation released, the retirement table restored, the blocks enabled, the trip reported (R393). -/
def Dev.checkReady (s : Dev) : Dev :=
  let rec_ := s.rf R.topStat 0 3 == 5
  if !s.isMgr || s.boot.perst || s.rb R.topStat 3 || !s.trained || !(s.rb R.mgmtStat 2 || rec_) || s.rb R.topStrap 8 then s
  else
    let s := if rec_ then s else s.setBoot 4
    let s := (s.setRb R.topStat 3 true).setReg R.topBootMs (Word.ofNat ((s.ns - s.boot.startNs) / 1000000))
    let s := s.setRb R.nocPortIso 16 false
    let s := ({ s with hif := { s.hif with rrs := false } } : Dev).setTable s.mgmt.stored
    let s := (s.setReg R.rasRetireCnt (Word.ofNat s.ras.table.length)).irq 0 0
    let s := (s.glkTrain 0).glkTrain 1
    if s.rf R.topRstCause 0 4 = 8 ∧ rec_ = false then
      s.raise { nm := .thermalTrip, blk := 3, d0 := s.rf R.pwrTripRec 1 5, d1 := s.rf R.pwrTripRec 16 16 }
    else s

/-- The boot ROM takes the next slot to try, or enters RECOVERY (R423). -/
def Dev.nextSlot (s : Dev) : Dev :=
  match (s.mgmt.order (s.rb R.topStrap 7)).find? fun k => !s.boot.tried.contains k with
  | some k => ({ s with boot := { s.boot with trying := some k, tried := s.boot.tried ++ [k] } } : Dev).setBoot 1
  | none => (({ s with boot := { s.boot with trying := none } } : Dev).setBoot 5).checkReady

/-- The manager's boot starts (R422); with TEST_MODE the unit boots nothing and reads RECOVERY (R421). -/
def Dev.startBoot (s : Dev) : Dev :=
  let s : Dev := { s with boot := { s.boot with trying := none, tried := [], started := false, startNs := s.ns } }
  if s.rb R.topStrap 8 then s.setBoot 5 else s.nextSlot

/-- FW_AUTH_FAIL (R403): 0 management or 1 codec, slot, reason; an audit entry. -/
def Dev.authFail (s : Dev) (what slot reason : Nat) : Dev :=
  let s := s.irq 0x3000 16
  let s : Dev := { s with sec := { s.sec with audit := s.sec.audit + 1 } }
  s.raise { nm := .fwAuthFail, blk := 4, d0 := what, d1 := slot, d2 := s.addr, d3 := reason }

/-- Codec firmware is loaded into VDEC0 to VDEC3 and VENC when it verifies under its floor (R403). -/
def Dev.loadCodec (s : Dev) (img : ImageCheck) (slot : Nat) : Dev :=
  if img.codec && decide (s.sec.floorC ≤ img.codecSvn) then
    let ver := Word.ofNat (Config.freeNat 40 img.version)
    let s : Dev := { s with boot := { s.boot with codecOk := true }, sec := { s.sec with runC := img.codecSvn } }
    let s := [0, 1, 2, 3].foldl (fun s k => (s.setReg (R.vdecFwVer k) ver).irq (0x40000 + 0x1000 * k) 0) s
    s.setReg R.vencFwVer ver
  else s.authFail 1 slot (if img.codec then 2 else img.reason)

/-- The image of the slot that is tried runs: its numbers are recorded, RUNNING and what it does to the slots when its
firmware comes up (R423, R403). -/
def Dev.runImage (s : Dev) (img : ImageCheck) (slot : Nat) : Dev :=
  let s := (s.setReg R.mgmtFwVer (Word.ofNat img.version)).setRb R.topStat 6 (slot == 1)
  let s : Dev := { s with
    sec := { s.sec with runM := img.mgmtSvn, revokeMask := img.revoke, signSlot := img.signSlot }
    boot := { s.boot with started := true }, mgmt := { s.mgmt with running := slot } }
  if !img.runs then s
  else
    let s := (s.setRb R.mgmtStat 2 true).setRf R.mgmtStat 0 2 0
    let m := s.mgmt
    let m := if (m.slot slot).st = .pending then
        let o := 1 - slot
        let m := if (m.slot o).st = .active then m.setSlot o { m.slot o with st := .fallback } else m
        m.setSlot slot { m.slot slot with st := .active }
      else m
    let s := (({ s with mgmt := m } : Dev).setBoot 2).loadCodec img slot
    s.checkReady

/-- The image check of R403 passes. -/
def Dev.imageOk (s : Dev) (img : ImageCheck) : Bool := img.ok && decide (s.sec.floorM ≤ img.mgmtSvn)

/-- IMAGE_VERIFIED (R423, R403): the manager's ROM runs the slot's image, or marks the slot FAILED and tries the next. A worker
runs the manager's bundle, or reports the failure and stays in QUARANTINE (R426). -/
def Dev.imageVerified (s : Dev) (img : ImageCheck) : Dev :=
  if s.isMgr then
    match s.boot.trying with
    | none => s
    | some k =>
      if s.imageOk img then s.runImage img k
      else
        let s : Dev := { s with mgmt := s.mgmt.setSlot k { s.mgmt.slot k with st := .failed } }
        (s.authFail 0 k (if img.ok then 2 else img.reason)).nextSlot
  else if s.imageOk img then s.runImage img 0
  else s.authFail 0 0 (if img.ok then 2 else img.reason)

/-- SLOT_RUNNING_TIMEOUT (R423): the firmware of the started slot has not set RUNNING; the slot fails. -/
def Dev.slotTimeout (s : Dev) : Dev :=
  match s.boot.trying with
  | some k =>
    if s.isMgr && s.boot.started && !s.rb R.mgmtStat 2 then
      ({ s with mgmt := s.mgmt.setSlot k { s.mgmt.slot k with st := .failed }
                boot := { s.boot with started := false }, sec := { s.sec with audit := s.sec.audit + 1 } } : Dev).nextSlot
    else s
  | none => s

def execSlotRunningTimeout (s : State) : Host.Outcome State Fault Refusal := .next { s with toDev := s.toDev.slotTimeout }

/-! ### DRAM training (R152) -/

/-- MEMC_TRAINING_DONE (R152): a failed channel sets FAIL and DRAM_FAIL; the event waits for a context that takes DEV_EVENTS
(R422). A worker's firmware then restores its retirement table (R426). -/
def Dev.training (s : Dev) (ch rate cap ranks : Nat) (ok : Bool) : Dev :=
  if 8 ≤ ch then s
  else
    let s := s.setReg (R.memcCfg ch) (Word.ofNat (rate % 16 + cap % 16 * 16 + ranks % 2 * 256 + bN ok * 512))
    let n := s.rf (R.memcTrainStat ch) 8 8
    let s := s.setReg (R.memcTrainStat ch) (Word.ofNat (1 + bN (!ok) * 2 + satAdd 255 n 1 * 256))
    let s :=
      if ok then s
      else
        let s := (s.setRb R.rasStat 3 true).irq (memcPage ch) 17
        if s.devHolder.isSome || !s.isMgr then
          s.raise { nm := .dramFail, blk := 0xA, d0 := ((List.range 8).map fun k => bN (s.rb (R.memcTrainStat k) 1) * 2 ^ k).sum }
        else { s with boot := { s.boot with dramFail := true } }
    if s.isMgr then s.checkReady
    else if s.trained then (s.setTable s.mgmt.stored).setReg R.rasRetireCnt (Word.ofNat s.mgmt.stored.length)
    else s

def execMemcTrainingDone (ch rate cap ranks : Nat) (ok : Bool) (s : State) : Host.Outcome State Fault Refusal :=
  .next { s with toDev := s.toDev.training ch rate cap ranks ok }

/-! ### Zeroisation (R420, R414) -/

/-- ZERO_DONE (R420): the extents hold zeros, ZEROING clears, and the pool enables that waited are carried out. -/
def Dev.zeroDone (s : Dev) : Dev :=
  if s.boot.zero = [] then s
  else
    let s := s.boot.zero.foldl (fun s e => s.memZero e.base e.len) s
    let wait := s.boot.waitEn
    let s : Dev := { s with boot := { s.boot with zero := [], waitEn := [] } }
    let s := (s.setRb R.topStat 4 false).irq 0 1
    wait.foldl (fun s e => s.poolEnable e.1 e.2) s

def execZeroDone (s : State) : Host.Outcome State Fault Refusal := .next { s with toDev := s.toDev.zeroDone }

/-! ### Power, straps, PERST_N (R418, R421, R422, R439) -/

/-- POWER_ON (R418): code 1, or 8 after a thermal trip. -/
def Dev.powerOn (s : Dev) : Dev :=
  let s := s.resetUnit (if s.pwr.tripped then 8 else 1)
  { s with boot := { s.boot with perst := true }, pwr := {} }

def execPowerOn (s : State) : Host.Outcome State Fault Refusal := .next { s with toDev := s.toDev.powerOn }

/-- Islands run: PWR_ISL_CTL.MODE reads on, and their clocks are locked; a worker's HIF stays gated (R14). After a thermal trip they
stay off (R393). -/
def Dev.islandsOn (s : Dev) : Dev :=
  if s.pwr.tripped then s
  else (List.range 26).foldl (fun (s : Dev) i =>
    if i = 16 ∧ s.isMgr = false then
      ((s.setRb (R.pwrIslCtl i) 0 false).setRf (R.pwrIslCtl i) 4 2 0).setRf (R.clkIslStat i) 4 12 0
    else (s.setRf (R.pwrIslCtl i) 4 2 1).relock i) s

/-- STRAP_SAMPLE (R421): once per power-on. A worker's boot ROM enables its GLK ports (R426). -/
def Dev.strapSample (s : Dev) (straps : Word) : Dev :=
  if s.boot.sampled then s
  else
    let s := s.setReg R.topStrap (Word.ofNat (straps.fld 0 9))
    let s : Dev := { s with boot := { s.boot with sampled := true } }
    let s := s.islandsOn
    if straps.bit 8 then s.setBoot 5
    else if s.isMgr then
      let s := s.setRb R.chainStat 4 true
      { s with chain := { s.chain with addressed := true, own := .joined, mgrSerial := s.sec.serial } }
    else (s.glkTrain 0).glkTrain 1

def execStrapSample (straps : Word) (s : State) : Host.Outcome State Fault Refusal :=
  .next { s with toDev := s.toDev.strapSample straps }

/-- PERST_N_ASSERT (R418): ignored on workers and while it is asserted already. -/
def Dev.perstAssert (s : Dev) : Dev :=
  if s.isMgr && s.boot.powered && !s.boot.perst then
    let s := s.mgrReset 2
    { s with boot := { s.boot with perst := true } }
  else s

def execPerstNAssert (s : State) : Host.Outcome State Fault Refusal := .next { s with toDev := s.toDev.perstAssert }

/-- PERST_N_RELEASE (R422, R70): the boot starts; WAKE_N is let go, and a wake's PM_PME follows once the link is up. -/
def Dev.perstRelease (s : Dev) : Dev :=
  if s.isMgr && s.boot.perst && s.boot.powered then
    let s : Dev := { s with boot := { s.boot with perst := false } }
    let s :=
      if s.boot.wakeLow then
        (({ s with boot := { s.boot with wakeLow := false, pmePend := true } } : Dev).emit (.pin .wakeN true)).setRb
          R.hifPmStat 2 true
      else s
    let s := s.islandsOn.setRb R.chainStat 4 true
    let s : Dev := { s with chain := { s.chain with addressed := true, own := .joined, mgrSerial := s.sec.serial } }
    s.startBoot
  else s

def execPerstNRelease (s : State) : Host.Outcome State Fault Refusal := .next { s with toDev := s.toDev.perstRelease }

/-- MAIN_RAIL_LOSS (R439, R416): every island but always-on is switched off; a debug session ends at CLOSED. -/
def Dev.railLoss (s : Dev) : Dev :=
  let audit := s.sec.audit + (if s.sec.dbgLevel = 0 then 0 else 1)
  let s : Dev := { s with
    boot := { s.boot with powered := false, aonKept := true }
    sec := { s.sec with dbgLevel := 0, nonce := [], tap := false, fumForce := false, audit } }
  let s := (List.range 25).foldl (fun (s : Dev) i => (s.setRf (R.pwrIslCtl i) 4 2 0).setRf (R.clkIslStat i) 4 12 0) s
  (s.setRf (R.glkStat 0) 0 2 0).setRf (R.glkStat 1) 0 2 0

def execMainRailLoss (s : State) : Host.Outcome State Fault Refusal := .next { s with toDev := s.toDev.railLoss }

/-- STANDBY_POWER_LOSS (R375, R399): the always-on island loses what it keeps, the reservation table among it. -/
def Dev.standbyLoss (s : Dev) : Dev :=
  let s := s.railLoss
  let regs := s.regs.filter fun x => !isAon x.1
  { s with regs, boot := { s.boot with aonKept := false, wakeLow := false }, chain := { s.chain with res := [] } }

def execStandbyPowerLoss (s : State) : Host.Outcome State Fault Refusal := .next { s with toDev := s.toDev.standbyLoss }

/-! ### Unit soft reset, chain reset by register (R418, R419) -/

/-- Whether a context other than 0 has a slot on this unit. -/
def Dev.slotsUsed (s : Dev) : Bool := s.slots.any fun x => x.2 != 0

/-- UNIT_SRST (R418, R419): the manager resets under code 7 and boots; a worker refuses while contexts have slots on it, and
otherwise re-enters QUARANTINE. -/
def Dev.unitSrst (s : Dev) : Dev :=
  let s := s.setRb R.topStat 5 false
  if s.isMgr then
    if s.absorbs 7 then s
    else
      let s := (s.mgrReset 7).islandsOn
      let s : Dev := { s with chain := { s.chain with addressed := true, own := .joined } }
      s.startBoot
  else if s.slotsUsed then (s.setRb R.topStat 5 true).irq 0 16
  else
    let s := ((s.fwSend 0 .requarantine).resetUnit 7).islandsOn
    (s.glkTrain 0).glkTrain 1

def execUnitSrst (s : State) : Host.Outcome State Fault Refusal := .next { s with toDev := s.toDev.unitSrst }

/-- CHAIN_RST (R418): ignored on workers. -/
def execChainRst (s : State) : Host.Outcome State Fault Refusal :=
  .next { s with toDev := if s.toDev.isMgr then s.toDev.sendChainReset else s.toDev }

end Sys2Proof.Machine
end

