-- ==== Sys2Proof/Machine/Eng.lean ====
section
/-! DEFINITION. What the engines share: whether a block runs, durations, pictures in DRAM (R170), and polling of
allocations. -/

namespace Sys2Proof.Machine

/-- The island of a page. -/
def islOf (page : Nat) : Nat := ((pageAt page).map (·.isl)).getD 23

/-- Island `i` is powered (PWR_ISL_CTL.STATE reads on) and its port is not isolated (R14, R25). -/
def Dev.islOn (s : Dev) (i : Nat) : Bool := s.rf (R.pwrIslCtl i) 4 2 == 1 && !s.rb R.nocPortIso i

/-- The port of core island `k` is isolated (R25). -/
def Dev.coreIso (s : Dev) (k : Nat) : Bool := s.rb R.nocPortIso k

/-- A request on VC 0 or VC 2 reaches an isolated port: ISO_ACCESS (R25). -/
def Dev.isoHit (s : Dev) : Dev := s.setRb R.nocErrStat 1 true

/-- The buffer of a handle lies in the AS of a core whose port is isolated. -/
def Dev.bufIso (s : Dev) (h : Nat) : Bool := s.poolAs (hPool h) && s.coreIso (s.poolCore (hPool h))

/-- ISO_ACCESS, when a job names a buffer behind an isolated port. -/
def Dev.isoMark (s : Dev) (hs : List Nat) : Dev := if hs.any s.bufIso then s.isoHit else s

/-- A block starts work: its island is on, and it is neither in soft reset nor asked to quiesce (R25, R37, R38). -/
def Dev.blkRuns (s : Dev) (page : Nat) : Bool :=
  s.islOn (islOf page) && !s.rb (page + R.ctl) 1 && !s.rb (page + R.ctl) 2

/-- A performance counter of cycles advances by a number that the model does not compute (notes/assumptions/10). -/
def Dev.perfCycles (s : Dev) (page i : Nat) : Dev := let (v, s) := s.draw 60; s.perf page i v

/-- The performance counters of a page that count cycles, network flits, row hits or link replays: no step computes them
(notes/assumptions/10). -/
def timedPerf (page : Nat) : List Nat :=
  let p := page / 0x1000
  if 0x100 ≤ p ∧ p < 0x200 then (match p % 16 with | 0 => [1, 2, 3] | 2 => [4] | 4 => [3] | _ => [])
  else if p = 6 then [4]
  else if 0x20 ≤ p ∧ p < 0x28 then [3, 4]
  else if p = 0x30 then [0, 1, 2, 3, 4]
  else if p = 0x48 ∨ p = 0x60 ∨ p = 0x68 then [3]
  else []

/-- The cycle counters of a page take in what has passed since they were last looked at; PERF_FREEZE holds them (R33). -/
def Dev.perfCatchUp (s : Dev) (page : Nat) (l : List Nat) : Dev := l.foldl (fun (s : Dev) i => s.perfCycles page i) s

/-- A "longest since the last read" register takes in a duration that the model does not compute (notes/assumptions/10). -/
def Dev.maxCycles (s : Dev) (off : Nat) : Dev := let (v, s) := s.draw 61; s.maxReg off (v % 2 ^ 32)

/-- Poll an allocation: an answered wait becomes a handle or a failure. -/
def Dev.poll (s : Dev) (w : Want) : Want × Option Status × Dev :=
  match w with
  | .wait tag =>
    let (a, s) := s.takeAnswer tag
    match a with
    | none => (w, none, s)
    | some (st, h) => if st.nm = .success then (.got h, none, s) else (.failed, some st, s)
  | _ => (w, none, s)

/-- Ask for a buffer as requester `rq`, blocking (R125). -/
def Dev.want (s : Dev) (rq c p : Nat) : Want × Dev :=
  let (tag, s) := s.newTag
  (.wait tag, s.engAlloc rq c p true tag)

/-- The event of a refused allocation, class 1, naming the context (R131, R159). -/
def Dev.bpmWarn (s : Dev) (st : Status) (c pool rq : Nat) : Dev := s.bpmEvent st.nm (some c) pool rq 0

/-! ### Pictures (R170-R172) -/

/-- `n` rounded up to a multiple of `k`. -/
def roundUp (n k : Nat) : Nat := (n + k - 1) / k * k

/-- Pitch of a picture of width `w`: FMT 0 NV12, 1 P010. -/
def pitchOf (fmt w : Nat) : Nat := roundUp (if fmt = 0 then w else 2 * w) 64

/-- Bytes of a picture. -/
def picBytes (fmt w h : Nat) : Nat := pitchOf fmt w * h * 3 / 2

/-- A decoded picture's planes, row by row: luma, and interleaved Cb, Cr. -/
structure Planes where
  y : List (List Nat)
  c : List (List Nat)
  deriving DecidableEq, Repr

/-- A sample's bytes: one in NV12, in P010 a word with the sample in [15:6]. -/
def sampleBytes (fmt v : Nat) : List Byte := if fmt = 0 then [BitVec.ofNat 8 v] else bytesOf 2 (v * 64)

/-- Write the rows of a plane from address `a`. -/
def Dev.putRows (s : Dev) (c a pitch fmt : Nat) (rows : List (List Nat)) : Dev :=
  ((List.range rows.length).zip rows).foldl (fun s r => s.memWr c (a + r.1 * pitch) (r.2.flatMap (sampleBytes fmt)) false) s

/-- Write a picture at address `a` in its layout (R170). -/
def Dev.putPic (s : Dev) (c a fmt w h : Nat) (p : Planes) : Dev :=
  let pitch := pitchOf fmt w
  (s.putRows c a pitch fmt p.y).putRows c (a + pitch * h) pitch fmt p.c

/-- Free samples of `h` rows of `w`, each below 2^`bits`: what decoding a picture by its standard gives. -/
def Dev.drawRows (s : Dev) (tag h w bits : Nat) : List (List Nat) × Dev :=
  ((List.range h).map fun j => (List.range w).map fun i => Config.freeNat tag (s.draws + (j * w + i) * 2 ^ 64) % 2 ^ bits,
    { s with draws := s.draws + 1 })

/-- Conversion of a sample from `bits` to the depth of FMT (R171). -/
def convSample (bits fmt v : Nat) : Nat :=
  if fmt = 0 then (if bits = 8 then v else min 255 ((v + 2 ^ (bits - 8) / 2) / 2 ^ (bits - 8)))
  else (if bits = 8 then v * 4 else v * 2 ^ (10 - bits))

/-- Sample `i` of row `j` of a plane. -/
def planeAt (rows : List (List Nat)) (i j : Nat) : Nat := ((rows.drop j).headD []).getD i 0

/-- The twin of a plane, `step` samples apart per pixel: (s + k²/2) >> log2 k² over k × k (R172). -/
def twinPlane (k step w h : Nat) (rows : List (List Nat)) : List (List Nat) :=
  (List.range h).map fun j => (List.range (w * step)).map fun i =>
    let x := i / step
    let ch := i % step
    let sum := ((List.range k).map fun dj => ((List.range k).map fun di =>
      planeAt rows ((k * x + di) * step + ch) (k * j + dj)).sum).sum
    (sum + k * k / 2) / (k * k)

end Sys2Proof.Machine
end

