-- ==== Sys2Proof/Machine/Vdec.lean ====
section
/-! DEFINITION. Video decode: streams, ingress rings, retention, decoding, output (R154-R176). What the standards H.264 and HEVC
compute comes with the commands, and decoded samples are free values. -/

namespace Sys2Proof.Machine

/-! ### DEC_OPTS -/

/-- MODE: 0 DECODE, 1 RETAIN_ONLY, 2 DECODE_RETAIN. -/
def Stream.mode (x : Stream) : Nat := fldN x.opts 0 2
/-- FMT: 0 NV12, 1 P010. -/
def Stream.fmt (x : Stream) : Nat := fldN x.opts 3 1
/-- TWIN: 0 none, 1 half, 2 quarter. -/
def Stream.twin (x : Stream) : Nat := fldN x.opts 4 2
/-- DROP_RECOVERING. -/
def Stream.dropRec (x : Stream) : Bool := bitN x.opts 6
/-- CONCEAL. -/
def Stream.conceal (x : Stream) : Bool := bitN x.opts 7
/-- RETAIN_S. -/
def Stream.retainS (x : Stream) : Nat := fldN x.opts 8 8
/-- DPB_CAP. -/
def Stream.dpbCap (x : Stream) : Nat := fldN x.opts 16 5

/-- The values of DEC_OPTS that are illegal. -/
def optsBad (o : Nat) : Bool :=
  fldN o 0 2 == 3 || fldN o 4 2 == 3 || (fldN o 0 2 != 0 && fldN o 8 8 == 0) || decide (16 < fldN o 16 5)
    || decide (4 < fldN o 21 3)

/-- Page of decode engine `n`. -/
def vdecPage (n : Nat) : Nat := 0x40000 + 0x1000 * n

/-- The codec firmware's event about a bitstream: stream, TAG, kind (R168; the kinds). -/
def Dev.bsErr (s : Dev) (n k c tag kind : Nat) : Dev :=
  let s := s.irq (vdecPage n) 16
  let s := if kind = 3 then s.irq (vdecPage n) 17 else s
  s.raise { nm := .bitstreamError, blk := 0xD, inst := n, ctx := some c, d0 := s.strmName k, d1 := tag, d3 := kind }

/-! ### The clip slot (R319-R321) -/

/-- START_CTS and END_CTS of a clip. -/
def Clip.startCts (q : Clip) : Nat := natOf ((q.desc.drop 8).take 8)
def Clip.endCts (q : Clip) : Nat := natOf ((q.desc.drop 16).take 8)

/-- Change the clips that satisfy `p`. -/
def Dev.modClips (s : Dev) (p : Clip → Bool) (f : Clip → Clip) : Dev :=
  let v := s.eng.venc
  s.setVenc { v with clips := v.clips.map fun q => if p q then f q else q }

/-- A picture buffer of the running clip could not be allocated: the clip ends with the BPM's status. -/
def Dev.clipFail (s : Dev) (st : Status) : Dev :=
  let pics := (s.eng.venc.clips.filter (·.run)).flatMap fun q => q.pics.map fun p => (q.ctx, p.h)
  let s := pics.foldl (fun (s : Dev) p => s.unref 68 p.1 p.2) s
  (s.modClips (·.run) fun q => { q with st, grow := false, pics := [] }).endStream clipKey

/-- A picture that the clip slot outputs goes to VENC when its capture time lies in the clip's range (R320). -/
def Dev.clipOut (s : Dev) (c : Nat) (p : Pic) : Dev :=
  match s.eng.venc.clips.find? (·.run) with
  | none => s
  | some q =>
    if q.startCts ≤ p.cts ∧ p.cts ≤ q.endCts then
      ((s.ref 68 c p.h).2).modClips (·.run) fun q => { q with pics := q.pics ++ [p] }
    else s

/-! ### The pools of a stream's front access unit (R156) -/

/-- Ask the pools for the picture, and the twin, of the access unit at the front of stream `k`'s queue. -/
def Dev.askPic (s : Dev) (k : Nat) : Dev :=
  match s.strm k with
  | none => s
  | some x => match x.queue with
    | [] => s
    | a :: r =>
      if a.pic = .no then
        let (p, s) := s.want x.rq x.ctx x.picPool
        let (t, s) := if x.twin = 0 then (Want.no, s) else s.want x.rq x.ctx x.twinPool
        s.setStrm k (some { x with queue := { a with pic := p, twin := t } :: r })
      else s

/-- The access unit at the front of stream `k`'s queue is discarded and counted; the next picture finds a frame gap. -/
def Dev.discardAu (s : Dev) (k : Nat) : Dev :=
  match s.strm k with
  | none => s
  | some x => match x.queue with
    | [] => s
    | a :: r =>
      let s := s.dropAu x a
      let s := match x.eng with
        | some n => s.perf (vdecPage n) 5 1
        | none => s
      (s.setStrm k (some { x with queue := r, disc := satAdd 65535 x.disc 1, gap := true })).askPic k

/-- Poll the front access unit of stream `k`: a failed picture allocation discards it with the BPM's status reported; a failed
twin leaves the picture without one (R172). -/
def Dev.pollStream (s : Dev) (k : Nat) : Dev :=
  match s.strm k with
  | none => s
  | some x => match x.queue with
    | [] => s
    | a :: r =>
      let (p, e, s) := s.poll a.pic
      let (t, _, s) := s.poll a.twin
      let s := s.setStrm k (some { x with queue := { a with pic := p, twin := t } :: r })
      match e with
      | some st => if k = clipKey then s.clipFail st else (s.bpmWarn st x.ctx x.picPool x.rq).discardAu k
      | none => s

/-- An allocation has come or failed. -/
def Want.settled : Want → Bool
  | .wait _ => false
  | _ => true

/-- A stream is ready: its front access unit's picture is admitted, and its twin's allocation is settled. -/
def Stream.isReady (x : Stream) : Bool :=
  match x.queue with
  | [] => false
  | a :: _ => (match a.pic with | .got _ => true | _ => false) && a.twin.settled

/-! ### Retention (R161) -/

/-- The retention list keeps from the latest start point whose time is at most `t`, or else from the first start point. -/
def keepFrom (t : Nat) (l : List Au) : List Au :=
  let rec go (best : List Au) : List Au → List Au
    | [] => best
    | a :: r => if a.start && decide (a.cts ≤ t) then go (a :: r) r else go best r
  go (l.dropWhile fun a => !a.start) l

/-- Newest capture time of a list. -/
def newest (l : List Au) : Nat := l.foldl (fun m a => max m a.cts) 0

/-- Trim stream `k`'s retention list. -/
def Dev.trimRetain (s : Dev) (k : Nat) : Dev :=
  match s.strm k with
  | none => s
  | some x =>
    let l := keepFrom (newest x.retain - x.retainS * 1000000000) x.retain
    let gone := x.retain.take (x.retain.length - l.length)
    let s := s.setStrm k (some { x with retain := l })
    gone.foldl (fun s a => s.unref x.rq x.ctx a.h) s

/-- An access unit that stream `k`'s retention list gains joins the spans that still grow (R319): VENC's reference, and the clip
slot's queue for the running clip; one beyond END_CTS ends the growth. -/
def Dev.growClips (s : Dev) (k : Nat) (a : Au) : Dev :=
  let a : Au := { a with pic := .no, twin := .no }
  let mine := s.eng.venc.clips.filter fun q => q.stream == k && q.acc && q.grow
  mine.foldl (fun (s : Dev) q =>
    if q.endCts < a.cts then s.modClips (·.id == q.id) fun q => { q with grow := false }
    else
      let s := (s.ref 68 q.ctx a.h).2
      if q.run then
        match s.strm clipKey with
        | some x => (s.setStrm clipKey (some { x with queue := x.queue ++ [a] })).askPic clipKey
        | none => s
      else s.modClips (·.id == q.id) fun q => { q with span := q.span ++ [a] }) s

/-- An access unit in its bitstream buffer joins its stream (R159, R161); a stream that has gone releases the buffer. -/
def Dev.appendAu (s : Dev) (k : Nat) (a : Au) : Dev :=
  match s.strm k with
  | none => s.unref 75 0 a.h
  | some x =>
    let s := if x.mode = 2 then (s.ref x.rq x.ctx a.h).2 else s
    let x := if x.mode = 0 then x else { x with retain := x.retain ++ [a] }
    let retained := x.mode != 0
    let x := if x.mode = 1 then x else { x with queue := x.queue ++ [a] }
    let s := s.setStrm k (some x)
    ((if retained then s.growClips k a else s).trimRetain k).askPic k

/-! ### STREAM_ATTACH and STREAM_DETACH (R154, R157, R176) -/

/-- Decoding streams of this unit. -/
def Dev.decStreams (s : Dev) : List (Nat × Option Stream) :=
  s.eng.streams.filter fun x => x.1 != clipKey && (x.2.bind (·.eng)).isSome

/-- Streams bound to engine `n`. -/
def Dev.boundTo (s : Dev) (n : Nat) : Nat := (s.decStreams.filter fun x => (x.2.bind (·.eng)) == some n).length

/-- The engine that an automatic binding takes: fewest bound streams, lowest number (R154). -/
def Dev.leastEngine (s : Dev) : Nat := (List.range 4).foldl (fun b n => if s.boundTo n < s.boundTo b then n else b) 0

/-- The engine a stream gets, or none when a limit of R154 refuses it or no verified codec firmware runs (R403). -/
def Dev.engineFor (s : Dev) (o : Nat) : Option Nat :=
  let n := if fldN o 21 3 = 0 then s.leastEngine else fldN o 21 3 - 1
  if s.decStreams.length < 256 ∧ s.boundTo n < 64 ∧ s.boot.codecOk = true then some n else none

/-- The manager sets up the ring of a stream that its unit has attached: CONS and DROPS 0 (R157). -/
def Dev.attachRing (s : Dev) (c k unit base size : Nat) (w : List Word) : Dev :=
  let n := hF w 0x18 0 4
  match s.ctxDram c (hAddrAt w 0x10).addr (64 + 32 * 2 ^ n) with
  | none => s
  | some a =>
    (s.memWr c a (bytesOf 8 0) false).setInRing k
      (some { ctx := c, unit, camera := hF w 8 16 16, mode := hF w 0xC 0 2, addr := a, n, pool := hF w 0x1C 0 4, base, size })

/-- The stream's owner attaches it, or refuses it with POOL_QUOTA (R154). -/
def Dev.attachHere (s : Dev) (c : Nat) (w : List Word) : Dev :=
  let seq := hSeq w
  let k := hF w 8 0 12
  let o := (hW w 0xC).toNat
  let bs := hF w 0x1C 0 4
  s.withSlot c seq fun _ s =>
    let dec := fldN o 0 2 != 1
    let eng := if dec then s.engineFor o else none
    if 512 ≤ (s.eng.streams.filter (·.1 != clipKey)).length ∨ (dec && eng.isNone) = true then s.endCmd c seq ⟨.poolQuota, 0xD⟩ 0 0
    else
      let s := s.setStrm k (some { ctx := c, camera := hF w 8 16 16, opts := o, bs, picPool := hF w 0x1C 4 4
                                   twinPool := hF w 0x1C 8 4, route := hF w 0x20 0 8, eng })
      let s := match eng with
        | some n => s.vdecCount n
        | none => s
      let s := if s.isMgr then s.attachRing c k s.addr (s.poolBase bs) (s.poolSize bs) w
               else s.fwSend 0 (.streamBound k (s.poolBase bs) (s.poolSize bs))
      s.endCmd c seq .ok k 0

/-- STREAM_ATTACH: the manager checks the operands and the ring (R154, R157, R96). -/
def Dev.streamAttach (c : Nat) (w : List Word) (s : Dev) : Dev :=
  let seq := hSeq w
  let n := hF w 0x18 0 4
  let a := hAddrAt w 0x10
  if !s.isMgr then s.attachHere c w
  else if optsBad (hW w 0xC).toNat ∨ n < 4 ∨ a.dram = false ∨ a.addr % 4096 ≠ 0 ∨ (s.inRing (hF w 8 0 12)).isSome = true then
    s.endCmd c seq ⟨.ctxFaultCmd, 8⟩ 0 0x10
  else if (s.ctxDram c a.addr (64 + 32 * 2 ^ n)).isNone then s.endCmd c seq ⟨.ctxFaultAddr, 8⟩ 0 a.addr
  else s.onUnit c (hF w 8 12 4) w fun s => s.attachHere c w

/-- STREAM_ATTACH (R154). -/
def execStreamAttach (c : Nat) (s : State) : Host.Outcome State Fault Refusal :=
  .next { s with toDev := s.toDev.hostCmd c 0x10 (Dev.streamAttach c) }

/-- The owner ends a stream; one in decode ends after its picture (R176). -/
def Dev.detachHere (s : Dev) (c : Nat) (w : List Word) : Dev :=
  let seq := hSeq w
  let k := hF w 8 0 12
  match s.strm k with
  | none => s.endCmd c seq .ok 0 0
  | some x =>
    let busy := (List.range 4).any fun n => ((s.vdec n).job.map (·.stream)) == some k
    if busy then
      let s := x.queue.foldl (fun s a => s.dropAu x a) s
      let s := x.retain.foldl (fun s a => s.unref x.rq x.ctx a.h) s
      (s.setStrm k (some { x with queue := [], retain := [], detach := some seq })).clipsShort k
    else (s.endStream k).endCmd c seq .ok 0 0

/-- STREAM_DETACH (R176); a stream that is not attached to the context is left alone (notes/assumptions/11). -/
def Dev.streamDetach (c : Nat) (w : List Word) (s : Dev) : Dev :=
  let k := hF w 8 0 12
  if !s.isMgr then s.detachHere c w
  else match s.inRing k with
    | none => s.endCmd c (hSeq w) .ok 0 0
    | some r =>
      if r.ctx ≠ c then s.endCmd c (hSeq w) .ok 0 0
      else
        ((s.dropXfer r).setInRing k none).onUnit c r.unit w fun s => s.detachHere c w

/-- STREAM_DETACH (R176). -/
def execStreamDetach (c : Nat) (s : State) : Host.Outcome State Fault Refusal :=
  .next { s with toDev := s.toDev.hostCmd c 0x11 (Dev.streamDetach c) }

/-! ### CTX_IN_DB (R158) -/

/-- The value of an ingress doorbell acts. -/
def Dev.inDbAct (s : Dev) (c v : Nat) : Dev :=
  let k := fldN v 0 12
  let d := fldN v 12 20
  match s.inRing k with
  | none => s.satInc (R.ctxDbErr c) 1
  | some r =>
    if r.ctx ≠ c then s.satInc (R.ctxDbErr c) 1
    else if d = r.door then s
    else if (d + 2 ^ 20 - r.fetch % 2 ^ 20) % 2 ^ 20 ≤ 2 ^ r.n then
      s.setInRing k (some { r with door := d, doors := r.doors ++ [(d, s.ns)] })
    else s.satInc (R.ctxDbErr c) 1

/-- A write of CTX_IN_DB, by the context's state (R77, R158). -/
def Dev.inDb (s : Dev) (src : Src) (c : Nat) (v : Word) (be : Nat) : Dev :=
  if !s.isMgr || s.inD3 || !s.pageMay src c then s
  else if be ≠ 15 then s.accErr 0 .partialWrite (ctxPage c + 0x170)
  else if s.ctxSt c = 1 then s.inDbAct c v.toNat
  else if s.ctxSt c = 2 then
    s.setCtx c { s.ctx c with latched := ((s.ctx c).latched.filter (·.1 != 4)) ++ [(4, v.toNat)] }
  else s

/-- CTX_IN_DB (R158). -/
def execCtxInDb (src : Src) (c : Nat) (v : Word) (be : Nat) (s : State) : Host.Outcome State Fault Refusal :=
  .next { s with toDev := (s.toDev.busPosted src).inDb src c v be }

/-! ### Ingress (R159, R160) -/

/-- The shop time of the doorbell that covered the entry of count `f`: the oldest accepted value above it (R174). -/
def doorTime (f : Nat) (l : List (Nat × Nat)) : Nat :=
  ((l.find? fun d => let n := (d.1 + 2 ^ 20 - f % 2 ^ 20) % 2 ^ 20; n != 0 && decide (n < 2 ^ 19)).map (·.2)).getD 0

/-- Doorbells whose every entry is consumed are forgotten. -/
def doorsFrom (f : Nat) (l : List (Nat × Nat)) : List (Nat × Nat) :=
  l.filter fun d => let n := (d.1 + 2 ^ 20 - f % 2 ^ 20) % 2 ^ 20; n != 0 && decide (n < 2 ^ 19)

/-- CONS passes the entry; a discarded one is counted in DROPS. -/
def Dev.consume (s : Dev) (k : Nat) (r : Ring) (drop : Bool) : Dev :=
  let f := (r.fetch + 1) % 2 ^ 32
  let n := if drop then (r.drops + 1) % 2 ^ 32 else r.drops
  let s := if drop then s.memWr r.ctx (r.addr + 4) (bytesOf 4 n) false else s
  let s := s.memWr r.ctx r.addr (bytesOf 4 f) false
  s.setInRing k (some { r with fetch := f, drops := n, doors := doorsFrom f r.doors, xfer := .idle })

/-- An entry is discarded with a kind (R159): CHAIN reports it. -/
def Dev.ingressErr (s : Dev) (k : Nat) (r : Ring) (tag kind : Nat) : Dev :=
  (s.consume k r true).raise
    { nm := .bitstreamError, blk := 0x15, ctx := some r.ctx, d0 := k, d1 := tag, d3 := kind }

/-- The access unit that an entry becomes. -/
def Entry.au (e : Entry) (h addr : Nat) : Au :=
  { h, addr, len := e.len, tag := e.tag, cts := e.cts, est := e.est, discont := e.discont, start := e.start }

/-- Send bytes to another unit's DRAM in WRITE frames of at most 240 B. -/
def Dev.writeFrames (s : Dev) (u addr c rq h tag : Nat) (bs : List Byte) : Dev :=
  (List.range ((bs.length + 239) / 240)).foldl (fun s i =>
    let d := (bs.drop (240 * i)).take 240
    s.issue { cls := 0, vc := 0, dst := u, sub := 0, payload := framePrefix (addr + 240 * i) c rq d.length h ++ d } (.data tag)) s

/-- The bitstream buffer is there: copy the payload and append the buffer to the stream's queue, or send both to the owning
unit. -/
def Dev.ingressCopy (s : Dev) (k : Nat) (r : Ring) (e : Entry) (h : Nat) : Dev :=
  let dst := r.base + hIdx h * r.size
  if r.unit = s.addr then
    ((s.memWr r.ctx dst e.data false).appendAu k (e.au h dst)).consume k r false
  else
    let (ok, s) := s.chainMay (s.clsOf e.addr) e.addr r.unit r.ctx 75
    if !ok then s.ctxFault r.ctx ⟨.ctxFaultAddr, 0x15⟩ 0 (e.addr % 2 ^ 32) 0xFFFF
    else
      let (tag, s) := s.newTag
      (s.writeFrames r.unit dst r.ctx 75 h tag e.data).setInRing k (some { r with xfer := .data { e with data := [] } h tag })

/-- A transfer still has frames unanswered. -/
def Dev.dataOut (s : Dev) (tag : Nat) : Bool :=
  s.chain.out.any (fun t => t.what == .data tag) || s.chain.wait.any (fun t => t.what == .data tag)

/-- Ask the owning unit's BPM for a bitstream buffer, as requester 75, blocking. -/
def Dev.ingressAsk (s : Dev) (k : Nat) (r : Ring) (e : Entry) : Dev :=
  let (tag, s) := s.newTag
  let s :=
    if r.unit = s.addr then s.engAlloc 75 r.ctx r.pool true tag
    else s.issue { cls := 0, vc := 0, dst := r.unit, sub := 2, arg := r.pool * 16
                   payload := framePrefix 0 r.ctx 75 0 0 } (.bpm tag)
  s.setInRing k (some { r with xfer := .alloc e tag })

/-- The allocation's answer moves the entry on. -/
def Dev.ingressPoll (s : Dev) (k : Nat) (r : Ring) : Dev :=
  match r.xfer with
  | .idle => s
  | .alloc e tag =>
    let (a, s) := s.takeAnswer tag
    match a with
    | none => s
    | some (st, h) =>
      if st.nm = .success then s.ingressCopy k r e h
      else (s.consume k r true).bpmWarn st r.ctx r.pool 75
  | .data e h tag =>
    if s.dataOut tag then s
    else
      let a := r.base + hIdx h * r.size
      (s.fwSend r.unit (.au k h a e.len e.tag e.cts e.est e.discont e.start)).consume k r false

/-- The checks of an entry, in the order of the entry's table; then its payload region and the picture it holds. `onePic`: the
payload, once read (poison in it faults the context, R143), holds the slices of exactly one picture; `start`: it begins with a start point (R160, R165). -/
def Dev.ingressCheck (s : Dev) (k : Nat) (r : Ring) (bs : List Byte) (onePic start : Bool) : Dev :=
  let w := fun i n => natOf ((bs.drop i).take n)
  let len := w 8 3
  let flags := w 11 1
  let tag := w 0x18 4
  if len = 0 ∨ w 0xC 4 % 4096 ≠ k then s.ingressErr k r tag 1
  else if r.size < len then s.ingressErr k r tag 2
  else match s.ctxDram r.ctx (w 0 8) len with
    | none => s.ctxFault r.ctx ⟨.ctxFaultAddr, 0x15⟩ 0 (w 0 8) 0xFFFF
    | some a =>
      let e : Entry := { addr := a, len, tag, cts := if bitN flags 0 then w 0x10 8 else doorTime r.fetch r.doors
                         est := !bitN flags 0, discont := bitN flags 1, start }
      let (bad, bs, s) := s.memRd r.ctx a len
      if bad then s.ctxFault r.ctx ⟨.dataPoisoned, 0x15⟩ 0 a 0xFFFF
      else if !onePic then s.ingressErr k r tag 1
      else
        let s := s.ingressAsk k r { e with data := bs }
        match s.inRing k with
        | some r => s.ingressPoll k r
        | none => s

/-- INGRESS_ENTRY: CHAIN takes the next announced entry of stream `k`'s ring one stage on. -/
def Dev.ingress (s : Dev) (k : Nat) (onePic start : Bool) : Dev :=
  match s.inRing k with
  | none => s
  | some r =>
    let sleeps := r.unit ≠ s.addr ∧ (s.chain.asleep ∨ r.unit ∈ s.chain.wakeWait)
    if s.ctxSt r.ctx ≠ 1 ∨ s.blkRuns 0x7A000 = false ∨ sleeps then s
    else if r.xfer ≠ .idle then s.ingressPoll k r
    else if r.fetch % 2 ^ 20 = r.door then s
    else
      let a := r.addr + 0x40 + 32 * (r.fetch % 2 ^ r.n)
      let (bad, bs, s) := s.memRd r.ctx a 32
      if bad then s.ctxFault r.ctx ⟨.dataPoisoned, 0x15⟩ 0 a 0xFFFF else s.ingressCheck k r bs onePic start

/-- INGRESS_ENTRY (R159). -/
def execIngressEntry (stream : Nat) (onePic start : Bool) (s : State) : Host.Outcome State Fault Refusal :=
  .next { s with toDev := s.toDev.ingress stream onePic start }

/-! ### Start of a picture (R155, R156, R162-R167) -/

/-- A parameter set within R162, for a DPB_CAP. -/
def Sps.ok (p : Sps) (cap : Nat) : Bool :=
  let std :=
    if p.hevc then (p.profile == 1 || p.profile == 2 || p.profile == 3) && p.mainTier && decide (8 ≤ p.bits)
      && decide (p.bits ≤ 10) && decide (p.level ≤ 153)
    else (p.profile == 66 || p.profile == 77 || p.profile == 100) && p.bits == 8 && decide (p.level ≤ 51)
  std && p.plain && decide (p.chroma ≤ 1) && decide (16 ≤ p.w) && decide (p.w ≤ 4096) && decide (16 ≤ p.h)
    && decide (p.h ≤ 4096) && decide (p.w * p.h ≤ 8912896) && decide (p.dpb ≤ if cap = 0 then p.dpbMax else cap)

/-- The divisor of a twin's size. -/
def twinK (t : Nat) : Nat := if t = 1 then 2 else 4

/-- A picture of a parameter set fits the stream's pools (R163). -/
def Dev.picFits (s : Dev) (x : Stream) (p : Sps) : Bool :=
  decide (picBytes x.fmt p.w p.h ≤ s.poolSize x.picPool) &&
    (x.twin == 0 || decide (picBytes x.fmt (p.w / twinK x.twin) (p.h / twinK x.twin) ≤ s.poolSize x.twinPool))

/-- The parameter sets of the access unit at the front of stream `k` act (R163): the stream they leave. -/
def Dev.takeSps (s : Dev) (n k : Nat) (x : Stream) (a : Au) (i : AuRead) : Stream × Dev :=
  match i.sps with
  | .same => (x, s)
  | .broken => (x, s.bsErr n k x.ctx a.tag 5)
  | .parsed p =>
    if i.start = .no then (x, s)
    else if !p.ok x.dpbCap || !s.picFits x p then
      let kind := if p.ok x.dpbCap then 4 else 3
      ({ x with st := .refused, sps := none }, if x.st = .refused then s else s.bsErr n k x.ctx a.tag kind)
    else ({ x with sps := some p, st := if x.st = .refused then .waitStart else x.st }, s)

/-- The picture of the front access unit takes engine `n`. -/
def Dev.takeEngine (s : Dev) (n k : Nat) (x : Stream) (a : Au) (p : Sps) (i : AuRead) : Dev :=
  let bad := x.dpb.any fun d => d.bad && i.refs.contains d.pic.h
  let gap := (a.discont || x.gap) && i.start != .key
  let synth := i.missing || gap || bad || (i.start == .sei && x.st == .waitStart)
  let rec_ := synth && x.st != .recovering
  let st := if synth then StrmSt.recovering else if i.start = .key ∨ x.st = .waitStart then .decoding else x.st
  let x := { x with queue := x.queue.drop 1, st, gap := false }
  let s := s.setStrm k (some x)
  let s := if rec_ then
      s.raise { nm := .recovering, blk := 0xD, inst := n, ctx := some x.ctx, d0 := s.strmName k, d1 := a.tag } else s
  let v := s.vdec n
  let s := if v.last = some k then s else (s.perf (vdecPage n) 2 1).maxCycles (R.vdecSwitchMax n)
  let s := s.setVdec n { job := some { stream := k, au := a, sps := p, synth, refs := i.refs }, last := some k }
  ((s.setRb (R.vdecStat n) 7 true).setRf (R.vdecStat n) 8 12 k).askPic k

/-- The picture of stream `k`'s front access unit starts on engine `n`, or is discarded (R163, R165). -/
def Dev.startPic (s : Dev) (n k : Nat) (i : AuRead) : Dev :=
  match s.strm k with
  | none => s
  | some x => match x.queue with
    | [] => s
    | a :: _ =>
      let (bad, _, s) := s.memRd x.ctx a.addr a.len
      if bad then (s.irq (vdecPage n) 18).ctxFault x.ctx ⟨.dataPoisoned, 0xD⟩ 0 a.addr 0xFFFF
      else
        let (x, s) := s.takeSps n k x a i
        let s := s.setStrm k (some x)
        let waits := x.st = .refused ∨ (x.st = .waitStart ∧ i.start = .no)
        match x.sps with
        | none => s.discardAu k
        | some p => if waits ∨ i.usesBad = true ∨ i.rasl = true then s.discardAu k else s.takeEngine n k x a p i

/-- The next ready stream of engine `n`: round robin in stream ID order after the one it served last (R156). -/
def Dev.nextStream (s : Dev) (n : Nat) : Option Nat :=
  let mine := (s.eng.streams.filter fun x => match x.2 with
    | some y => y.eng == some n && y.isReady && y.detach.isNone
    | none => false).map (·.1)
  match (s.vdec n).last with
  | none => mine.head?
  | some l => match mine.find? (l < ·) with
    | some k => some k
    | none => mine.head?

/-- PICTURE_DECODE_START: engine `n`, idle at a picture boundary, takes its next ready stream. -/
def Dev.decodeStart (s : Dev) (n : Nat) (i : AuRead) : Dev :=
  if s.blkRuns (vdecPage n) = false ∨ (s.vdec n).job.isSome = true ∨ s.boot.codecOk = false then s
  else
    let mine := (s.eng.streams.filter fun x => (x.2.bind (·.eng)) == some n).map (·.1)
    let s := mine.foldl (fun s k => s.pollStream k) s
    match s.nextStream n with
    | none => s
    | some k => s.startPic n k i

/-- PICTURE_DECODE_START (R156). -/
def execPictureDecodeStart (engine : Nat) (au : AuRead) (s : State) : Host.Outcome State Fault Refusal :=
  .next { s with toDev := if engine < 4 then s.toDev.decodeStart engine au else s.toDev }

/-! ### End of a picture (R166-R173) -/

/-- A picture joins stream `k`'s ready queue; the ninth releases the oldest and is counted on the route (R340). -/
def Dev.putReady (s : Dev) (k : Nat) (p : Pic) : Dev :=
  match s.strm k with
  | none => s
  | some x =>
    let l := x.ready ++ [p]
    if l.length ≤ 8 then s.setStrm k (some { x with ready := l })
    else
      let s := s.setStrm k (some { x with ready := l.drop 1 })
      let s := match l with
        | o :: _ => s.dropPic x.ctx o
        | [] => s
      let s := s.irq 0x7000 1
      match s.route x.route with
      | some r => s.setRoute x.route (some { r with drops := satAdd 0xFFFFFFFF r.drops 1 })
      | none => s

/-- Output a picture of the decoded picture buffer: its ready-queue reference is made before anything is released (R8); one
that is flagged RECOVERING under DROP_RECOVERING is not placed (R167). -/
def Dev.outputPic (s : Dev) (k h : Nat) : Dev :=
  match s.strm k with
  | none => s
  | some x => match x.dpb.find? fun d => d.pic.h == h && d.wait with
    | none => s
    | some d =>
      let dpb := x.dpb.map fun e => if e.pic.h == h then { e with wait := false } else e
      let recov := x.st == .recovering
      if recov && x.dropRec then (s.setStrm k (some { x with dpb })).unref0 x.rq x.ctx d.pic.twin
      else
        let n := (x.pics + 1) % 2 ^ 32
        let s := s.setStrm k (some { x with dpb, pics := n })
        if k = clipKey then s.clipOut x.ctx { d.pic with recov, n }
        else
          let (_, s) := s.ref schedRq x.ctx h
          s.putReady k { d.pic with recov, n }

/-- Pictures of stream `k` that are neither references nor wait for output leave the decoded picture buffer. -/
def Dev.sweepDpb (s : Dev) (k : Nat) : Dev :=
  match s.strm k with
  | none => s
  | some x =>
    let gone := x.dpb.filter fun d => !d.ref && !d.wait
    let s := s.setStrm k (some { x with dpb := x.dpb.filter fun d => d.ref || d.wait })
    gone.foldl (fun s d => s.unref x.rq x.ctx d.pic.h) s

/-- The CONCEALED report, at most once per second per stream (R169). -/
def Dev.concealReport (s : Dev) (n k : Nat) : Dev :=
  match s.strm k with
  | none => s
  | some x =>
    if x.concNew ≠ 0 ∧ onceDue x.concAt s.ns = true then
      (s.setStrm k (some { x with concNew := 0, concAt := some s.ns })).raise
        { nm := .concealed, blk := 0xD, inst := n, ctx := some x.ctx, d0 := s.strmName k, d1 := x.concNew }
    else s

/-- The samples of a decoded picture: free values of the standard's decoding process, converted to the stream's format;
chroma of a 4:0:0 stream is mid-grey (R164, R170, R171). -/
def Dev.decodePlanes (s : Dev) (p : Sps) (fmt : Nat) : Planes × Dev :=
  let (y, s) := s.drawRows 62 p.h p.w p.bits
  let (c, s) := s.drawRows 63 (p.h / 2) p.w p.bits
  let conv := fun rows => rows.map fun r => r.map (convSample p.bits fmt)
  let grey := if fmt = 0 then 128 else 512
  ({ y := conv y, c := if p.chroma = 0 then c.map (fun r => r.map fun _ => grey) else conv c }, s)

/-- Write the picture and its twin. -/
def Dev.writePic (s : Dev) (x : Stream) (p : Sps) (h t : Nat) : Dev :=
  let (pl, s) := s.decodePlanes p x.fmt
  let s := s.putPic x.ctx (s.hAddr h) x.fmt p.w p.h pl
  if t = 0 then s
  else
    let k := twinK x.twin
    let tw : Planes := { y := twinPlane k 1 (p.w / k) (p.h / k) pl.y
                         c := twinPlane k 2 (p.w / k / 2) (p.h / k / 2) pl.c }
    s.putPic x.ctx (s.hAddr t) x.fmt (p.w / k) (p.h / k) tw

/-- A handle of an allocation, 0 when there is none. -/
def Want.handle : Want → Nat
  | .got h => h
  | _ => 0

/-- The reports and counts of a concealed picture (R168, R169). -/
def Dev.concealCount (s : Dev) (n k tag blocks : Nat) : Dev :=
  if blocks = 0 then s
  else match s.strm k with
    | none => s
    | some x =>
      let s := s.setStrm k (some { x with conc := satAdd 65535 x.conc 1, concNew := x.concNew + 1 })
      ((s.bsErr n k x.ctx tag 6).perf (vdecPage n) 4 blocks).concealReport n k

/-- The decoded picture joins the decoded picture buffer; references move and pictures are output (R8, R166, R169, R173). -/
def Dev.placePic (s : Dev) (k : Nat) (d : DecJob) (r : PicRead) : Dev :=
  match s.strm k with
  | none => s
  | some x =>
    let pic : Pic := { h := d.au.pic.handle, twin := d.au.twin.handle, stream := k, w := d.sps.w, hgt := d.sps.h
                       crop := d.sps.crop, fmt := x.fmt, cts := d.au.cts, tag := d.au.tag, est := d.au.est
                       noTwin := x.twin != 0 && d.au.twin.handle == 0, conc := r.concealed }
    let withheld := r.concealed != 0 && !x.conceal
    let e : DpbPic := { pic := if withheld then { pic with twin := 0 } else pic
                        ref := r.keep, wait := !withheld, bad := r.concealed != 0 }
    let dpb := (x.dpb ++ [e]).map fun e => if r.drop.contains e.pic.h then { e with ref := false } else e
    let st := if r.recovered ∧ x.st = .recovering then StrmSt.decoding else x.st
    let s := s.setStrm k (some { x with dpb, st })
    let s := if withheld then s.unref0 x.rq x.ctx pic.twin else s
    (r.out.foldl (fun s h => s.outputPic k h) s).sweepDpb k

/-- A detach that waited for the picture ends (R176). -/
def Dev.detachEnd (s : Dev) (k : Nat) : Dev :=
  match s.strm k with
  | none => s
  | some x => match x.detach with
    | none => s
    | some seq => (s.endStream k).endCmd x.ctx seq .ok 0 0

/-- PICTURE_DECODE_DONE: the writes of engine `n`'s picture are acknowledged. -/
def Dev.decodeDone (s : Dev) (n : Nat) (r : PicRead) : Dev :=
  let v := s.vdec n
  match v.job with
  | none => s
  | some d => match s.strm d.stream with
    | none => s.setVdec n { v with job := none }
    | some x =>
      let refs := x.dpb.filter fun e => d.refs.contains e.pic.h
      let (bad, s) := refs.foldl (fun (a : Option Nat × Dev) e =>
        let addr := a.2.hAddr e.pic.h
        let (b, _, s) := a.2.memRd x.ctx addr (picBytes x.fmt e.pic.w e.pic.hgt)
        (if b then some addr else a.1, s)) (none, s)
      match bad with
      | some a => (s.irq (vdecPage n) 18).ctxFault x.ctx ⟨.dataPoisoned, 0xD⟩ 0 a 0xFFFF
      | none =>
        let s := s.writePic x d.sps d.au.pic.handle d.au.twin.handle
        let s := ((s.perf (vdecPage n) 0 1).perf (vdecPage n) 1 (d.sps.w * d.sps.h / 256)).perfCycles (vdecPage n) 3
        let s := s.unref x.auRq x.ctx d.au.h
        let s := (s.setVdec n { v with job := none }).setRb (R.vdecStat n) 7 false
        let s := s.concealCount n d.stream d.au.tag r.concealed
        let s := s.setCtx x.ctx { s.ctx x.ctx with hbPics := (s.ctx x.ctx).hbPics + 1 }
        (s.placePic d.stream d r).detachEnd d.stream

/-- PICTURE_DECODE_DONE (R173). -/
def execPictureDecodeDone (engine : Nat) (pic : PicRead) (s : State) : Host.Outcome State Fault Refusal :=
  .next { s with toDev := if engine < 4 then s.toDev.decodeDone engine pic else s.toDev }

end Sys2Proof.Machine
end

