-- ==== Sys2Proof/Machine/Cores.lean ====
section
/-! DEFINITION. The cores: activation store windows, DRAM operands, core commands and their checks, issue (R196-R207, R221-R226,
R333). -/

namespace Sys2Proof.Machine

/-- A failure of a core command: its name and DETAIL2. -/
structure CErr where
  nm : Nm
  d2 : Nat := 0
  deriving DecidableEq, Repr

/-- Sub-page `sub` of core `k`: 0 SEQ, 1 MXU, 2 VEC, 3 ADG, 4 MBX, 5 WSU. -/
def corePage (k sub : Nat) : Nat := 0x100000 + 0x10000 * k + 0x1000 * sub

/-- The running program of core `k`. -/
def Dev.prog (s : Dev) (k : Nat) : Option Prog :=
  match (s.core k).cur with
  | none => none
  | some r => (s.core k).progs.find? (·.route == r)

/-- Route `r`'s program on core `k`. -/
def Dev.progOf (s : Dev) (k r : Nat) : Option Prog := (s.core k).progs.find? (·.route == r)

/-- Set a program of core `k` by its route. -/
def Dev.setProg (s : Dev) (k : Nat) (p : Prog) : Dev :=
  let x := s.core k
  s.setCore k { x with progs := x.progs.map fun q => if q.route == p.route then p else q }

/-! ### The activation store (R201-R203) -/

/-- SEQ_AS_BASE. -/
def Dev.asBase (s : Dev) (k : Nat) : Nat := s.rf (R.seqAsBase k) 0 23
/-- SEQ_AS_LIMIT. -/
def Dev.asLimit (s : Dev) (k : Nat) : Nat := s.rf (R.seqAsLimit k) 0 24

/-- The absolute offset of `n` bytes at window offset `off`, or CTX_FAULT_ADDR (R202). -/
def Dev.asAt (s : Dev) (k off n : Nat) : Except CErr Nat :=
  if s.asLimit k < s.asBase k + off + n then .error ⟨.ctxFaultAddr, off⟩ else .ok (s.asBase k + off)

/-- The state of 64-byte block `b` of core `k`'s AS. -/
def Dev.asMark (s : Dev) (k b : Nat) : SecMark := Tab.get (fun _ => .ok) s.asMarks (k * 2 ^ 17 + b)

/-- The blocks that `n` bytes from `a` touch. -/
def blocks64 (a n : Nat) : List Nat := if n = 0 then [] else (List.range ((a + n - 1) / 64 - a / 64 + 1)).map (a / 64 + ·)

/-- The first poisoned block of `n` bytes from absolute offset `a`, as an offset. -/
def Dev.asPoison (s : Dev) (k a n : Nat) : Option Nat :=
  if s.asMarks = [] then none
  else ((blocks64 a n).find? fun b => s.asMark k b == .poison || s.asMark k b == .ue).map (· * 64)

/-- Read `n` bytes at window offset `off` (R202, R203). -/
def Dev.asRd (s : Dev) (k off n : Nat) : Except CErr (List Byte) :=
  match s.asAt k off n with
  | .error e => .error e
  | .ok a => match s.asPoison k a n with
    | some b => .error ⟨.dataPoisoned, b⟩
    | none => .ok (s.asBytes k a n)

/-- Store bytes at an absolute offset: a write that covers a block ends its poison; a poisoned one poisons every block it
touches (R203, R239). -/
def Dev.asStore (s : Dev) (k a : Nat) (bs : List Byte) (poison : Bool) : Dev :=
  let s := s.asPutBytes k a bs
  if s.asMarks = [] ∧ poison = false then s
  else
    let marks := (blocks64 a bs.length).foldl (fun m b =>
      if poison then Tab.set (fun _ => SecMark.ok) m (k * 2 ^ 17 + b) .poison
      else if a ≤ b * 64 ∧ b * 64 + 64 ≤ a + bs.length then Tab.set (fun _ => SecMark.ok) m (k * 2 ^ 17 + b) .ok else m) s.asMarks
    { s with asMarks := marks }

/-- Write bytes at window offset `off` (R202). -/
def Dev.asWr (s : Dev) (k off : Nat) (bs : List Byte) (poison : Bool) : Except CErr Dev :=
  match s.asAt k off bs.length with
  | .error e => .error e
  | .ok a => .ok (s.asStore k a bs poison)

/-- A 32-bit word at window offset `off`. -/
def Dev.asWord (s : Dev) (k off : Nat) : Except CErr Word := (s.asRd k off 4).map fun b => Word.ofNat (natOf b)

/-! ### Failing (R87, R225) -/

/-- A core command of core `k` fails in block `blk`. A status that faults the context stops the program and faults it; another
fails the command alone and is reported as a class-1 event naming the context. -/
def Dev.coreFault (s : Dev) (k blk : Nat) (e : CErr) : Dev :=
  match s.prog k with
  | none => s
  | some p =>
    let s := s.irq (corePage k 0) 16
    let s := s.capture (corePage k (blk - 0x20)) (Status.mk e.nm blk).code p.ctx e.d2 0
    if e.nm.faults then (s.setProg k { p with st := .stopped }).ctxFault p.ctx ⟨e.nm, blk⟩ 0 e.d2 k
    else s.raise { nm := e.nm, blk, inst := k, ctx := some p.ctx, d2 := e.d2, d3 := k }

/-! ### Core commands (R226) -/

/-- Word `i` of a command. -/
def cw (w : List Word) (i : Nat) : Word := w.getD i 0
/-- A field of word `i`. -/
def cf (w : List Word) (i lo len : Nat) : Nat := (cw w i).fld lo len
/-- OPCODE. -/
def cOp (w : List Word) : Nat := cf w 0 0 8
/-- DEP. -/
def cDep (w : List Word) : Nat := cf w 0 8 5
/-- XF. -/
def cXf (w : List Word) (lo len : Nat) : Nat := cf w 0 (16 + lo) len
/-- TAG. -/
def cTag (w : List Word) : Nat := cf w 0 24 8

/-- CTX_FAULT_CMD with the command's TAG. -/
def cmdErr (w : List Word) : CErr := ⟨.ctxFaultCmd, cTag w⟩

/-- The queue of an opcode: 0 MXU, 1 VEC, 2 MOV, 3 MBX, 4 WSU; none for the SEQ commands and unlisted opcodes (R197). -/
def queueOf (op : Nat) : Option Nat :=
  if op = 1 ∨ op = 2 then some 0 else if op = 3 ∨ op = 4 then some 1 else if op = 5 then some 2
  else if op = 0x10 then some 3 else if op = 6 then some 4 else none

/-- Opcodes that the sequencer executes itself. -/
def seqOps : List Nat := [0x11, 0x12, 0x13, 0x14, 0x20, 0x21, 0x22, 0x3F]

/-- Sub-array size and count of a PACK mode (R238). -/
def packSize (p : Nat) : Nat := if p = 0 then 256 else if p = 1 then 128 else 64
def packCount (p : Nat) : Nat := if p = 0 then 1 else if p = 1 then 4 else 16

/-- The format combinations of R230. -/
def combOk (a b acc : Nat) : Bool :=
  (decide (a ≤ 1) && decide (b ≤ 1) && acc == 0) ||
    ((a == 2 || a == 3) && (b == 2 || b == 3) && acc == 1) || (a == 4 && b == 4 && acc == 1) || (a == 5 && b == 5 && acc == 1)

/-- The epilogue word of a command is illegal. -/
def epiBad (w : List Word) : Bool :=
  let kind := cf w 6 23 2
  kind == 3 || (kind != 0 && cf w 6 0 23 % 64 != 0) || (kind == 1 && (cf w 6 25 4 == 0 || decide (8 < cf w 6 25 4)))

/-- The array fields of MATMUL and CONV are illegal; `conv`: M and K come from the descriptor. -/
def mxuBad (w : List Word) (conv : Bool) : Bool :=
  let pack := cf w 4 16 2
  let sel := cf w 2 29 2
  let b := cf w 2 0 21
  pack == 3 || sel == 3 || (if sel = 2 then b * 4 else b) % 64 != 0 || cf w 3 9 9 == 0 || decide (packSize pack < cf w 3 9 9)
    || (!conv && (cf w 3 0 9 == 0 || decide (packSize pack < cf w 3 0 9) || cf w 4 0 16 == 0))
    || decide (packCount pack ≤ cf w 4 18 4) || !combOk (cf w 4 22 3) (cf w 4 25 3) (cf w 4 28 1)
    || cf w 5 0 2 == 3 || (cf w 5 0 2 == 2 && cf w 5 2 23 % 16 != 0) || cf w 1 0 23 % 64 != 0 || epiBad w

/-- Last byte offset of `rows` rows of `n` bytes at a pitch. -/
def rowsEnd (off rows n pitch : Nat) : Nat := off + (rows - 1) * pitch + n

/-- The fields of MOVE are illegal. -/
def moveBad (w : List Word) : Bool :=
  let src := cXf w 0 2
  let dst := cXf w 2 2
  let n := cf w 5 0 24
  let rows := cf w 6 0 16
  let stop := rowsEnd (cw w 3).toNat rows n (cf w 7 16 16 * 64)
  decide (2 ≤ src) || decide (n < 64) || decide (8388608 < n) || n % (if dst = 2 then 8 else 64) != 0 || rows == 0
    || (src == 0 && cf w 1 0 23 % 64 != 0) || (dst == 0 && cf w 3 0 23 % 64 != 0)
    || (dst == 2 && ((cw w 3).toNat % 8 != 0 || decide (32768 < stop)))
    || (dst == 3 && ((cw w 3).toNat % 64 != 0 || decide (8192 < stop)))

/-- The fields of SEND and WSTREAM, lengths in 64-byte units, are illegal. -/
def sendBad (w : List Word) : Bool :=
  let n := cf w 2 0 17
  n == 0 || decide (65536 < n) || n % 64 != 0 || cf w 1 0 23 % 64 != 0
def wstreamBad (w : List Word) : Bool :=
  let n := cf w 3 0 21
  n == 0 || decide (1048576 < n) || n % 64 != 0 || cf w 4 0 20 % 64 != 0 || decide (1048576 < n + cf w 4 0 20)

/-- A command's fields are outside their listed ranges (R226), for a program of `len` commands on `nl` logical cores. -/
def ccmdBad (w : List Word) (len nl : Nat) : Bool :=
  match cOp w with
  | 0x01 => mxuBad w false
  | 0x02 => mxuBad w true
  | 0x03 => cf w 1 0 23 % 64 != 0 || cf w 2 0 23 % 64 != 0 || cf w 3 0 16 == 0 || epiBad w
  | 0x04 => cf w 2 0 16 == 0 || cf w 3 0 23 % 64 != 0
  | 0x05 => moveBad w
  | 0x06 => wstreamBad w
  | 0x10 => sendBad w
  | 0x11 => false
  | 0x12 => cf w 1 8 4 == 15 || (cw w 2).toNat == 0
  | 0x13 => cf w 1 0 4 == 15
  | 0x14 => decide (cf w 2 0 9 < 2) || decide (256 < cf w 2 0 9) || decide (nl < cf w 1 0 8 + cf w 2 0 9)
  | 0x20 => cf w 1 0 16 == 0 || cf w 2 0 12 == 0
  | 0x21 => decide (4 < cXf w 0 3) || decide (len ≤ (cw w 1).toNat)
      || ((cXf w 0 3 == 1 || cXf w 0 3 == 2) && decide (3 < cf w 2 0 4))
  | 0x22 => false
  | 0x3F => false
  | _ => true

/-! ### DRAM operands (R205) -/

/-- A handle resolves for a context (R129 check 1): 0 names the model image. -/
def Dev.hResolves (s : Dev) (c h : Nat) : Bool := h == 0 || (s.hValid h && s.poolMay (hPool h) c)

/-- The DRAM address of `n` bytes of a DRAM operand of program `p`. -/
def Dev.operand (s : Dev) (p : Prog) (h off n : Nat) : Except CErr Nat :=
  if h = 0 then
    if p.size < off + n then .error ⟨.ctxFaultAddr, (p.image + off) % 2 ^ 32⟩ else .ok (p.image + off)
  else if !s.hResolves p.ctx h then .error ⟨.staleHandle, h⟩
  else
    let a := s.hAddr h + off
    let cls := s.poolCls (hPool h)
    let b := s.buf (hPool h) (hIdx h)
    if cls = 0 ∨ cls = 3 ∨ s.poolAs (hPool h) = true ∨ (b.st == .alloc && b.ctx != p.ctx) = true
        ∨ s.poolSize (hPool h) < off + n then .error ⟨.ctxFaultAddr, a % 2 ^ 32⟩
    else .ok a

/-- The stale handle of a command at its issue (R205). -/
def Dev.staleAt (s : Dev) (c : Nat) (w : List Word) : Bool :=
  match cOp w with
  | 5 => (cXf w 0 2 == 1 && !s.hResolves c (cw w 1).toNat) || (cXf w 2 2 == 1 && !s.hResolves c (cw w 3).toNat)
  | 6 => !s.hResolves c (cw w 1).toNat
  | _ => false

/-! ### Issue (R197-R200) -/

/-- At the last command of a loop's body the loop runs again or ends, with every loop that ends there (R221). -/
def loopBack (pc : Nat) (lcs : Tab Nat) : List LoopSt → Nat × Tab Nat × List LoopSt
  | [] => (pc, lcs, [])
  | l :: r =>
    if pc = l.last then
      if l.lc + 1 < l.count then
        (l.first, Tab.set (fun _ => 0) lcs r.length (l.lc + 1), { l with lc := l.lc + 1 } :: r)
      else loopBack pc lcs r
    else (pc, lcs, l :: r)

/-- The program after the command at its index. -/
def Prog.advance (p : Prog) : Prog :=
  let (pc, lcs, loops) := loopBack (p.pc + 1) p.lcs p.loops
  { p with pc, lcs, loops }

/-- The command at a program's index: its eight words, read from the model image; past the program's end it is illegal. -/
def Dev.fetchCmd (s : Dev) (p : Prog) : Except CErr (List Word) × Dev :=
  if p.len ≤ p.pc then (.error ⟨.ctxFaultCmd, 0⟩, s)
  else
    let a := p.image + p.off + 32 * p.pc
    let (bad, bs, s) := s.memRd p.ctx a 32
    (if bad then .error ⟨.dataPoisoned, a % 2 ^ 32⟩ else .ok (wordsOf bs), s)

/-- The queues a DEP field names hold no earlier command (R197). -/
def depOk (p : Prog) (dep : Nat) : Bool := p.ops.all fun o => !bitN dep o.q

/-- Operation slots in use (R198): issued commands, and a SEQ command that waits. -/
def Prog.slots (p : Prog) : Nat := p.ops.length + (if p.wait.isSome then 1 else 0)

/-- The number of logical cores of a route. -/
def Dev.nlOf (s : Dev) (r : Nat) : Nat := ((s.route r).map (·.map.length)).getD 0

/-- Put a queue command in its queue. -/
def Dev.issueOp (s : Dev) (k : Nat) (p : Prog) (q : Nat) (w : List Word) : Dev :=
  let o : Op := { id := p.nextId, q, w, stale := s.staleAt p.ctx w }
  let p := { p with ops := p.ops ++ [o], nextId := p.nextId + 1 }
  (s.setProg k p.advance).perf (corePage k 0) 0 1

/-- Signal counter `i` of a bank of core `k`. -/
def Dev.sig (s : Dev) (k bank i : Nat) : Nat := Tab.get (fun _ => 0) (s.core k).sig (bank * 16 + i)

/-- Set a signal counter. -/
def Dev.setSig (s : Dev) (k bank i v : Nat) : Dev :=
  let x := s.core k
  s.setCore k { x with sig := Tab.set (fun _ => 0) x.sig (bank * 16 + i) v }

/-- Add to a signal counter: saturation sets SIG_SAT (R219). -/
def Dev.addSig (s : Dev) (k bank i v : Nat) : Dev :=
  let n := s.sig k bank i + v
  let s := s.setSig k bank i (min n 0xFFFFFFFF)
  if 0xFFFFFFFF < n then s.setRb (R.seqStat k) 17 true else s

/-- ARRIVED and RELEASED of a channel. -/
def Dev.arrived (s : Dev) (k ch : Nat) : Nat := s.rf (R.mbxChStat k ch) 0 16
def Dev.relCnt (s : Dev) (k ch : Nat) : Nat := s.rf (R.mbxChStat k ch) 16 16

/-- Messages that a channel holds. -/
def Dev.chHeld (s : Dev) (k ch : Nat) : Nat := (s.arrived k ch + 2 ^ 16 - s.relCnt k ch) % 2 ^ 16

/-- The core of this unit that a physical address names. -/
def Dev.localCore (s : Dev) (a : Nat) : Option Nat := if a / 16 = s.addr then some (a % 16) else none

/-- The physical address of a route's logical core (R209). -/
def Dev.physCore (s : Dev) (r l : Nat) : Option Nat := (s.route r).bind fun x => x.map[l]?

/-- The bank of a route on the core of a physical address (R333). -/
def Dev.bankAt (s : Dev) (r dst : Nat) : Nat :=
  match s.route r with
  | none => 0
  | some x => x.banks.getD (x.map.findIdx (· == dst)) 0

/-- Add to counter `i` of the route's bank on a core of the chain, whose isolated port answers with an error (R25); on another unit by a SIGNAL frame with the sender's
operation (R219). -/
def Dev.signalTo (s : Dev) (r dst i v core op : Nat) : Dev :=
  match s.localCore dst with
  | some k =>
    if s.coreIso k then s.isoHit.ctxFault (((s.route r).map (·.ctx)).getD 0) ⟨.ctxFaultAddr, 0x20⟩ 0 dst 0xFFFF
    else match s.progOf k r with
      | some p => s.addSig k p.bank i v
      | none => s
  | none => s.issue { cls := 0, vc := 2, dst := dst / 16, sub := 6, arg := dst % 16 + i * 16 + s.bankAt r dst * 256
                      payload := bytesOf 4 v } (.msg core op)

/-- FIRST's broadcast of a BARRIER: 1 to counter 15 of every other participant (R220). -/
def Dev.barrierCast (s : Dev) (p : Prog) (first count : Nat) : Dev :=
  (List.range (count - 1)).foldl (fun s i =>
    match s.physCore p.route (first + 1 + i) with
    | some d => s.signalTo p.route d 15 1 16 0
    | none => s) s

/-- A waiting SEQ command is satisfied: the unit after it, or none (R214, R219, R220). TIMEWAIT ends by its own command. -/
def Dev.tryWait (s : Dev) (k : Nat) (p : Prog) (x : SeqWait) : Option Dev :=
  let w := x.w
  let go := fun (s : Dev) => s.setProg k { p with wait := none }.advance
  match cOp w with
  | 0x11 => if cf w 3 0 16 ≤ s.chHeld k (cf w 1 0 5) then some (go s) else none
  | 0x13 =>
    let i := cf w 1 0 4
    let v := (cw w 2).toNat
    if v ≤ s.sig k p.bank i then some (go (s.setSig k p.bank i (s.sig k p.bank i - v))) else none
  | 0x14 =>
    let first := cf w 1 0 8
    let n := cf w 2 0 9
    let need := if p.lcore = first then n - 1 else 1
    if need ≤ s.sig k p.bank 15 then
      let s := s.setSig k p.bank 15 (s.sig k p.bank 15 - need)
      some (go (if p.lcore = first then s.barrierCast p first n else s))
    else none
  | _ => none

/-! ### Arbitration of a core (R335-R337) -/

/-- A section of a model image (R227). -/
structure Sect where
  typ : Nat
  lcore : Nat
  off : Nat
  len : Nat
  dest : Nat
  deriving DecidableEq, Repr

/-- A section entry of 16 bytes. -/
def Sect.ofBytes (b : List Byte) : Sect :=
  let v := natOf b
  { typ := fldN v 0 8, lcore := fldN v 8 8, off := fldN v 32 32, len := fldN v 64 32, dest := fldN v 96 32 }

/-- The sections of the image at a DRAM address. -/
def Dev.sectsAt (s : Dev) (a : Nat) : List Sect :=
  (List.range (natOf (s.bytes (a + 6) 2))).map fun i => Sect.ofBytes (s.bytes (a + 0x40 + 16 * i) 16)

/-- A section's bytes. -/
def Dev.sectBytes (s : Dev) (p : Prog) (x : Sect) : Except CErr (List Byte) × Dev :=
  let a := p.image + x.off
  let (bad, bs, s) := s.memRd p.ctx a x.len
  (if bad then .error ⟨.dataPoisoned, a % 2 ^ 32⟩ else .ok bs, s)

/-- Load sections of a program's logical core one by one with `f`. -/
def Dev.loadSects (f : Dev → Sect → List Byte → Except CErr Dev) (p : Prog) : List Sect → Dev → Except CErr Unit × Dev
  | [], s => (.ok (), s)
  | x :: l, s =>
    let (r, s) := s.sectBytes p x
    match r with
    | .error e => (.error e, s)
    | .ok bs => match f s x bs with
      | .error e => (.error e, s)
      | .ok s => Dev.loadSects f p l s

/-- Launch step 1: the IMEM and LUT sections of the program's logical core go into the VEC. -/
def Dev.loadCode (s : Dev) (k : Nat) (p : Prog) : Except CErr Unit × Dev :=
  let l := (s.sectsAt p.image).filter fun x => (x.typ == 2 || x.typ == 3) && x.lcore == p.lcore
  let (r, s) := Dev.loadSects (fun s x bs =>
    let c := s.core k
    .ok (s.setCore k (if x.typ = 2 then { c with imem := storeBytes c.imem (8 * x.dest) bs }
      else { c with lut := storeBytes c.lut 0 bs }))) p l s
  (r, s.setCore k { s.core k with imemOf := some p.ctx })

/-- CTX_PRIO of a program's context. -/
def Dev.prioOf (s : Dev) (p : Prog) : Nat := s.rf (R.ctxPrio p.ctx) 0 3

/-- A program that is not on its core could run: it is to start, or the first command it would reissue would not wait
(R337). -/
def Dev.runnable (s : Dev) (k : Nat) (p : Prog) : Bool :=
  p.st == .ready || (p.st == .parked && (match p.wait with
    | none => true
    | some x => if cOp x.w = 0x22 then decide ((cw x.w 1).toNat + (cw x.w 2).toNat * 2 ^ 32 ≤ s.ns) else (s.tryWait k p x).isSome))

/-- The program that a core is to run: the runnable one of highest priority, among equals the one runnable longest (R335). -/
def Dev.bestOn (s : Dev) (k : Nat) : Option Prog :=
  ((s.core k).progs.filter (s.runnable k)).foldl (fun b p => match b with
    | none => some p
    | some q => if s.prioOf q < s.prioOf p ∨ (s.prioOf p = s.prioOf q ∧ p.since < q.since) then some p else some q) none

/-- Program `p` takes core `k`: its window and program offset are set (R202, R224, R332). -/
def Dev.takeCore (s : Dev) (k : Nat) (p : Prog) : Dev :=
  let (b, n) := s.window p.ctx
  let s := s.setCore k { s.core k with cur := some p.route }
  let s := s.setProg k { p with st := .run, halt := false }
  ((s.setRf (R.seqAsBase k) 0 23 b).setRf (R.seqAsLimit k) 0 24 (b + n - 20480)).setReg (R.seqProgOff k) (Word.ofNat p.off)

/-- IMEM and LUT hold what another context's program needs: they are loaded again (R337 step 2). -/
def Dev.reload (s : Dev) (k : Nat) (p : Prog) : Except CErr Unit × Dev :=
  if 256 ≤ p.route ∨ (s.core k).imemOf = some p.ctx then (.ok (), s) else s.loadCode k p

/-- An idle core starts its next program, when that is one to start at command 0; a preempted one waits for RESUME. -/
def Dev.arbitrate (s : Dev) (k : Nat) : Dev :=
  if (s.core k).cur.isSome || s.rb R.schedCoreOff k || s.schedDown then s
  else match s.bestOn k with
    | none => s
    | some p =>
      if p.st ≠ .ready then s
      else
        let (r, s) := (s.takeCore k p).reload k p
        match r with
        | .ok _ => s
        | .error e => s.coreFault k 0x20 e

/-- The preempted program's issued commands have completed, but for the MXU and VEC commands that stop and the weight streams
that wait for them (R336 step 2). -/
def Dev.settled (s : Dev) (k : Nat) (p : Prog) : Bool :=
  (s.core k).epi.isNone && !p.bank0.on && !p.bank1.on && p.ops.all fun o =>
    !o.done && o.flight == 0 && (o.q == 0 || (o.q == 1 && cOp o.w == 4)
      || (o.q == 4 && !o.begun && p.ops.any fun x => x.q == 0 && decide (x.id < o.id)))

/-- A program asked to stop leaves its core once it is settled: its state goes to the save area at the top of its window, whose
layout is not an interface (R336 step 3). -/
def Dev.park (s : Dev) (k : Nat) : Dev :=
  match s.prog k with
  | none => s
  | some p =>
    if !p.halt || !s.settled k p then s
    else
      let (b, n) := s.window p.ctx
      let (bs, s) := s.drawBytes 66 20480
      let s := s.asStore k (b + n - 20480) bs false
      let s := s.maxReg R.schedPreemptMax (s.ns - p.since)
      let s := s.setProg k { p with st := .parked, halt := false, since := s.ns }
      s.setCore k { s.core k with cur := none }

/-- A core's program issues; an internal one of the SLV issues no commands (R346). -/
def Dev.coreGoes (s : Dev) (k : Nat) (p : Prog) : Bool :=
  decide (p.route < 256) && p.st == .run && !p.ending && !p.halt && s.blkRuns (corePage k 0)

/-- Issue what core `k` can issue now: queue commands whose DEP is met while a slot is free; a satisfied wait lets issue go on;
it stops at the next SEQ command, which its own command executes. -/
def Dev.pump (s : Dev) (k fuel : Nat) : Dev :=
  match fuel with
  | 0 => s
  | fuel + 1 =>
    match s.prog k with
    | none => s
    | some p =>
      if !s.coreGoes k p then s
      else match p.wait with
        | some x => match s.tryWait k p x with
          | some s => s.pump k fuel
          | none => s
        | none =>
          let (r, s) := s.fetchCmd p
          match r with
          | .error e => s.coreFault k 0x20 e
          | .ok w => match queueOf (cOp w) with
            | none => if cOp w ∈ seqOps then s else s.coreFault k 0x20 (cmdErr w)
            | some q => if depOk p (cDep w) ∧ p.slots < 64 then (s.issueOp k p q w).pump k fuel else s

/-- What core `k` can do at once: a program asked to stop leaves it, an idle core starts its next program, issue goes on. -/
def Dev.pumpCore (s : Dev) (k : Nat) : Dev := ((s.park k).arbitrate k).pump k 200

/-- Issue goes on on every core; twice, since a barrier's first core may let others go on. -/
def Dev.pumpAll (s : Dev) : Dev := (List.range 32).foldl (fun s i => s.pumpCore (i % 16)) s

/-- A command of core `k`: run `f` on the running program, then let issue go on. -/
def Dev.onCore (s : Dev) (k : Nat) (f : Prog → Dev → Dev) : Dev :=
  if 16 ≤ k then s
  else match s.prog k with
    | none => s
    | some p => if p.route < 256 ∧ p.st = .run ∧ s.blkRuns (corePage k 0) = true then (f p s).pumpAll else s

/-- The oldest command of queue `q` not yet done, if it has opcode `op`. -/
def Prog.front (p : Prog) (q op : Nat) : Option Op :=
  match p.ops.find? fun o => o.q == q && !o.done with
  | none => none
  | some o => if cOp o.w = op then some o else none

/-- Replace a command of the running program of core `k`. -/
def Dev.setOp (s : Dev) (k : Nat) (o : Op) : Dev :=
  match s.prog k with
  | none => s
  | some p => s.setProg k { p with ops := p.ops.map fun q => if q.id == o.id then o else q }

/-- A command of core `k` ends with a failure: it is done, and the failure is reported or faults the context. -/
def Dev.opFail (s : Dev) (k blk : Nat) (o : Op) (e : CErr) : Dev := (s.setOp k { o with done := true }).coreFault k blk e

/-- The checks that precede every queue command: its fields, and the handle found stale at issue. -/
def Dev.opCheck (s : Dev) (p : Prog) (o : Op) : Option CErr :=
  if ccmdBad o.w p.len (s.nlOf p.route) then some (cmdErr o.w)
  else if o.stale then some ⟨.staleHandle, cTag o.w⟩ else none

end Sys2Proof.Machine
end

