-- ==== Sys2Proof/Machine/Msg.lean ====
section
/-! DEFINITION. Mailbox channels, credits and NOTIFY messages, signals and barriers, control flow, MOVE and weight streams
(R199, R206-R222). -/

namespace Sys2Proof.Machine

/-! ### Channels (R211-R213) -/

/-- Channel `ch` of core `k` is enabled and a program owns it. -/
def Dev.chOwner (s : Dev) (k ch : Nat) : Option Chan :=
  if s.rb (R.mbxChCfg0 k ch) 31 then ((s.core k).chans.find? (·.1 == ch)).map (·.2) else none

/-- SLOT_SIZE in bytes. -/
def Dev.slotSize (s : Dev) (k ch : Nat) : Nat :=
  let n := s.rf (R.mbxChCfg1 k ch) 0 10
  (if n = 0 then 1024 else n) * 64
/-- SLOTS. -/
def Dev.slotsOf (s : Dev) (k ch : Nat) : Nat := s.rf (R.mbxChCfg1 k ch) 10 8
/-- Sender KIND: 0 a core, else the engine of R218. -/
def Dev.chKind (s : Dev) (k ch : Nat) : Nat := s.rf (R.mbxChCfg2 k ch) 8 4
/-- SENDER, a logical core. -/
def Dev.chSender (s : Dev) (k ch : Nat) : Nat := s.rf (R.mbxChCfg2 k ch) 0 8

/-- A message lands: its bytes in slot ARRIVED mod SLOTS of the landing zone, then ARRIVED grows by 1; on a channel that is not
enabled it is dropped and counted (R211, R213, R225). -/
def Dev.landMsg (s : Dev) (k ch : Nat) (bs : List Byte) : Dev :=
  match s.chOwner k ch with
  | none => s.satInc (R.mbxDropCnt k) 1
  | some o =>
    let slot := s.arrived k ch % max 1 (s.slotsOf k ch)
    let a := (s.window o.ctx).1 + s.rf (R.mbxChCfg0 k ch) 0 23 + slot * s.slotSize k ch
    let s := s.asStore k a bs false
    (s.setRf (R.mbxChStat k ch) 0 16 (s.arrived k ch + 1)).perf (corePage k 4) 1 1

/-- Credits reach a sender core's outbound table (R212). -/
def Dev.gotCredits (s : Dev) (k route dst ch n size : Nat) : Dev :=
  let x := s.core k
  let hit := x.outs.any fun o => o.route == route && o.dst == dst && o.ch == ch
  let outs := if hit then
      x.outs.map fun o => if o.route == route && o.dst == dst && o.ch == ch then { o with credits := o.credits + n } else o
    else x.outs ++ [{ route, dst, ch, credits := n, size }]
  (s.setCore k { x with outs }).setRf (R.mbxOutUsed k) 0 7 outs.length

/-- Channel `ch` of core `k` sends credits to its sender core: on this unit they fly, to another unit in a CREDIT frame. -/
def Dev.sendCredits (s : Dev) (k ch route n : Nat) : Dev :=
  if n = 0 ∨ s.chKind k ch ≠ 0 then s
  else match s.physCore route (s.chSender k ch) with
    | none => s
    | some d => match s.localCore d with
      | some j => { s with eng := { s.eng with credits := s.eng.credits ++
          [{ core := j, route, dst := s.addr * 16 + k, ch, n, size := s.slotSize k ch }] } }
      | none => s.issue { cls := 0, vc := 2, dst := d / 16, sub := 5, arg := d % 16
                          payload := bytesOf 4 (k + ch * 16 + n * 65536) } (.msg 16 0)

/-- The channel table of a logical core in the image at a DRAM address: its bytes, none when the image gives it no table. -/
def Dev.chanTable (s : Dev) (image l : Nat) : Option (List Byte) :=
  ((s.sectsAt image).find? fun x => x.typ == 5 && x.lcore == l).map fun x => s.bytes (image + x.off) 512

/-- Word `i` of entry `ch` of a channel table. -/
def chanWord (bs : List Byte) (ch i : Nat) : Nat := natOf ((bs.drop (16 * ch + 4 * i)).take 4)

/-- SLOT_SIZE in bytes of a channel table's entry. -/
def chanSlot (bs : List Byte) (ch : Nat) : Nat :=
  let n := fldN (chanWord bs ch 1) 0 10
  (if n = 0 then 1024 else n) * 64

/-- The slot size that route `r`'s image gives channel `ch` of the core at a physical address. -/
def Dev.slotAt (s : Dev) (r dst ch : Nat) : Nat :=
  match s.route r with
  | none => 65536
  | some x => match s.model x.model with
    | none => 65536
    | some m => ((s.chanTable (s.hAddr m.h) (x.map.findIdx (· == dst))).map fun b => chanSlot b ch).getD 65536

/-! ### NOTIFY (R218, R212) -/

/-- A NOTIFY lands when its channel's sender is the engine and a slot is free; it waits for a slot; any other is dropped and
counted. -/
def Dev.tryNotify (s : Dev) (x : Notice) : Option Dev :=
  match s.chOwner x.core x.ch with
  | none => some (s.satInc (R.mbxDropCnt x.core) 1)
  | some _ =>
    if s.coreIso x.core then
      let blk := if x.kind = 3 then 0x0F else if x.kind ≤ 2 then 0x10 else if x.kind = 4 then 0x11 else 0x12
      some (s.isoHit.ctxFault x.ctx ⟨.ctxFaultAddr, blk⟩ 0 x.core 0xFFFF)
    else if s.chKind x.core x.ch ≠ x.kind then some (s.satInc (R.mbxDropCnt x.core) 1)
    else if s.chHeld x.core x.ch < s.slotsOf x.core x.ch then some (s.landMsg x.core x.ch x.data)
    else none

/-- An engine sends a NOTIFY: word 0 KIND, CTX, STATUS; words 1-2 the descriptor address; word 3 TAG. -/
def Dev.notify (s : Dev) (kind core ch ctx status addr tag : Nat) : Dev :=
  let data := bytesOf 4 (kind % 256 + ctx % 256 * 256 + status % 65536 * 65536) ++ bytesOf 8 addr ++ bytesOf 4 tag
    ++ List.replicate 48 0
  let x : Notice := { kind, core := core % 16, ch, ctx, data }
  if core / 16 ≠ s.addr then s
  else match s.tryNotify x with
    | some s => s.pumpAll
    | none => { s with eng := { s.eng with notices := s.eng.notices ++ [x] } }

/-- NOTIFYs that waited for a slot of core `k` are tried again, oldest first. -/
def Dev.retryNotices (s : Dev) (k : Nat) : Dev :=
  (s.eng.notices.filter (·.core == k)).foldl (fun s x =>
    match s.tryNotify x with
    | some s => { s with eng := { s.eng with notices := s.eng.notices.filter (· != x) } }
    | none => s) s

/-! ### SEND (R212, R213, R215) -/

/-- Unit `u` is in the chain as this unit sees it. -/
def Dev.unitThere (s : Dev) (u : Nat) : Bool :=
  if s.isMgr then s.unitIn u else u == s.addr || routeOf (s.rn R.chainRoute) u != 3

/-- What a send to a logical core's channel comes to: it fails, it waits for a credit, or its destination and outbound
entry. -/
inductive SendTo where
  | fail (e : CErr)
  | wait
  | go (dst : Nat) (o : OutEnt)
  deriving DecidableEq, Repr

/-- Check a send of `n` bytes by route `r` of core `k` (R209, R212, R213, R215, R217). -/
def Dev.sendTo (s : Dev) (k r l ch n tag : Nat) (halo : Bool) : SendTo :=
  if halo != decide (28 ≤ ch) || n == 0 || decide (65536 < n) || n % 64 != 0 then .fail ⟨.ctxFaultCmd, tag⟩
  else match s.physCore r l with
    | none => .fail ⟨.ctxFaultAddr, l⟩
    | some d =>
      if !s.unitThere (d / 16) then .fail ⟨.unitLost, d / 16⟩
      else match (s.core k).outs.find? fun o => o.route == r && o.dst == d && o.ch == ch with
        | none => .wait
        | some o => if o.credits = 0 then .wait else if o.size < n then .fail ⟨.ctxFaultCmd, tag⟩ else .go d o

/-- Send a message of operation `op`, taking one credit: it flies to a core of this unit, or goes in MESSAGE frames of at most
256 B (R213). The number of pieces in flight. A frame that the Vent blocks is not sent, and the program fails (R407). -/
def Dev.sendMsg (s : Dev) (k op dst ch : Nat) (halo : Bool) (o : OutEnt) (bs : List Byte) : Nat × Dev :=
  let c := ((s.prog k).map (·.ctx)).getD 0
  let (ok, s) := if (s.localCore dst).isSome then (true, s) else s.chainMay 1 (2 ^ 63 + k * 2 ^ 24) (dst / 16) c (80 + k)
  if !ok then (0, s.coreFault k 0x24 ⟨.ctxFaultAddr, 0⟩) else
  let x := s.core k
  let outs := x.outs.map fun e => if e = o then { e with credits := e.credits - 1 } else e
  let s := s.setCore k { x with outs }
  let s := (s.perf (corePage k 4) 0 1).perf (corePage k 4) 2 (bs.length / 64)
  match s.localCore dst with
  | some j => (1, { s with eng := { s.eng with flights := s.eng.flights ++ [{ dst := j, ch, data := bs, core := k, op }] } })
  | none =>
    let n := (bs.length + 255) / 256
    (n, (List.range n).foldl (fun s i =>
      s.issue { cls := 0, vc := 2, dst := dst / 16, sub := 4
                arg := dst % 16 + ch * 16 + bN halo * 512 + i * 1024 + (if i + 1 = n then 2 ^ 18 else 0)
                payload := (bs.drop (256 * i)).take 256 } (.msg k op)) s)

/-- A piece of operation `op` of core `k` has been acknowledged. -/
def Dev.flightDone (s : Dev) (k op : Nat) : Dev :=
  if 16 ≤ k then s
  else match s.prog k with
    | none => s
    | some p => match p.ops.find? (·.id == op) with
      | none => s
      | some o => s.setOp k { o with flight := o.flight - 1 }

/-- SEND: the command at the head of its sub-queue sends when it holds a credit. -/
def Dev.sendCmd (k : Nat) (halo : Bool) (p : Prog) (s : Dev) : Dev :=
  match p.ops.find? fun o => o.q == 3 && !o.done && decide (cXf o.w 0 1 = bN halo) with
  | none => s
  | some o => match s.opCheck p o with
    | some e => s.opFail k 0x24 o e
    | none =>
      let n := cf o.w 2 0 17
      let ch := cf o.w 3 8 5
      match s.sendTo k p.route (cf o.w 3 0 8) ch n (cTag o.w) halo with
      | .fail e => s.opFail k 0x24 o e
      | .wait => s
      | .go d e => match s.asRd k (cf o.w 1 0 23) n with
        | .error e => s.opFail k 0x24 o e
        | .ok bs =>
          let (m, s) := s.sendMsg k o.id d ch halo e bs
          s.setOp k { o with done := true, flight := m }

def execSend (core : Nat) (halo : Bool) (s : State) : Host.Outcome State Fault Refusal :=
  .next { s with toDev := s.toDev.onCore core (Dev.sendCmd core halo) }

/-- A message of this unit in flight to channel `ch` of core `k` lands, in send order (R213); at an isolated port its sender's
context faults (R25). -/
def Dev.landFlight (s : Dev) (k ch : Nat) : Dev :=
  match s.eng.flights.find? fun f => f.dst == k && f.ch == ch with
  | none => s
  | some f =>
    let l := s.eng.flights
    let s : Dev := { s with eng := { s.eng with flights := l.eraseP fun g => g.dst == k && g.ch == ch } }
    if s.coreIso k then ((s.isoHit.coreFault f.core 0x24 ⟨.ctxFaultAddr, k⟩).flightDone f.core f.op).pumpAll
    else ((s.landMsg k ch f.data).flightDone f.core f.op).pumpAll

/-- A MESSAGE frame from another unit: the last one of a message lands it whole (R213). -/
def Dev.rxMessage (s : Dev) (f : Frame) : Dev :=
  let k := fldN f.arg 0 4
  let ch := fldN f.arg 4 5
  let key := k * 32 + ch
  let bs := Tab.get (fun _ => []) s.eng.partials key ++ f.payload
  if bitN f.arg 18 then
    let s : Dev := { s with eng := { s.eng with partials := Tab.del key s.eng.partials } }
    (s.landMsg k ch bs).pumpAll
  else { s with eng := { s.eng with partials := Tab.set (fun _ => []) s.eng.partials key bs } }

/-- Credits of this unit in flight to core `k` arrive (R212). -/
def Dev.landCredit (s : Dev) (k : Nat) : Dev :=
  match s.eng.credits.find? (·.core == k) with
  | none => s
  | some c =>
    let s : Dev := { s with eng := { s.eng with credits := s.eng.credits.eraseP (·.core == k) } }
    if s.coreIso k then s.isoHit.coreFault (c.dst % 16) 0x24 ⟨.ctxFaultAddr, k⟩
    else s.gotCredits k c.route c.dst c.ch c.n c.size

/-- The route number under which credits are held that arrive before their route is launched here (R224). -/
def noRoute : Nat := 65535

/-- A CREDIT frame: its route is the one of the sender core's routes that maps the receiver (R212). -/
def Dev.rxCredit (s : Dev) (f : Frame) : Dev :=
  let k := fldN f.arg 0 4
  let v := natOf (f.payload.take 4)
  let dst := f.src * 16 + fldN v 0 4
  let ch := fldN v 4 5
  let x := s.core k
  match x.outs.find? fun o => o.dst == dst && o.ch == ch with
  | some o => s.gotCredits k o.route dst ch (fldN v 16 16) o.size
  | none => match x.progs.find? fun p => match s.route p.route with
      | some r => r.map.contains dst
      | none => false with
    | some p => s.gotCredits k p.route dst ch (fldN v 16 16) (s.slotAt p.route dst ch)
    | none => s.gotCredits k noRoute dst ch (fldN v 16 16) 0

/-- Credits held for a route that is now launched on core `k` become the route's. -/
def Dev.claimCredits (s : Dev) (k r : Nat) (map : List Nat) : Dev :=
  let x := s.core k
  s.setCore k { x with outs := x.outs.map fun o =>
    if o.route = noRoute ∧ map.contains o.dst = true then { o with route := r, size := s.slotAt r o.dst o.ch } else o }

/-- A SIGNAL frame adds to a counter of a route bank (R219). -/
def Dev.rxSignal (s : Dev) (f : Frame) : Dev :=
  (s.addSig (fldN f.arg 0 4) (fldN f.arg 8 2) (fldN f.arg 4 4) (natOf (f.payload.take 4))).pumpAll

/-! ### SEQ commands (R214, R219-R222) -/

/-- A SEQ command of core `k`: the next to issue has the opcode, its DEP is met, a slot is free, its fields are legal. -/
def Dev.seqCmd (s : Dev) (k op : Nat) (f : Prog → List Word → Dev → Dev) : Dev :=
  s.onCore k fun p s =>
    if p.wait.isSome || p.ending then s
    else
      let (r, s) := s.fetchCmd p
      match r with
      | .error _ => s
      | .ok w =>
        if cOp w ≠ op ∨ depOk p (cDep w) = false ∨ 64 ≤ p.slots then s
        else if ccmdBad w p.len (s.nlOf p.route) then s.coreFault k 0x20 (cmdErr w)
        else f p w (s.perf (corePage k 0) 0 1)

/-- Wait with a SEQ command. -/
def Dev.seqWait (s : Dev) (k : Nat) (p : Prog) (w : List Word) : Dev := s.setProg k { p with wait := some { w, acted := true } }

/-- RECV: release, return the credits, then await (R214). -/
def Dev.recvCmd (k : Nat) (p : Prog) (w : List Word) (s : Dev) : Dev :=
  let ch := cf w 1 0 5
  let n := cf w 2 0 16
  let own := match s.chOwner k ch with
    | some o => o.route == p.route
    | none => false
  if !own || decide (s.chHeld k ch < n) || decide (s.slotsOf k ch < cf w 3 0 16) then s.coreFault k 0x24 (cmdErr w)
  else
    let s := s.setRf (R.mbxChStat k ch) 16 16 (s.relCnt k ch + n)
    ((s.sendCredits k ch p.route n).seqWait k p w).retryNotices k

def execRecv (core : Nat) (s : State) : Host.Outcome State Fault Refusal :=
  .next { s with toDev := s.toDev.seqCmd core 0x11 (Dev.recvCmd core) }

/-- SIGNAL: issued when every earlier command has completed; to another unit it holds its slot until it is answered (R199,
R217, R219). -/
def Dev.signalCmd (k : Nat) (p : Prog) (w : List Word) (s : Dev) : Dev :=
  if p.ops ≠ [] then s
  else match s.physCore p.route (cf w 1 0 8) with
    | none => s.coreFault k 0x20 ⟨.ctxFaultAddr, cf w 1 0 8⟩
    | some d =>
      if !s.unitThere (d / 16) then s.coreFault k 0x20 ⟨.unitLost, d / 16⟩
      else
        let far := (s.localCore d).isNone
        let o : Op := { id := p.nextId, q := 5, w, done := true, flight := 1 }
        let p' := { p with nextId := p.nextId + 1, ops := if far then p.ops ++ [o] else p.ops }
        (s.setProg k p'.advance).signalTo p.route d (cf w 1 8 4) (cw w 2).toNat k p.nextId

/-- WAIT (R219): issue goes on when the counter is high enough. -/
def execWait (core : Nat) (s : State) : Host.Outcome State Fault Refusal :=
  .next { s with toDev := s.toDev.seqCmd core 0x13 fun p w s => s.seqWait core p w }

/-- BARRIER: issued when every earlier command has completed; a core outside the range fails (R199, R220). -/
def Dev.barrierCmd (k : Nat) (p : Prog) (w : List Word) (s : Dev) : Dev :=
  let first := cf w 1 0 8
  if p.ops ≠ [] then s
  else if p.lcore < first ∨ first + cf w 2 0 9 ≤ p.lcore then s.coreFault k 0x20 (cmdErr w)
  else
    let s := s.seqWait k p w
    if p.lcore = first then s
    else match s.physCore p.route first with
      | some d => s.signalTo p.route d 15 1 16 0
      | none => s

def execBarrier (core : Nat) (s : State) : Host.Outcome State Fault Refusal :=
  .next { s with toDev := s.toDev.seqCmd core 0x14 (Dev.barrierCmd core) }

/-- LOOP (R221). -/
def Dev.loopCmd (k : Nat) (p : Prog) (w : List Word) (s : Dev) : Dev :=
  let stop := p.pc + 1 + cf w 2 0 12
  if 4 ≤ p.loops.length ∨ p.len < stop then s.coreFault k 0x20 (cmdErr w)
  else s.setProg k { p with
    pc := p.pc + 1, lcs := Tab.set (fun _ => 0) p.lcs p.loops.length 0
    loops := { first := p.pc + 1, last := stop, count := cf w 1 0 16, lc := 0 } :: p.loops }

def execLoop (core : Nat) (s : State) : Host.Outcome State Fault Refusal :=
  .next { s with toDev := s.toDev.seqCmd core 0x20 (Dev.loopCmd core) }

/-- A loop counter by depth. -/
def Prog.lc (p : Prog) (j : Nat) : Nat := Tab.get (fun _ => 0) p.lcs j

/-- The condition of a BRANCH. -/
def Dev.branchHolds (s : Dev) (k : Nat) (p : Prog) (w : List Word) : Bool :=
  let v := (cw w 3).toNat
  let j := cf w 2 0 4
  match cXf w 0 3 with
  | 0 => true
  | 1 => p.lc j == v
  | 2 => p.lc j != v
  | 3 => decide (v ≤ s.sig k p.bank j)
  | _ => decide (s.sig k p.bank j < v)

/-- BRANCH: taken, it ends every loop whose body excludes the target (R221). -/
def Dev.branchCmd (k : Nat) (p : Prog) (w : List Word) (s : Dev) : Dev :=
  let t := (cw w 1).toNat
  if s.branchHolds k p w then
    s.setProg k { p with pc := t, loops := p.loops.dropWhile fun l => !(decide (l.first ≤ t) && decide (t < l.last)) }
  else s.setProg k p.advance

def execBranch (core : Nat) (s : State) : Host.Outcome State Fault Refusal :=
  .next { s with toDev := s.toDev.seqCmd core 0x21 (Dev.branchCmd core) }

/-- T of a TIMEWAIT. -/
def waitTime (w : List Word) : Nat := (cw w 1).toNat + (cw w 2).toNat * 2 ^ 32

/-- TIMEWAIT: a time already past lets issue go on at once (R222). -/
def Dev.timeWaitCmd (k : Nat) (p : Prog) (w : List Word) (s : Dev) : Dev :=
  if waitTime w ≤ s.ns then s.setProg k p.advance else s.seqWait k p w

def execTimewait (core : Nat) (s : State) : Host.Outcome State Fault Refusal :=
  .next { s with toDev := s.toDev.seqCmd core 0x22 (Dev.timeWaitCmd core) }

/-- TIMEWAIT_REACHED: shop time has reached T, and issue resumes (R222). -/
def Dev.timeReached (k : Nat) (p : Prog) (s : Dev) : Dev :=
  match p.wait with
  | none => s
  | some x => if cOp x.w = 0x22 ∧ waitTime x.w ≤ s.ns then s.setProg k { p with wait := none }.advance else s

def execTimewaitReached (core : Nat) (s : State) : Host.Outcome State Fault Refusal :=
  .next { s with toDev := s.toDev.onCore core (Dev.timeReached core) }

/-- SEQ_WAIT_TIMEOUT: a RECV, WAIT or BARRIER has waited SEQ_WAIT_TMO, when that is not 0 (R216). -/
def Dev.seqTimeout (k : Nat) (p : Prog) (s : Dev) : Dev :=
  match p.wait with
  | none => s
  | some x =>
    let t := s.rn (R.seqWaitTmo k)
    if cOp x.w = 0x22 ∨ t = 0 then s
    else (s.setProg k { p with wait := none }).coreFault k 0x20 ⟨.ctxFaultTimeout, t⟩

def execSeqWaitTimeout (core : Nat) (s : State) : Host.Outcome State Fault Refusal :=
  .next { s with toDev := s.toDev.onCore core (Dev.seqTimeout core) }

/-! ### MOVE (R226) -/

/-- Read one row of a MOVE. -/
def Dev.moveRd (s : Dev) (k : Nat) (p : Prog) (w : List Word) (i n : Nat) : Except CErr (List Byte) × Dev :=
  let step := i * (cf w 7 0 16 * 64)
  if cXf w 0 2 = 0 then (s.asRd k (cf w 1 0 23 + step) n, s)
  else match s.operand p (cw w 1).toNat ((cw w 2).toNat + step) n with
    | .error e => (.error e, s)
    | .ok a =>
      let (bad, bs, s) := s.memRd p.ctx a n
      (if bad then .error ⟨.dataPoisoned, a % 2 ^ 32⟩ else .ok bs, s)

/-- Write one row of a MOVE: to the AS, DRAM, the VEC's IMEM or its table memory. -/
def Dev.moveWr (s : Dev) (k : Nat) (p : Prog) (w : List Word) (i : Nat) (bs : List Byte) : Except CErr Dev :=
  let step := i * (cf w 7 16 16 * 64)
  let x := s.core k
  match cXf w 2 2 with
  | 0 => s.asWr k (cf w 3 0 23 + step) bs false
  | 1 => match s.operand p (cw w 3).toNat ((cw w 4).toNat + step) bs.length with
    | .error e => .error e
    | .ok a => .ok (s.memWr p.ctx a bs false)
  | 2 => .ok (s.setCore k { x with imem := storeBytes x.imem ((cw w 3).toNat + step) bs })
  | _ => .ok (s.setCore k { x with lut := storeBytes x.lut ((cw w 3).toNat + step) bs })

/-- The rows of a MOVE from row `i` on. -/
def Dev.moveRows (s : Dev) (k : Nat) (p : Prog) (w : List Word) : Nat → Nat → Except CErr Unit × Dev
  | 0, _ => (.ok (), s)
  | fuel + 1, i =>
    let (r, s) := s.moveRd k p w i (cf w 5 0 24)
    match r with
    | .error e => (.error e, s)
    | .ok bs => match s.moveWr k p w i bs with
      | .error e => (.error e, s)
      | .ok s => s.moveRows k p w fuel (i + 1)

/-- MOVE: the oldest command of the MOV queue copies its rows. -/
def Dev.moveCmd (k : Nat) (p : Prog) (s : Dev) : Dev :=
  match p.front 2 5 with
  | none => s
  | some o => match s.opCheck p o with
    | some e => s.opFail k 0x20 o e
    | none =>
      let (r, s) := s.moveRows k p o.w (cf o.w 6 0 16) 0
      match r with
      | .error e => s.opFail k 0x20 o e
      | .ok _ => s.setOp k { o with done := true }

def execMove (core : Nat) (s : State) : Host.Outcome State Fault Refusal :=
  .next { s with toDev := s.toDev.onCore core (Dev.moveCmd core) }

/-! ### WSTREAM (R206-R208) -/

/-- HALF. -/
def wsHalf (w : List Word) : Nat := cXf w 0 1
/-- GROUP. -/
def wsGroup (w : List Word) : Nat := cXf w 2 3

/-- The half of a core's weight stage is free for a WSTREAM: no MXU command issued before it that reads the half is
incomplete (R206). -/
def halfFree (p : Prog) (o : Op) : Bool :=
  p.ops.all fun q => !(q.q == 0 && decide (q.id < o.id) && cf q.w 2 29 2 == wsHalf o.w)

/-- The latest WSTREAM into a half issued before an MXU command has completed (R206). -/
def weightsReady (p : Prog) (o : Op) : Bool :=
  p.ops.all fun q => !(q.q == 4 && decide (q.id < o.id) && wsHalf q.w == cf o.w 2 29 2)

/-- The core's oldest undone WSTREAM. -/
def Prog.wsFront (p : Prog) : Option Op := p.front 4 6

/-- The bytes of a WSTREAM: a buffer marked BAD fails before it is read; a poisoned sector fails it (R149, R207). -/
def Dev.wsRead (s : Dev) (p : Prog) (w : List Word) : Except CErr (List Byte) × Dev :=
  let h := (cw w 1).toNat
  let n := cf w 3 0 21
  let bad := if h = 0 then (match s.ownerOf p.image with | some (q, i) => (s.buf q i).bad | none => false)
             else (s.buf (hPool h) (hIdx h)).bad
  match s.operand p h (cw w 2).toNat n with
  | .error e => (.error e, s)
  | .ok a =>
    if bad then (.error ⟨.dataPoisoned, a % 2 ^ 32⟩, s)
    else
      let (b, bs, s) := s.memRd p.ctx a n
      (if b then .error ⟨.dataPoisoned, a % 2 ^ 32⟩ else .ok bs, s)

/-- Fill a half of core `k`'s weight stage and end its WSTREAM. -/
def Dev.wsFill (s : Dev) (k : Nat) (o : Op) (bs : List Byte) : Dev :=
  let x := s.core k
  let s := s.setCore k { x with ws := storeBytes x.ws (wsHalf o.w * 2 ^ 20 + cf o.w 4 0 20) bs }
  let s := match s.prog k with
    | none => s
    | some p => s.setProg k (if wsHalf o.w = 0 then { p with wsA := some o.w } else { p with wsB := some o.w })
  (s.setOp k { o with done := true }).perf (corePage k 5) 0 (bs.length / 64)

/-- The cores of a multicast group of this unit, or none when the group is not enabled (R208). One table per unit. -/
def Dev.mcast (s : Dev) (g : Nat) : Option (List Nat) :=
  let m := s.reg (R.wsuMcastMask 0 g)
  if m.bit 16 then some ((List.range 16).filter fun k => m.bit k) else none

/-- The joined WSTREAM of core `k` to group `g`, if it has one. -/
def Dev.joined (s : Dev) (g k : Nat) : Option (Prog × Op) :=
  match s.prog k with
  | none => none
  | some p => match p.wsFront with
    | none => none
    | some o => if o.begun && cXf o.w 1 1 == 1 && wsGroup o.w == g then some (p, o) else none

/-- The parameters that a group's members must share: handle, OFFSET, LEN, DST_OFF and HALF. -/
def wsKey (w : List Word) : Nat × Word × Word × Nat × Nat := (wsHalf w, cw w 1, cw w 2, cf w 3 0 21, cf w 4 0 20)

/-- The multicast read of a group: when every member has joined and every half is free, one read fills every half. -/
def Dev.mcastGo (s : Dev) (g : Nat) (members : List Nat) : Dev :=
  let js := members.map fun k => (k, s.joined g k)
  if js.all fun j => match j.2 with | some (p, o) => halfFree p o | none => false then
    match js.head? with
    | some (_, some (p, o)) =>
      let (r, s) := s.wsRead p o.w
      match r with
      | .error e => js.foldl (fun s j => match j.2 with | some (_, o) => s.opFail j.1 0x25 o e | none => s) s
      | .ok bs =>
        let s := js.foldl (fun s j => match j.2 with
          | some (_, o) => ((s.wsFill j.1 o bs).setRb (R.wsuStat j.1) 2 false).perf (corePage j.1 5) 1 1
          | none => s) s
        (js.drop 1).foldl (fun s j => s.perf (corePage j.1 5) 2 (bs.length / 64)) s
    | _ => s
  else s

/-- WSTREAM with MCAST: join the group; parameters that differ from the first arrival's fail. -/
def Dev.wsJoin (s : Dev) (k : Nat) (o : Op) : Dev :=
  let g := wsGroup o.w
  match s.mcast g with
  | none => s.opFail k 0x25 o (cmdErr o.w)
  | some ms =>
    if !ms.contains k then s.opFail k 0x25 o (cmdErr o.w)
    else if o.begun then s.mcastGo g ms
    else
      let others := ms.filterMap fun j => (s.joined g j).map (·.2)
      if others.any fun q => wsKey q.w != wsKey o.w then s.opFail k 0x25 o (cmdErr o.w)
      else ((s.setOp k { o with begun := true }).setRb (R.wsuStat k) 2 true).mcastGo g ms

/-- WSTREAM: the oldest command of the WSU queue. -/
def Dev.wstreamCmd (k : Nat) (p : Prog) (s : Dev) : Dev :=
  match p.wsFront with
  | none => s
  | some o => match s.opCheck p o with
    | some e => s.opFail k 0x25 o e
    | none =>
      if cXf o.w 1 1 = 1 then s.wsJoin k o
      else if !halfFree p o then s
      else
        let (r, s) := s.wsRead p o.w
        match r with
        | .error e => s.opFail k 0x25 o e
        | .ok bs => s.wsFill k o bs

def execWstream (core : Nat) (s : State) : Host.Outcome State Fault Refusal :=
  .next { s with toDev := s.toDev.onCore core (Dev.wstreamCmd core) }

/-- WSU_MCAST_TIMEOUT: the members of a group that wait fail when not all have joined (R208). -/
def Dev.mcastTimeout (s : Dev) (g : Nat) : Dev :=
  match s.mcast g with
  | none => s
  | some ms =>
    let js := ms.filterMap fun k => (s.joined g k).map fun j => (k, j.2)
    match js with
    | [] => s
    | j :: _ =>
      let t := s.rn (R.wsuMcastTmo j.1)
      if t = 0 ∨ js.length = ms.length then s
      else (js.foldl (fun s j => (s.setRb (R.wsuStat j.1) 2 false).opFail j.1 0x25 j.2 ⟨.ctxFaultTimeout, t⟩) s).pumpAll

def execWsuMcastTimeout (group : Nat) (s : State) : Host.Outcome State Fault Refusal :=
  .next { s with toDev := s.toDev.mcastTimeout group }

end Sys2Proof.Machine
end

