-- ==== Sys2Proof/Machine/Epi.lean ====
section
/-! DEFINITION. Epilogues: the stage list of a MATMUL, CONV or DWCONV command on the results of one pass (R260-R271), and the
program record of a vector-program epilogue (R272). Working values are 32-bit words; a working type is an MFMT code 0-5, 6 for
INT32 or 7 for FP32. -/

namespace Sys2Proof.Machine

/-- What an epilogue knows of a pass (R249): `cmd` 0 MATMUL, 1 CONV, 2 DWCONV; M and N, the pass's rows, its coordinates, and
whether it is the last of its output row. -/
structure PassAt where
  cmd : Nat
  m : Nat
  n : Nat
  mb : Nat
  p : Nat := 0
  b : Nat := 0
  oy : Nat := 0
  oy0 : Nat := 0
  ox : Nat := 0
  ox0 : Nat := 0
  tw : Nat := 0
  oc0 : Nat := 0
  last : Bool := true
  deriving DecidableEq, Repr

/-- A stage: STAGE, OPT, ADDR, IMM, the working type it takes, and whether a TRANSPOSE precedes it. -/
structure Stage where
  k : Nat
  opt : Nat
  addr : Nat
  imm : Word
  t : Nat
  tr : Bool
  deriving DecidableEq, Repr

/-- A packed pitch: `n` elements of `e` bytes in whole 64-byte blocks (R267). -/
def packed (n e : Nat) : Nat := roundUp (n * e) 64

/-- Element size of a working type. -/
def wtSize (t : Nat) : Nat := if 6 ≤ t then 4 else elemSize t

/-- Working type after a stage. -/
def Stage.after (s : Stage) : Nat := if s.k = 1 then 7 else if s.k = 3 then s.opt % 8 else s.t

/-- LEN of a SEND stage's message (R269). -/
def Stage.len (s : Stage) (a : PassAt) : Nat :=
  if a.cmd = 0 then a.m * packed a.n (wtSize s.t) else a.n * packed a.tw (wtSize s.t)

/-- A stage is illegal where it stands, after `rq` REQUANT and `tr` TRANSPOSE stages (R260-R269). -/
def Stage.bad (s : Stage) (a : PassAt) (rq tr : Nat) : Bool :=
  decide (10 < s.k) || s.addr % (if s.k = 4 ∨ 8 ≤ s.k then 64 else 4) != 0
    || (s.k == 3 && (rq != 0 || decide (5 < s.opt % 8)))
    || (s.k == 7 && (tr != 0 || a.cmd != 0))
    || (rq != 0 && (s.k == 0 || s.k == 1 || s.k == 2 || s.k == 4 || s.k == 5 || s.k == 6))
    || (s.k == 2 && (decide (7 < s.opt) || (s.t == 6 && s.opt != 0)))
    || ((s.k == 5 || s.k == 6) && s.opt % 4 == 3)
    || (s.k == 4 && s.opt % 8 == 7)
    || (s.k == 10 && (a.cmd != 0 || decide (6 ≤ s.t)))
    || (s.k == 9 && decide (65536 < s.len a))

/-- A stage descriptor of 8 bytes. -/
def stageOf (bs : List Byte) (t : Nat) (tr : Bool) : Stage :=
  let v := natOf bs
  { k := fldN v 0 4, opt := fldN v 4 4, addr := fldN v 8 23, imm := Word.ofNat (v / 2 ^ 32), t, tr }

/-- The stages of an epilogue block, or the index of the stage at which the list is illegal. -/
def stagesOf (a : PassAt) : Nat → Nat → Nat → Nat → Bool → List Byte → Except Nat (List Stage)
  | 0, _, _, _, _, _ => .ok []
  | n + 1, i, t, rq, tr, bs =>
    let s := stageOf (bs.take 8) t tr
    if s.bad a rq (bN tr) then .error i
    else match stagesOf a n (i + 1) s.after (if s.k = 3 then rq + 1 else rq) (tr || s.k == 7) (bs.drop 8) with
      | .error e => .error e
      | .ok l => .ok (s :: l)

/-- A stage gives the list a result (R260). -/
def Stage.gives (s : Stage) : Bool := s.k == 5 || s.k == 6 || decide (8 ≤ s.k)

/-- The checked stages of a block of `n` stages whose accumulators have working type `t`. -/
def epiStages (a : PassAt) (n t : Nat) (blk : List Byte) : Except Nat (List Stage) :=
  match stagesOf a n 0 t 0 false (blk.drop 16) with
  | .error e => .error e
  | .ok l => if l.any Stage.gives then .ok l else .error 0

/-- The parameter vector that a stage reads once at the command's start: its offset and length (R261, R264, R270). -/
def Stage.parm (s : Stage) (n : Nat) : Nat :=
  if (s.k = 0 ∨ s.k = 1) ∧ s.opt % 2 = 0 then 4 * n
  else if s.k = 3 ∧ s.t = 6 ∧ s.opt % 8 < 2 then (if s.imm.bit 0 then 8 else 8 * n)
  else 0

/-- Word `j` of a parameter. -/
def parmWord (bs : List Byte) (j : Nat) : Word := Word.ofNat (natOf ((bs.drop (4 * j)).take 4))

/-! ### Element arithmetic -/

/-- BIAS arithmetic on a working type (R261). -/
def wtAdd (t : Nat) (x y : Word) : Word := if t = 6 then wordOfInt (sat32 (x.int + y.int)) else fadd x y

/-- One step of a reduction (R266). -/
def redStep (op t : Nat) (acc x : Word) : Word :=
  match op with
  | 0 => wtAdd t acc x
  | 1 => if t = 6 then (if acc.int < x.int then x else acc) else fmax acc x
  | _ => if t = 6 then wordOfInt (sat32 (acc.int + x.int * x.int)) else ffma x x acc

/-- The first element's contribution to a reduction. -/
def redFirst (op t : Nat) (x : Word) : Word :=
  if op = 2 then (if t = 6 then wordOfInt (sat32 (x.int * x.int)) else fmul x x) else x

/-- Reduce a list, from a starting word or from its first element. -/
def redList (op t : Nat) (start : Option Word) (l : List Word) : Word :=
  match start, l with
  | some a, l => l.foldl (redStep op t) a
  | none, [] => 0
  | none, x :: r => r.foldl (redStep op t) (redFirst op t x)

/-- REQUANT of element *x* of column `j` (R264, R265). -/
def requantAt (s : Stage) (parm : List Byte) (j : Nat) (x : Word) : Word :=
  let f := s.opt % 8
  if s.t = 6 ∧ f < 2 then
    let i := if s.imm.bit 0 then 0 else 2 * j
    let w := parmWord parm (i + 1)
    Word.ofNat (requantInt f x.int (parmWord parm i).int (w.fld 0 6) (toSigned 16 (w.fld 16 16)))
  else Word.ofNat (encOf f (s.opt / 8 % 2 == 1) (if s.t = 6 then fofInt x.int else x))

/-- The value-changing stages on element *x* of column `j`. -/
def stageElem (lut : Nat → Nat → Word) (s : Stage) (parm : List Byte) (j : Nat) (x : Word) : Word :=
  let y := if s.opt % 2 = 1 then s.imm else parmWord parm j
  match s.k with
  | 0 => wtAdd s.t x y
  | 1 => fmul (if s.t = 6 then fofInt x.int else x) y
  | 2 => if s.t = 6 then (if x.int < 0 then 0 else x) else actFn lut s.opt s.imm x
  | 3 => requantAt s parm j x
  | _ => x

/-! ### Placement (R267-R269) -/

/-- Offset of element (*i*, *j*) for STORE with ADDR 0, from the layout record's pitches in bytes and ROW0 (R267). -/
def placeAt (a : PassAt) (e : Nat) (tr : Bool) (rp pp row0 : Nat) (i j : Nat) : Int :=
  let rp := if rp = 0 then packed a.n e else rp
  if a.cmd = 0 then (if tr then j * rp + i * e else i * rp + j * e : Nat)
  else ((a.oc0 + j) * pp : Nat) + ((a.oy : Int) - row0) * rp + ((a.ox + i) * e : Nat)

/-- Offset of an element in a message's staging region (R269). -/
def stageAt (a : PassAt) (e : Nat) (tr : Bool) (i j : Nat) : Int :=
  if a.cmd = 0 then placeAt a e tr 0 0 0 i j else (j * packed a.tw e + (a.ox + i - a.ox0) * e : Nat)

/-- The elements of a pass in the order in which their bytes ascend. -/
def elemOrder (a : PassAt) (tr : Bool) : List (Nat × Nat) :=
  if a.cmd = 0 && !tr then (List.range a.mb).flatMap fun i => (List.range a.n).map fun j => (i, j)
  else (List.range a.n).flatMap fun j => (List.range a.mb).map fun i => (i, j)

/-- Join writes whose bytes follow each other. -/
def mergeRuns (l : List (Int × List Byte)) : List (Int × List Byte) :=
  l.foldr (fun w acc => match acc with
    | [] => [w]
    | v :: r => if w.1 + w.2.length = v.1 then (w.1, w.2 ++ v.2) :: r else w :: v :: r) []

/-- Element (*i*, *j*) of a result. -/
def cellOf (x : List (List Word)) (i j : Nat) : Word := (x.getD i []).getD j 0

/-- Write the elements of a pass at the offsets `at_` gives. -/
def Dev.putCells (s : Dev) (k base e : Nat) (poison : Bool) (at_ : Nat → Nat → Int) (order : List (Nat × Nat))
    (x : List (List Word)) : Except CErr Dev :=
  let l := mergeRuns (order.map fun q => ((base : Int) + at_ q.1 q.2, bytesOf e (cellOf x q.1 q.2).toNat))
  l.foldlM (fun s w => if w.1 < 0 then .error ⟨.ctxFaultAddr, ofSigned 32 w.1⟩ else s.asWr k w.1.toNat w.2 poison) s

/-! ### A pass through the list -/

/-- An epilogue under way: the working values, the unit, the running column reductions and the messages in flight. -/
structure EpiRun where
  x : List (List Word)
  dev : Dev
  cols : Tab (List Word)
  flight : Nat
  deriving DecidableEq, Repr

/-- The LUT memory of core `k` as tables of words. -/
def Dev.lut (s : Dev) (k t n : Nat) : Word :=
  Word.ofNat (natOf ((List.range 4).map fun i => Tab.get (fun _ => 0) (s.core k).lut (1024 * t + 4 * n + i)))

/-- Words at a window offset. -/
def Dev.asWords (s : Dev) (k off n : Nat) : Except CErr (List Word) := (s.asRd k off (4 * n)).map wordsOf

/-- RESID (R261): the element of the residual tensor at the STORE address with base ADDR, converted as VLD does, added. -/
def Dev.residStage (s : Dev) (k : Nat) (a : PassAt) (st : Stage) (rp pp row0 : Nat) (x : List (List Word)) :
    Except CErr (List (List Word)) :=
  let f := st.opt % 8
  let e := elemSize f
  (List.range a.mb).mapM fun i => (List.range a.n).mapM fun j =>
    let o := (st.addr : Int) + placeAt a e st.tr rp pp row0 i j
    if o < 0 then .error ⟨.ctxFaultAddr, ofSigned 32 o⟩
    else (s.asRd k o.toNat e).map fun bs => wtAdd st.t (cellOf x i j) (laneOf f (natOf bs))

/-- REDUCE_ROWS (R266). -/
def Dev.redRows (s : Dev) (k : Nat) (a : PassAt) (st : Stage) (poison : Bool) (x : List (List Word)) : Except CErr Dev :=
  let r0 := a.b * a.m + (if a.cmd = 0 then 0 else (a.oy - a.oy0) * a.tw)
  let off := st.addr + 4 * r0
  let start := if bitN st.opt 2 then (s.asWords k off a.mb).map fun l => l.map some
    else .ok (List.replicate a.mb none)
  match start with
  | .error e => .error e
  | .ok l => s.asWr k off (bytesOfWords (List.zipWith (redList (st.opt % 4) st.t) l x)) poison

/-- REDUCE_COLS (R266): the running values of the command's earlier passes go on. -/
def Dev.redCols (s : Dev) (k : Nat) (a : PassAt) (i : Nat) (st : Stage) (poison : Bool) (r : EpiRun) : Except CErr EpiRun :=
  let have_ := r.cols.any (·.1 == i)
  let start := if have_ then .ok ((Tab.get (fun _ => []) r.cols i).map some)
    else if bitN st.opt 2 then (s.asWords k st.addr a.n).map fun l => l.map some
    else .ok (List.replicate a.n none)
  match start with
  | .error e => .error e
  | .ok l =>
    let v := (List.range a.n).map fun j => redList (st.opt % 4) st.t (l.getD j none) (r.x.map fun w => w.getD j 0)
    (s.asWr k st.addr (bytesOfWords v) poison).map fun d => { r with dev := d, cols := Tab.set (fun _ => []) r.cols i v }

/-- SEND stage (R269): stage the values; when the unit is whole, send the region as one message. -/
def Dev.sendStage (s : Dev) (k : Nat) (p : Prog) (o : Op) (a : PassAt) (st : Stage) (poison : Bool) (r : EpiRun) :
    Except CErr EpiRun :=
  let e := wtSize st.t
  match s.putCells k st.addr e poison (stageAt a e st.tr) (elemOrder a st.tr) r.x with
  | .error e => .error e
  | .ok s =>
    if !a.last then .ok { r with dev := s }
    else
      let n := st.len a
      let halo := bitN st.opt 0
      match s.sendTo k p.route (st.imm.fld 0 8) (st.imm.fld 8 5) n (cTag o.w) halo with
      | .fail e => .error e
      | .wait => .ok { r with dev := s }
      | .go d oe => match s.asRd k st.addr n with
        | .error e => .error e
        | .ok bs =>
          let (m, s) := s.sendMsg k o.id d (st.imm.fld 8 5) halo oe bs
          .ok { r with dev := s, flight := r.flight + m }

/-- One stage on a pass. -/
def stageRun (k : Nat) (p : Prog) (o : Op) (a : PassAt) (poison : Bool) (i : Nat) (st : Stage) (r : EpiRun) :
    Except CErr EpiRun :=
  let w := fun q => natOf ((o.epi.drop (4 * q)).take 4)
  let rp := fldN (w 0) 0 16 * 64
  let row0 := fldN (w 0) 16 16
  let pp := fldN (w 1) 0 18 * 64
  let s := r.dev
  match st.k with
  | 4 => (s.residStage k a st rp pp row0 r.x).map fun x => { r with x }
  | 5 => (s.redRows k a st poison r.x).map fun d => { r with dev := d }
  | 6 => s.redCols k a i st poison r
  | 7 => .ok r
  | 8 => (s.putCells k st.addr (wtSize st.t) poison (placeAt a (wtSize st.t) st.tr rp pp row0) (elemOrder a st.tr) r.x).map
      fun d => { r with dev := d }
  | 9 => s.sendStage k p o a st poison r
  | 10 =>
    let e := wtSize st.t
    (s.putCells k st.addr e poison (fun i j => (j * packed a.m e + i * e : Nat)) (elemOrder a true) r.x).map
      fun d => { r with dev := d }
  | _ =>
    let parm := o.parms.getD i []
    .ok { r with x := r.x.map fun row => row.zipIdx.map fun c => stageElem (s.lut k) st parm c.2 c.1 }

/-- The stages of a list from index `i`: the run after the last, or the failing stage and its error. -/
def stagesRun (k : Nat) (p : Prog) (o : Op) (a : PassAt) (poison : Bool) : Nat → List Stage → EpiRun → Except (Nat × CErr) EpiRun
  | _, [], r => .ok r
  | i, st :: l, r => match stageRun k p o a poison i st r with
    | .error e => .error (i, e)
    | .ok r => stagesRun k p o a poison (i + 1) l r

/-- EPI_KIND, EPI_ADDR and EPI_N of a command. -/
def epiKind (w : List Word) : Nat := cf w 6 23 2
def epiAddr (w : List Word) : Nat := cf w 6 0 23
def epiN (w : List Word) : Nat := cf w 6 25 4

/-- Every SEND stage due in this pass holds the credits it needs, or will fail: none waits (R269, R213). -/
def Dev.sendsReady (s : Dev) (k : Nat) (p : Prog) (o : Op) (a : PassAt) (l : List Stage) : Bool :=
  let sends := l.filter (·.k == 9)
  !a.last || sends.all fun st =>
    let key := st.imm.fld 0 13
    match s.sendTo k p.route (st.imm.fld 0 8) (st.imm.fld 8 5) (st.len a) (cTag o.w) (bitN st.opt 0) with
    | .wait => false
    | .fail _ => true
    | .go _ e => decide ((sends.filter fun q => q.imm.fld 0 13 == key).length ≤ e.credits)

/-- Record an epilogue failure: VEC_EPI_ERR, EPI_FAULT, and the command fails in the VEC. -/
def Dev.epiFail (s : Dev) (k : Nat) (o : Op) (i : Nat) (e : CErr) : Dev :=
  ((s.setRf (R.vecEpiErr k) 0 4 (i % 8 + 8)).irq (corePage k 2) 17).opFail k 0x22 o e

/-- Read what the epilogue needs at the command's start: block or program record, and parameter vectors (R260, R270). The
stage list's parameters are for accumulators of working type `t`. -/
def Dev.epiLoad (s : Dev) (k : Nat) (o : Op) (a : PassAt) (t : Nat) : Except (Nat × CErr) Op :=
  match epiKind o.w with
  | 0 => .ok o
  | 1 => match s.asRd k (epiAddr o.w) (16 + 8 * epiN o.w) with
    | .error e => .error (0, e)
    | .ok blk => match epiStages a (epiN o.w) t blk with
      | .error i => .error (i, cmdErr o.w)
      | .ok l =>
        let rd : Except (Nat × CErr) (List (List Byte)) := l.zipIdx.mapM fun q =>
          let n := q.1.parm a.n
          if n = 0 then .ok [] else match s.asRd k q.1.addr n with
            | .error e => .error (q.2, e)
            | .ok bs => .ok bs
        rd.map fun parms => { o with epi := blk, parms }
  | _ => match s.asRd k (epiAddr o.w) 16 with
    | .error e => .error (0, e)
    | .ok blk => if 4095 < fldN (natOf blk) 0 12 + 511 then .error (0, cmdErr o.w) else .ok { o with epi := blk }

/-- The pass can deliver: no SEND stage waits for credit; a vector-program epilogue waits while another pass's tiles are not
done (R237, R272). -/
def Dev.epiReady (s : Dev) (k : Nat) (p : Prog) (o : Op) (a : PassAt) (t : Nat) : Bool :=
  match epiKind o.w with
  | 0 => true
  | 1 => match epiStages a (epiN o.w) t o.epi with
    | .error _ => true
    | .ok l => s.sendsReady k p o a l
  | _ => (s.core k).epi.isNone

/-- Values that passed the stage pipeline, counted in units of 256. -/
def Dev.countVals (s : Dev) (k n : Nat) : Dev :=
  let x := s.core k
  let v := x.valRem + n
  (s.setCore k { x with valRem := v % 256 }).perf (corePage k 2) 3 (v / 256)

/-- A pass's results go through the command's epilogue; `done`: it was the command's last pass. The op is updated, or the
command fails with nothing of this pass written. -/
def Dev.epiPass (s : Dev) (k : Nat) (p : Prog) (o : Op) (a : PassAt) (t sub : Nat) (poison last : Bool) (x : List (List Word)) :
    Dev :=
  let o := { o with pass := o.pass + 1 }
  match epiKind o.w with
  | 0 => s.setOp k { o with done := last }
  | 1 => match epiStages a (epiN o.w) t o.epi with
    | .error i => s.epiFail k o i (cmdErr o.w)
    | .ok l => match stagesRun k p o a poison 0 l { x, dev := s, cols := o.cols, flight := o.flight } with
      | .error (i, e) => s.epiFail k o i e
      | .ok r => ((r.dev.countVals k (a.mb * a.n)).perfCycles (corePage k 2) 4).setOp k
          { o with done := last, cols := r.cols, flight := r.flight }
  | _ =>
    let c := s.core k
    let e : Epi := {
      op := o.id, p := a.p, sub, poison, rows := x
      oy := if a.cmd = 0 then 0 else a.oy
      ox := if a.cmd = 0 then 0 else a.ox
      entry := fldN (natOf (o.epi.take 4)) 0 12
      arg := fldN (natOf ((o.epi.drop 4).take 4)) 0 23 }
    (s.setCore k { c with epi := some e }).setOp k o

end Sys2Proof.Machine
end

