-- ==== Sys2Proof/Machine/Adg.lean ====
section
/-! DEFINITION. The address generator: the ADG descriptor, its checks, and the input elements of a pass (R243-R249). -/

namespace Sys2Proof.Machine

/-- An ADG descriptor. -/
structure AdgDesc where
  inAddr : Nat
  iw : Nat
  ih : Nat
  rb0 : Nat
  rb1 : Nat
  cin : Nat
  rowPitch : Nat
  planePitch : Nat
  topAddr : Nat
  botAddr : Nat
  topRows : Nat
  botRows : Nat
  sy : Nat
  sx : Nat
  dy : Nat
  dx : Nat
  pt : Nat
  pb : Nat
  pl : Nat
  pr : Nat
  kh : Nat
  kw : Nat
  pad : Nat
  oy0 : Nat
  ox0 : Nat
  th : Nat
  tw : Nat
  m : Nat
  oc0 : Nat
  noc : Nat
  fmtIn : Nat
  fmtW : Nat
  acc : Nat
  cout : Nat
  deriving DecidableEq, Repr

/-- The descriptor that 64 bytes spell. Pitches in bytes. -/
def AdgDesc.ofBytes (bs : List Byte) : AdgDesc :=
  let f := fun (byte lo len : Nat) => fldN (natOf ((bs.drop byte).take 4)) lo len
  { inAddr := f 0 0 23, iw := f 4 0 16, ih := f 4 16 16, rb0 := f 8 0 16, rb1 := f 8 16 16
    cin := f 0xC 0 16, rowPitch := f 0xC 16 16 * 64, planePitch := f 0x10 0 18 * 64
    topAddr := f 0x14 0 23, botAddr := f 0x18 0 23, topRows := f 0x1C 0 8, botRows := f 0x1C 8 8
    sy := f 0x20 0 8, sx := f 0x20 8 8, dy := f 0x20 16 8, dx := f 0x20 24 8
    pt := f 0x24 0 8, pb := f 0x24 8 8, pl := f 0x24 16 8, pr := f 0x24 24 8
    kh := f 0x28 0 7, kw := f 0x28 8 7, pad := f 0x28 16 16
    oy0 := f 0x2C 0 16, ox0 := f 0x2C 16 16, th := f 0x30 0 16, tw := f 0x30 16 16
    m := f 0x34 0 9, oc0 := f 0x34 16 16, noc := f 0x38 0 7
    fmtIn := f 0x38 8 3, fmtW := f 0x38 11 3, acc := f 0x38 14 1, cout := f 0x3C 0 16 }

/-- Output size along one axis (R245). -/
def outSize (i p q d k s : Nat) : Int := ((i : Int) + p + q - d * (k - 1) - 1) / s + 1

/-- OH and OW. -/
def AdgDesc.oh (d : AdgDesc) : Int := outSize d.ih d.pt d.pb d.dy d.kh d.sy
def AdgDesc.ow (d : AdgDesc) : Int := outSize d.iw d.pl d.pr d.dx d.kw d.sx

/-- Column blocks of an output row, and passes of the command (R243). -/
def AdgDesc.blocks (d : AdgDesc) : Nat := (d.tw + d.m - 1) / d.m
def AdgDesc.passes (d : AdgDesc) : Nat := d.th * d.blocks

/-- K of a CONV (R243). -/
def AdgDesc.k (d : AdgDesc) : Nat := d.cin * d.kh * d.kw

/-- An encoding outside the descriptor's table, for elements of `e` bytes and at most `mmax` rows. -/
def AdgDesc.encBad (d : AdgDesc) (e mmax : Nat) : Bool :=
  d.inAddr % 64 != 0 || d.topAddr % 64 != 0 || d.botAddr % 64 != 0
    || d.iw == 0 || decide (16384 < d.iw) || d.ih == 0 || decide (16384 < d.ih)
    || decide (d.rb1 ≤ d.rb0) || decide (d.ih < d.rb1) || d.cin == 0
    || d.rowPitch == 0 || decide (d.rowPitch < packed d.iw e)
    || d.planePitch == 0 || decide (131072 * 64 < d.planePitch) || decide (d.planePitch < (d.rb1 - d.rb0) * d.rowPitch)
    || d.sy == 0 || d.sx == 0 || d.dy == 0 || d.dx == 0
    || d.kh == 0 || decide (64 < d.kh) || d.kw == 0 || decide (64 < d.kw)
    || d.th == 0 || d.tw == 0 || d.m == 0 || decide (mmax < d.m)

/-- The tile lies outside the output. -/
def AdgDesc.tileBad (d : AdgDesc) : Bool :=
  decide (d.oh < 1) || decide (d.ow < 1) || decide (d.oh < d.oy0 + d.th) || decide (d.ow < d.ox0 + d.tw)

/-- The limits of R247 on K and the line span are broken. -/
def AdgDesc.limitBad (d : AdgDesc) (e : Nat) (conv : Bool) : Bool :=
  (conv && decide (65535 < d.k)) || decide (4096 < ((d.m - 1) * d.sx + (d.kw - 1) * d.dx + 1) * e)

/-- The fields that only DWCONV uses are illegal, for a GROUP_SIZE (R250). -/
def AdgDesc.dwBad (d : AdgDesc) (group : Nat) : Bool :=
  let g := d.cin / group
  !combOk d.fmtIn d.fmtW d.acc || d.noc == 0 || decide (64 < d.noc) || d.cout == 0
    || d.cin % group != 0 || g == 0 || d.cout % g != 0 || decide (d.cout < d.oc0 + d.noc)

/-- The input rows that the tile needs (R246). -/
def AdgDesc.rows (d : AdgDesc) : Int × Int :=
  (max 0 ((d.oy0 * d.sy : Nat) - (d.pt : Int)),
   min d.ih (((d.oy0 + d.th - 1) * d.sy : Nat) - (d.pt : Int) + (d.dy * (d.kh - 1) : Nat) + 1))

/-- A needed row is not held (R245, R246). -/
def AdgDesc.rowsBad (d : AdgDesc) : Bool :=
  let r := d.rows
  decide (r.1 < r.2) && (decide (r.1 < (d.rb0 : Int) - d.topRows) || decide ((d.rb1 : Int) + d.botRows < r.2))

/-- The extents the descriptor names: band and halos, as offset and length (R246). -/
def AdgDesc.extents (d : AdgDesc) : List (Nat × Nat) :=
  (d.inAddr, (d.cin - 1) * d.planePitch + (d.rb1 - d.rb0) * d.rowPitch)
    :: (if d.topRows = 0 then [] else [(d.topAddr, d.cin * d.topRows * d.rowPitch)])
    ++ (if d.botRows = 0 then [] else [(d.botAddr, d.cin * d.botRows * d.rowPitch)])

/-- A refusal of the ADG: the reason it records, and the error. -/
structure AdgErr where
  reason : Nat
  err : CErr
  deriving DecidableEq, Repr

/-- Check a descriptor in the order of R245; `more`: the weights' extent; `group`: GROUP_SIZE of a DWCONV. -/
def Dev.adgCheck (s : Dev) (k : Nat) (w : List Word) (d : AdgDesc) (e mmax : Nat) (group : Option Nat) (more : List (Nat × Nat)) :
    Option AdgErr :=
  let bad := cmdErr w
  if d.encBad e mmax then some ⟨1, bad⟩
  else if d.tileBad then some ⟨3, bad⟩
  else if d.limitBad e group.isNone then some ⟨2, bad⟩
  else if group.any d.dwBad then some ⟨1, bad⟩
  else if d.rowsBad then some ⟨4, ⟨.ctxFaultAddr, d.inAddr⟩⟩
  else match (d.extents ++ more).find? fun x => decide (s.asLimit k < s.asBase k + x.1 + x.2) with
    | some x => some ⟨5, ⟨.ctxFaultAddr, x.1⟩⟩
    | none => none

/-- Record an ADG refusal, and fail the command in the ADG. -/
def Dev.adgFail (s : Dev) (k : Nat) (o : Op) (e : AdgErr) : Dev :=
  let s := (s.setRf (R.adgErr k) 0 3 e.reason).irq (corePage k 3) 16
  s.opFail k 0x23 o e.err

/-! ### Input elements (R244, R246) -/

/-- Offset of element (*c*, *iy*, 0) in the region that holds the row. -/
def AdgDesc.rowAt (d : AdgDesc) (c iy : Nat) : Nat :=
  if iy < d.rb0 then d.topAddr + c * d.topRows * d.rowPitch + (iy + d.topRows - d.rb0) * d.rowPitch
  else if iy < d.rb1 then d.inAddr + c * d.planePitch + (iy - d.rb0) * d.rowPitch
  else d.botAddr + c * d.botRows * d.rowPitch + (iy - d.rb1) * d.rowPitch

/-- The code of PAD in a format: [23:16] for the 8-bit formats (R244). -/
def AdgDesc.padCode (d : AdgDesc) (e : Nat) : Nat := if e = 1 then d.pad % 256 else d.pad

/-- The columns of an input row that a pass of `mb` rows from `ox` reads. -/
def AdgDesc.span (d : AdgDesc) (ox mb : Nat) : Nat × Nat :=
  ((ox * d.sx - d.pl),
   min d.iw ((ox + mb - 1) * d.sx + (d.kw - 1) * d.dx + 1 - d.pl))

/-- The segment of row `iy` of channel `c` that a pass reads: its first column and element codes; none for a row in padding
(R244, R248). -/
def Dev.segment (s : Dev) (k : Nat) (d : AdgDesc) (e ox mb c : Nat) (iy : Int) : Except CErr (Option (Nat × List Nat)) :=
  let (lo, hi) := d.span ox mb
  if iy < 0 ∨ (d.ih : Int) ≤ iy ∨ hi ≤ lo then .ok none
  else
    let n := hi - lo
    (s.asRd k (d.rowAt c iy.toNat + lo * e) (n * e)).map fun bs =>
      some (lo, (List.range n).map fun i => natOf ((bs.drop (i * e)).take e))

/-- Input column of row `i` of a pass at kernel column `kx` (R244). -/
def AdgDesc.ix (d : AdgDesc) (ox i kx : Nat) : Int := (((ox + i) * d.sx + kx * d.dx : Nat) : Int) - d.pl

/-- The element of a segment at an input column: PAD outside the image. -/
def AdgDesc.pick (d : AdgDesc) (seg : Option (Nat × List Nat)) (ix : Int) : Option Nat :=
  match seg with
  | none => none
  | some (lo, l) => if ix < lo ∨ (d.iw : Int) ≤ ix then none else l[(ix - lo).toNat]?

/-- A pass's inputs: for each (channel, *ky*) the segment, in ascending order of the reduction. -/
def Dev.segments (s : Dev) (k : Nat) (d : AdgDesc) (e oy ox mb : Nat) (chans : List Nat) :
    Except CErr (List (Option (Nat × List Nat))) :=
  (chans.flatMap fun c => (List.range d.kh).map fun ky => (c, ky)).mapM fun q =>
    s.segment k d e ox mb q.1 (((oy * d.sy + q.2 * d.dy : Nat) : Int) - d.pt)

/-- Row `i` of the operand stream: the element codes in ascending *k*, and the number of pad elements (R243, R244). -/
def AdgDesc.row (d : AdgDesc) (e ox i : Nat) (segs : List (Option (Nat × List Nat))) : List Nat × Nat :=
  let l := segs.flatMap fun g => (List.range d.kw).map fun kx => d.pick g (d.ix ox i kx)
  (l.map fun v => v.getD (d.padCode e), (l.filter Option.isNone).length)

/-- Coordinates of pass `p` (R249): *oy*, block, first column, rows. -/
def AdgDesc.coords (d : AdgDesc) (p : Nat) : Nat × Nat × Nat × Nat :=
  let b := p % max 1 d.blocks
  (d.oy0 + p / max 1 d.blocks, b, d.ox0 + b * d.m, min d.m (d.tw - b * d.m))

/-- What the epilogue is told of pass `p`. -/
def AdgDesc.passAt (d : AdgDesc) (cmd n p : Nat) : PassAt :=
  let (oy, b, ox, mb) := d.coords p
  { cmd, m := d.m, n, mb, p, b, oy, oy0 := d.oy0, ox, ox0 := d.ox0, tw := d.tw
    oc0 := if cmd = 2 then d.oc0 else 0, last := b + 1 == d.blocks }

/-- Count a pass fed by the ADG: passes, segments loaded, pad elements in units of 256; ADG_PASS names the next pass. -/
def Dev.adgFed (s : Dev) (k p loaded pads : Nat) : Dev :=
  let x := s.core k
  let v := x.padRem + pads
  let s := ((s.setCore k { x with padRem := v % 256 }).perf (corePage k 3) 3 (v / 256)).perf (corePage k 3) 0 1
  ((s.perf (corePage k 3) 1 loaded).perfCycles (corePage k 3) 2).setReg (R.adgPass k) (Word.ofNat (p + 1))

/-- Read a command's descriptor (R202, R203, R243). -/
def Dev.adgRead (s : Dev) (k : Nat) (w : List Word) : Except AdgErr (List Byte) :=
  match s.asRd k (cf w 1 0 23) 64 with
  | .ok bs => .ok bs
  | .error e => .error ⟨if e.nm = .ctxFaultAddr then 5 else s.rf (R.adgErr k) 0 3, e⟩

end Sys2Proof.Machine
end

