-- ==== Sys2Proof/Machine/Mxu.lean ====
section
/-! DEFINITION. The matrix array and the depthwise path: MATMUL, CONV and DWCONV, one pass at a time (R228-R251). -/

namespace Sys2Proof.Machine

/-! ### Cells (R231, R232) -/

/-- Flags of a pass: ISAT, NAN, INF. -/
structure MxFlags where
  isat : Bool := false
  nan : Bool := false
  inf : Bool := false
  deriving DecidableEq, Repr

/-- One addition of an integer cell: exact product, saturated sum (R231). -/
def macInt (acc : Int × Bool) (a b : Int) : Int × Bool :=
  let v := acc.1 + a * b
  (sat32 v, acc.2 || v != sat32 v)

/-- One addition of a floating cell: exact product, the sum rounded once (R232). -/
def macFp (acc : Word × MxFlags) (a b : Fp) : Word × MxFlags :=
  let w := fenc ((a.mul b).add (fdec acc.1))
  (w, { acc.2 with nan := acc.2.nan || isNaN w, inf := acc.2.inf || w.fld 0 31 == 0x7F800000 })

/-- The value of an element code of an integer format. -/
def elemInt (fmt v : Nat) : Int := if fmt = 0 then toSigned 8 v else (v % 256 : Nat)

/-- A cell: `acc` 0 INT32, 1 FP32; its seed, and its operands as codes in ascending *k*. -/
def cell (fa fb acc : Nat) (seed : Word) (a b : List Nat) : Word × MxFlags :=
  if acc = 0 then
    let r := (a.zip b).foldl (fun r q => macInt r (elemInt fa q.1) (elemInt fb q.2)) (seed.int, false)
    (wordOfInt r.1, { isat := r.2 })
  else (a.zip b).foldl (fun r q => macFp r (elemDec fa q.1) (elemDec fb q.2)) (if isNaN seed then fNaN else seed, {})

/-- The cells of a pass: rows of A against columns of B, with their seeds (R228). -/
def matProd (fa fb acc : Nat) (seeds : List (List Word)) (a b : List (List Nat)) : List (List (Word × MxFlags)) :=
  a.zipIdx.map fun ra => b.zipIdx.map fun cb => cell fa fb acc (cellOf seeds ra.2 cb.2) ra.1 cb.1

/-- The flags of a pass. -/
def passFlags (x : List (List (Word × MxFlags))) : MxFlags :=
  x.foldl (fun f r => r.foldl (fun (f : MxFlags) c =>
    { isat := f.isat || c.2.isat, nan := f.nan || c.2.nan, inf := f.inf || c.2.inf }) f) {}

/-! ### Operands (R229, R234) -/

/-- Element `i` of `e` bytes. -/
def elemAt (bs : List Byte) (e i : Nat) : Nat := natOf ((bs.drop (i * e)).take e)

/-- Columns of a list of rows. -/
def colsOf (n : Nat) (rows : List (List Nat)) : List (List Nat) := (List.range n).map fun j => rows.map fun r => r.getD j 0

/-- The A operand of a MATMUL: for each row *i* its elements in ascending *k*. -/
def Dev.matA (s : Dev) (k : Nat) (w : List Word) : Except CErr (List (List Nat)) :=
  let m := cf w 3 0 9
  let e := elemSize (cf w 4 22 3)
  ((List.range (cf w 4 0 16)).mapM fun q => (s.asRd k (cf w 1 0 23 + q * packed m e) (m * e)).map fun bs =>
    (List.range m).map (elemAt bs e)).map (colsOf m)

/-- The B operand: for each column *j* its elements in ascending *k*, from a weight-stage half or the AS (R229). -/
def Dev.matB (s : Dev) (k : Nat) (w : List Word) (kk : Nat) : Except CErr (List (List Nat)) :=
  let n := cf w 3 9 9
  let e := elemSize (cf w 4 25 3)
  let pb := packed n e
  let off := cf w 2 0 21
  let sel := cf w 2 29 2
  if sel = 2 then
    ((List.range kk).mapM fun q => (s.asRd k (off * 4 + q * pb) (n * e)).map fun bs => (List.range n).map (elemAt bs e)).map
      (colsOf n)
  else if 2 ^ 20 < off + kk * pb then .error ⟨.ctxFaultAddr, off⟩
  else .ok (colsOf n ((List.range kk).map fun q => (List.range n).map fun j =>
    natOf ((List.range e).map fun b => Tab.get (fun _ => 0) (s.core k).ws (sel * 2 ^ 20 + off + q * pb + j * e + b))))

/-- The seeds of a pass of `mb` rows (R234). -/
def Dev.matSeed (s : Dev) (k : Nat) (w : List Word) (mb : Nat) : Except CErr (List (List Word)) :=
  let n := cf w 3 9 9
  let base := cf w 5 2 23 * 4
  match cf w 5 0 2 with
  | 0 => .ok []
  | 1 => (s.asWords k base n).map fun l => List.replicate mb l
  | _ => (List.range mb).mapM fun i => s.asWords k (base + i * packed n 4) n

/-! ### The MXU queue (R236-R238) -/

/-- PACK and SUB of a command. -/
def opPack (w : List Word) : Nat := cf w 4 16 2
def opSub (w : List Word) : Nat := cf w 4 18 4

/-- The command whose pass sub-array `sub` runs next: the oldest of that sub-array not done, when every earlier command has
started in the same packing or is done (R238). -/
def Prog.mxuPick (p : Prog) (sub : Nat) : Option Op :=
  let l := p.ops.filter (·.q == 0)
  match l.find? fun o => !o.done && opSub o.w == sub with
  | none => none
  | some o =>
    if l.all fun e => decide (o.id ≤ e.id) || e.done || (e.begun && opPack e.w == opPack o.w) then some o else none

/-- The working type of accumulators: ACC 0 INT32, 1 FP32. -/
def accType (acc : Nat) : Nat := if acc = 0 then 6 else 7

/-- Set the flags of sub-array `t`, and the NUMERIC and PARITY interrupts (R239). -/
def Dev.mxuFlags (s : Dev) (k t : Nat) (f : MxFlags) (par : Bool) : Dev :=
  let r := if t < 8 then R.mxuSubFlagLo k else R.mxuSubFlagHi k
  let b := 4 * (t % 8)
  let v := bN f.isat + 2 * bN f.nan + 4 * bN f.inf + 8 * bN par
  let s := s.setReg r (s.reg r ||| Word.ofNat (v * 2 ^ b))
  let s := if f.isat || f.nan || f.inf then s.irq (corePage k 1) 17 else s
  if par then (s.satInc (R.mxuParCnt k) 1).irq (corePage k 1) 16 else s

/-- A pass has been delivered: MXU_PASS_CNT, MXU_LAST_LAT and the cycle counters, whose values the model does not compute
(notes/assumptions/10). -/
def Dev.mxuDelivered (s : Dev) (k : Nat) : Dev :=
  let s := (s.wrapInc (R.mxuPassCnt k) 1).perf (corePage k 1) 0 1
  let (v, s) := s.draw 62
  let s := s.setRf (R.mxuLastLat k) 0 24 v
  [1, 2, 3, 4, 6].foldl (fun s i => s.perfCycles (corePage k 1) i) s

/-- What the epilogue is told of a command's pass. -/
def passOf (o : Op) (p : Nat) : PassAt :=
  match cOp o.w with
  | 1 => { cmd := 0, m := cf o.w 3 0 9, n := cf o.w 3 9 9, mb := cf o.w 3 0 9, p }
  | 2 => (AdgDesc.ofBytes o.desc).passAt 1 (cf o.w 3 9 9) p
  | _ => let d := AdgDesc.ofBytes o.desc; d.passAt 2 d.noc p

/-- The passes of a command. -/
def opPasses (o : Op) : Nat := if cOp o.w = 1 then 1 else (AdgDesc.ofBytes o.desc).passes

/-- ACC of a command. -/
def opAcc (o : Op) : Nat := if cOp o.w = 3 then (AdgDesc.ofBytes o.desc).acc else cf o.w 4 28 1

/-- Start a command: its checks, its descriptor, its epilogue's parameters (R238, R243, R245, R270). -/
def Dev.mxuStart (s : Dev) (k : Nat) (o : Op) : Except Dev Dev :=
  let desc := if cOp o.w = 2 then s.adgRead k o.w else .ok []
  match desc with
  | .error e => .error (s.adgFail k o e)
  | .ok bs =>
    let d := AdgDesc.ofBytes bs
    let w := o.w
    let more := if cf w 2 29 2 = 2 then [(cf w 2 0 21 * 4, d.k * packed (cf w 3 9 9) (elemSize (cf w 4 25 3)))] else []
    let bad := if cOp w = 2 then s.adgCheck k w d (elemSize (cf w 4 22 3)) (packSize (opPack w)) none more else none
    match bad with
    | some e => .error (s.adgFail k o e)
    | none =>
      let o := { o with desc := bs, begun := true }
      match s.epiLoad k o (passOf o 0) (accType (opAcc o)) with
      | .error (i, e) => .error (s.epiFail k o i e)
      | .ok o =>
        let s := s.setRf (R.mxuStat k) 0 2 (opPack w)
        let s := if cOp w = 2 then s.setReg (R.adgPass k) (Word.ofNat o.pass) else s
        .ok (s.setOp k o)

/-- The operands of a MATMUL or CONV pass: A, its segments loaded and pad elements. -/
def Dev.passA (s : Dev) (k : Nat) (o : Op) (a : PassAt) : Except CErr (List (List Nat) × Nat × Nat) :=
  if a.cmd = 0 then (s.matA k o.w).map fun x => (x, 0, 0)
  else
    let d := AdgDesc.ofBytes o.desc
    let e := elemSize (cf o.w 4 22 3)
    (s.segments k d e a.oy a.ox a.mb (List.range d.cin)).map fun g =>
      let rows := (List.range a.mb).map fun i => d.row e a.ox i g
      (rows.map (·.1), (g.filter Option.isSome).length, (rows.map (·.2)).sum)

/-- Run one pass of a started command on sub-array `sub`; `par`: a cell's accumulator parity fails in it (R239). -/
def Dev.mxuPass (s : Dev) (k : Nat) (p : Prog) (o : Op) (sub : Nat) (par : Bool) : Dev :=
  let a := passOf o o.pass
  let kk := if a.cmd = 0 then cf o.w 4 0 16 else (AdgDesc.ofBytes o.desc).k
  let fail := fun e => s.opFail k 0x21 o e
  match s.passA k o a with
  | .error e => if a.cmd = 0 then fail e else s.opFail k 0x23 o e
  | .ok (x, loaded, pads) => match s.matB k o.w kk with
    | .error e => fail e
    | .ok b => match s.matSeed k o.w a.mb with
      | .error e => fail e
      | .ok seeds =>
        let c := matProd (cf o.w 4 22 3) (cf o.w 4 25 3) (opAcc o) seeds x b
        let s := (s.mxuFlags k sub (passFlags c) par).mxuDelivered k
        let s := if a.cmd = 1 then s.adgFed k o.pass loaded pads else s
        s.epiPass k p o a (accType (opAcc o)) sub par (o.pass + 1 == opPasses o) (c.map fun r => r.map (·.1))

/-- The command may run its next pass: passes are left, its weights are in place (R206), and its epilogue takes the results
(R237). -/
def Dev.mxuReady (s : Dev) (k : Nat) (p : Prog) (o : Op) : Bool :=
  !p.halt && decide (o.pass < opPasses o) && (cf o.w 2 29 2 == 2 || weightsReady p o)
    && s.epiReady k p o (passOf o o.pass) (accType (opAcc o))

/-- The running program's command with its index. -/
def Dev.opNow (s : Dev) (k id : Nat) : Option (Prog × Op) :=
  (s.prog k).bind fun p => (p.ops.find? (·.id == id)).map fun o => (p, o)

/-- MATMUL or CONV: start the command of sub-array `sub` that is due, and run its next pass. -/
def Dev.mxuCmd (k op sub : Nat) (par : Bool) (p : Prog) (s : Dev) : Dev :=
  match p.mxuPick sub with
  | none => s
  | some o =>
    if cOp o.w ≠ op ∨ p.halt = true ∨ s.blkRuns (corePage k 1) = false then s
    else match s.opCheck p o with
      | some e => s.opFail k 0x21 o e
      | none => match (if o.begun then .ok s else s.mxuStart k o) with
        | .error s => s
        | .ok s => match s.opNow k o.id with
          | none => s
          | some (p, o) => if s.mxuReady k p o then s.mxuPass k p o sub par else s

def execMatmul (core sub : Nat) (par : Bool) (s : State) : Host.Outcome State Fault Refusal :=
  .next { s with toDev := s.toDev.onCore core (Dev.mxuCmd core 1 sub par) }

def execConv (core sub : Nat) (par : Bool) (s : State) : Host.Outcome State Fault Refusal :=
  .next { s with toDev := s.toDev.onCore core (Dev.mxuCmd core 2 sub par) }

/-! ### Depthwise and grouped convolution (R250, R251) -/

/-- Channels per group *q* in the output, for a GROUP_SIZE. -/
def AdgDesc.q (d : AdgDesc) (group : Nat) : Nat := d.cout / max 1 (d.cin / max 1 group)

/-- Start a DWCONV: descriptor, checks, epilogue, weights. -/
def Dev.dwStart (s : Dev) (k : Nat) (o : Op) : Except Dev Dev :=
  match s.adgRead k o.w with
  | .error e => .error (s.adgFail k o e)
  | .ok bs =>
    let d := AdgDesc.ofBytes bs
    let g := cf o.w 3 0 16
    let n := d.noc * g * d.kh * d.kw * elemSize d.fmtW
    let bad := if !combOk d.fmtIn d.fmtW d.acc then some ⟨1, cmdErr o.w⟩
      else s.adgCheck k o.w d (elemSize d.fmtIn) 64 (some g) [(cf o.w 2 0 23, n)]
    match bad with
    | some e => .error (s.adgFail k o e)
    | none =>
      let o := { o with desc := bs, begun := true }
      match s.epiLoad k o (passOf o 0) (accType d.acc) with
      | .error (i, e) => .error (s.epiFail k o i e)
      | .ok o => match s.asRd k (cf o.w 2 0 23) n with
        | .error e => .error (s.opFail k 0x22 o e)
        | .ok wts => .ok ((s.setReg (R.adgPass k) (Word.ofNat o.pass)).setOp k { o with wts })

/-- Column `j` of a DWCONV pass: the results of output channel OC0 + *j*, segments loaded, pad elements. -/
def Dev.dwCol (s : Dev) (k : Nat) (o : Op) (d : AdgDesc) (a : PassAt) (j : Nat) : Except CErr (List Word × Nat × Nat) :=
  let g := cf o.w 3 0 16
  let e := elemSize d.fmtIn
  let ew := elemSize d.fmtW
  let n := g * d.kh * d.kw
  let c0 := (d.oc0 + j) / d.q g * g
  (s.segments k d e a.oy a.ox a.mb ((List.range g).map (c0 + ·))).map fun sg =>
    let rows := (List.range a.mb).map fun i => d.row e a.ox i sg
    let wt := (List.range n).map fun i => elemAt o.wts ew (j * n + i)
    (rows.map fun r => (cell d.fmtIn d.fmtW d.acc 0 r.1 wt).1, (sg.filter Option.isSome).length, (rows.map (·.2)).sum)

/-- Run one pass of a started DWCONV. -/
def Dev.dwPass (s : Dev) (k : Nat) (p : Prog) (o : Op) : Dev :=
  let d := AdgDesc.ofBytes o.desc
  let a := passOf o o.pass
  match (List.range d.noc).mapM (s.dwCol k o d a) with
  | .error e => s.opFail k 0x23 o e
  | .ok cols =>
    let x := (List.range a.mb).map fun i => cols.map fun c => c.1.getD i 0
    let s := s.adgFed k o.pass (cols.map (·.2.1)).sum (cols.map (·.2.2)).sum
    s.epiPass k p o a (accType d.acc) 0 false (o.pass + 1 == d.passes) x

/-- DWCONV: the oldest command of the VEC queue runs its next pass. -/
def Dev.dwCmd (k : Nat) (p : Prog) (s : Dev) : Dev :=
  match p.front 1 3 with
  | none => s
  | some o =>
    if s.blkRuns (corePage k 2) = false then s
    else match s.opCheck p o with
      | some e => s.opFail k 0x22 o e
      | none => match (if o.begun then .ok s else s.dwStart k o) with
        | .error s => s
        | .ok s => match s.opNow k o.id with
          | none => s
          | some (p, o) =>
            if o.pass < opPasses o ∧ s.epiReady k p o (passOf o o.pass) (accType (opAcc o)) = true then s.dwPass k p o else s

def execDwconv (core : Nat) (s : State) : Host.Outcome State Fault Refusal :=
  .next { s with toDev := s.toDev.onCore core (Dev.dwCmd core) }

end Sys2Proof.Machine
end

