-- ==== Sys2Proof/Machine/Vec.lean ====
section
/-! DEFINITION. The vector engine: its two register banks, vector instructions, VEC commands and vector-program epilogues
(R254-R259, R262, R263, R272, R273). -/

namespace Sys2Proof.Machine

/-! ### Instruction fields -/

def vOp (i : Nat) : Nat := fldN i 0 8
def vD (i : Nat) : Nat := fldN i 8 5
def vA (i : Nat) : Nat := fldN i 13 5
def vB (i : Nat) : Nat := fldN i 18 5
def vPred (i : Nat) : Nat := fldN i 23 3
def vPz (i : Nat) : Bool := bitN i 26
def vTy (i : Nat) : Nat := fldN i 27 2
def vBs (i : Nat) : Bool := bitN i 29
def vBi (i : Nat) : Bool := bitN i 30
def vSat (i : Nat) : Bool := bitN i 31
def vImm (i : Nat) : Word := Word.ofNat (i / 2 ^ 32)

/-- The opcodes of the instruction table. -/
def vOps : List Nat :=
  [0x00, 0x01, 0x02, 0x03, 0x04, 0x05, 0x06, 0x07, 0x08, 0x09, 0x0A, 0x0B, 0x10, 0x11, 0x12, 0x13, 0x14, 0x18, 0x20, 0x28,
   0x29, 0x2A, 0x2B, 0x30, 0x31, 0x32, 0x33, 0x34, 0x35, 0x36, 0x38, 0x39, 0x40, 0x41, 0x42, 0x43, 0x48, 0x49, 0x50, 0x51,
   0x52, 0x53, 0x54, 0x55, 0x56, 0x57, 0x60, 0x61, 0x62, 0x63]

/-- An instruction is illegal in a bank. VCMP's condition GE is code 5 (DEDUCED, notes/assumptions/12). -/
def vIllegal (bank i : Nat) : Bool :=
  let op := vOp i
  !vOps.contains op || vTy i == 3 || (vBs i && vBi i)
    || ((op == 0x04 || op == 0x09 || op == 0x0A) && vTy i != 2) || (op == 0x0B && vTy i != 0)
    || (op == 0x20 && decide (5 < (vImm i).fld 0 3)) || (op == 0x35 && (vImm i).fld 0 2 == 3)
    || (op == 0x38 && decide (7 < (vImm i).fld 0 4))
    || ((op == 0x40 || op == 0x41) && (vImm i).fld 23 3 == 7) || (op == 0x48 && bank == 0)

/-! ### Registers (R254, R256) -/

/-- Lane `l` of vector register `n`. -/
def VBank.lane (b : VBank) (n l : Nat) : Word := Tab.get (fun _ => 0) b.v (n * 64 + l)
/-- Scalar register `n`. -/
def VBank.sc (b : VBank) (n : Nat) : Word := Tab.get (fun _ => 0) b.s (n % 16)
/-- Predicate `n`, 64 bits: p0 reads all ones. -/
def VBank.pr (b : VBank) (n : Nat) : Nat := if n % 8 = 0 then 2 ^ 64 - 1 else Tab.get (fun _ => 0) b.p (n % 8)
/-- Write a scalar register. -/
def VBank.setSc (b : VBank) (n : Nat) (w : Word) : VBank := { b with s := Tab.set (fun _ => 0) b.s (n % 16) w }
/-- Write a predicate: p0 ignores writes. -/
def VBank.setPr (b : VBank) (n v : Nat) : VBank :=
  if n % 8 = 0 then b else { b with p := Tab.set (fun _ => 0) b.p (n % 8) (v % 2 ^ 64) }
/-- Write every lane of a vector register. -/
def VBank.setVec (b : VBank) (n : Nat) (f : Nat → Word) : VBank :=
  { b with v := (List.range 64).foldl (fun t l => Tab.set (fun _ => 0) t (n * 64 + l) (f l)) b.v }

/-- Lane `l` is active for an instruction (R256). -/
def VBank.active (b : VBank) (i l : Nat) : Bool := bitN (b.pr (vPred i)) l

/-- Operand B of lane `l`: a vector lane, a broadcast scalar or IMM. -/
def VBank.opB (b : VBank) (i l : Nat) : Word := if vBs i then b.sc (vB i) else if vBi i then vImm i else b.lane (vB i) l

/-- Operand B of a scalar instruction. -/
def VBank.scB (b : VBank) (i : Nat) : Word := if vBi i then vImm i else b.sc (vB i)

/-- Write v[D] on the active lanes; inactive lanes keep their value, or become 0 with PZ (R256). -/
def VBank.put (b : VBank) (i : Nat) (f : Nat → Word) : VBank :=
  b.setVec (vD i) fun l => if b.active i l then f l else if vPz i then 0 else b.lane (vD i) l

/-- Write p[D] on the active lanes likewise. -/
def VBank.putPr (b : VBank) (i : Nat) (f : Nat → Bool) : VBank :=
  b.setPr (vD i) ((List.range 64).foldl (fun v l =>
    v + bN (if b.active i l then f l else if vPz i then false else bitN (b.pr (vD i)) l) * 2 ^ l) 0)

/-! ### Lane arithmetic (R257, R258) -/

/-- A lane as an integer of TYPE I32 or U32. -/
def tyInt (ty : Nat) (w : Word) : Int := if ty = 0 then w.int else (w.toNat : Int)

/-- An integer result: wrapped, or saturated to TYPE's range. -/
def tyWord (ty : Nat) (sat : Bool) (v : Int) : Word :=
  wordOfInt (if sat then (if ty = 0 then sat32 v else clampI 0 4294967295 v) else v)

/-- VADD, VSUB, VMUL by opcode. -/
def laneArith (op ty : Nat) (sat : Bool) (a b : Word) : Word :=
  if ty = 2 then (if op = 1 then fadd a b else if op = 2 then fsub a b else fmul a b)
  else
    let x := tyInt ty a
    let y := tyInt ty b
    tyWord ty sat (if op = 1 then x + y else if op = 2 then x - y else x * y)

/-- The smaller and the larger of two lanes. -/
def laneMin (ty : Nat) (a b : Word) : Word := if ty = 2 then fmin a b else if tyInt ty b < tyInt ty a then b else a
def laneMax (ty : Nat) (a b : Word) : Word := if ty = 2 then fmax a b else if tyInt ty a < tyInt ty b then b else a

/-- VABS and VNEG. -/
def laneAbs (ty : Nat) (sat : Bool) (a : Word) : Word :=
  if ty = 2 then fabs a else tyWord ty sat (let x := tyInt ty a; if x < 0 then -x else x)
def laneNeg (ty : Nat) (sat : Bool) (a : Word) : Word := if ty = 2 then fneg a else tyWord ty sat (-tyInt ty a)

/-- VMULQ (R258). -/
def laneMulq (a b imm : Word) : Word := wordOfInt (sat32 (mulShift a.int b.int (imm.fld 0 6)))

/-- Shifts by `b` mod 32. -/
def laneShl (a b : Word) : Word := a <<< (b.toNat % 32)
def laneShr (ty : Nat) (a b : Word) : Word := if ty = 0 then a.sshiftRight (b.toNat % 32) else a >>> (b.toNat % 32)

/-- VCVT: IMM[0] 0 integer to F32, 1 F32 to integer (R258). -/
def laneCvt (ty : Nat) (imm a : Word) : Word :=
  if imm.bit 0 then wordOfInt ((fdec a).toInt (if ty = 0 then -2147483648 else 0) (if ty = 0 then 2147483647 else 4294967295))
  else fofInt (tyInt ty a)

/-- VCMP: EQ, NE, LT, LE, GT, GE; a NaN compares false except under NE. -/
def laneCmp (ty cond : Nat) (a b : Word) : Bool :=
  let lt := if ty = 2 then flt a b else decide (tyInt ty a < tyInt ty b)
  let gt := if ty = 2 then flt b a else decide (tyInt ty b < tyInt ty a)
  let nan := ty == 2 && (isNaN a || isNaN b)
  let eq := !lt && !gt && !nan
  match cond with
  | 0 => eq
  | 1 => !eq
  | 2 => lt
  | 3 => lt || eq
  | 4 => gt
  | _ => gt || eq

/-- VRED over the active lanes in ascending order; none active gives 0 (R258). -/
def redLanes (op ty : Nat) (sat : Bool) : List Word → Word
  | [] => 0
  | x :: r =>
    let step := fun a b => if op = 0 then laneArith 1 ty sat a b else if op = 1 then laneMax ty a b else laneMin ty a b
    r.foldl step (if ty = 2 then fcan x else x)

/-! ### Running an instruction -/

/-- What an instruction comes to: the bank and the unit after it, the end of the tile or iteration, a wait, or a failure with
the reason of VEC_ERR. -/
inductive VOut where
  | go (b : VBank) (s : Dev)
  | stop
  | wait
  | fail (reason : Nat) (e : CErr)
  deriving DecidableEq, Repr

/-- Instruction `n` of core `k`'s IMEM. -/
def Dev.imem (s : Dev) (k n : Nat) : Nat := natOf ((List.range 8).map fun i => Tab.get (fun _ => 0) (s.core k).imem (8 * n + i))

/-- Bank `b` of a program. -/
def Prog.bankOf (p : Prog) (bank : Nat) : VBank := if bank = 1 then p.bank1 else p.bank0
def Prog.setBank (p : Prog) (bank : Nat) (b : VBank) : Prog := if bank = 1 then { p with bank1 := b } else { p with bank0 := b }

/-- Set a bank of the running program of core `k`. -/
def Dev.setBank (s : Dev) (k bank : Nat) (b : VBank) : Dev :=
  match s.prog k with
  | none => s
  | some p => s.setProg k (p.setBank bank b)

/-- The bank that the lanes serve: bank 1 while a tile program runs, else bank 0 while a VEC command's program runs (R255). -/
def Prog.lanes (p : Prog) : Option Nat := if p.bank1.on then some 1 else if p.bank0.on then some 0 else none

/-- The command that a bank's program belongs to. -/
def Dev.bankOp (s : Dev) (k bank : Nat) (p : Prog) : Option Op :=
  if bank = 1 then match (s.core k).epi with
    | none => none
    | some e => p.ops.find? (·.id == e.op)
  else p.front 1 4

/-- A vector program fails: VEC_ERR, INSTR_FAULT, and its command fails. -/
def Dev.vecFail (s : Dev) (k bank pc reason : Nat) (o : Op) (e : CErr) : Dev :=
  let s := s.setRf (R.vecErr k) 0 16 (pc % 4096 + reason * 4096 + bank * 32768)
  let s := s.irq (corePage k 2) 16
  let s := match s.prog k with
    | none => s
    | some p => s.setProg k (p.setBank bank { p.bankOf bank with on := false, wait := false })
  let s := if bank = 1 then s.setCore k { s.core k with epi := none } else s
  s.opFail k 0x22 o e

/-- The instruction that a bank comes to is checked: outside the window, past the limit of a tile, or illegal, its command
fails (R273). -/
def Dev.vecEnter (s : Dev) (k bank : Nat) : Dev :=
  match s.prog k with
  | none => s
  | some p => match s.bankOp k bank p with
    | none => s
    | some o =>
      let b := p.bankOf bank
      if !b.on then s
      else if (bank = 1 ∧ (b.pc < b.entry ∨ b.entry + 511 < b.pc)) ∨ 4096 ≤ b.pc then
        s.vecFail k bank b.pc 2 o (cmdErr o.w)
      else if bank = 1 ∧ 65536 ≤ b.n then s.vecFail k bank b.pc 3 o ⟨.ctxFaultTimeout, 65536⟩
      else if vIllegal bank (s.imem k b.pc) then s.vecFail k bank b.pc 1 o (cmdErr o.w)
      else s

/-! ### VEC commands and tiles (R272, R273) -/

/-- Start iteration `o.pass` of a VEC command in bank 0. -/
def Dev.vecIter (s : Dev) (k : Nat) (o : Op) : Dev :=
  match s.prog k with
  | none => s
  | some p =>
    let b := (p.bank0.setSc 0 (Word.ofNat o.pass)).setSc 1 (Word.ofNat (cf o.w 3 0 23))
    (s.setProg k { p with bank0 := { b with on := true, pc := cf o.w 1 0 12 } }).vecEnter k 0

/-- VEC: the oldest command of the VEC queue starts its program. -/
def Dev.vecCmd (k : Nat) (p : Prog) (s : Dev) : Dev :=
  match p.front 1 4 with
  | none => s
  | some o =>
    if s.blkRuns (corePage k 2) = false ∨ p.bank0.on = true ∨ p.halt = true then s
    else match s.opCheck p o with
      | some e => s.opFail k 0x22 o e
      | none =>
        let o := { o with begun := true }
        (s.setOp k o).vecIter k o

def execVec (core : Nat) (s : State) : Host.Outcome State Fault Refusal :=
  .next { s with toDev := s.toDev.onCore core (Dev.vecCmd core) }

/-- Rows and columns of a pass's result. -/
def Epi.nr (e : Epi) : Nat := e.rows.length
def Epi.nc (e : Epi) : Nat := (e.rows.headD []).length

/-- Tiles across, and tiles of a pass. -/
def Epi.across (e : Epi) : Nat := max 1 ((e.nc + 63) / 64)
def Epi.tiles (e : Epi) : Nat := (e.nr + 63) / 64 * e.across

/-- Row block and column block of the next tile. -/
def Epi.rb (e : Epi) : Nat := e.tile / e.across
def Epi.cb (e : Epi) : Nat := e.tile % e.across

/-- Bank 1 as a tile's program sees it at entry (R272); `fresh`: the first tile of the command. -/
def Epi.bank (e : Epi) (b : VBank) (fresh : Bool) : VBank :=
  let b : VBank := if fresh then {} else b
  let v := [min 64 (e.nr - 64 * e.rb), min 64 (e.nc - 64 * e.cb), e.p, e.oy, e.ox, e.rb, e.cb, e.arg, e.sub]
  let b := v.zipIdx.foldl (fun (b : VBank) q => b.setSc q.2 (Word.ofNat q.1)) b
  { b with on := true, pc := e.entry, entry := e.entry, n := 0, wait := false }

/-- EPILOGUE_TILE: the next tile's program starts in bank 1. -/
def Dev.tileCmd (k : Nat) (p : Prog) (s : Dev) : Dev :=
  match (s.core k).epi with
  | none => s
  | some e =>
    if p.bank1.on = true ∨ e.tiles ≤ e.tile ∨ s.blkRuns (corePage k 2) = false then s
    else match p.ops.find? (·.id == e.op) with
      | none => s
      | some o =>
        let fresh := e.tile == 0 && o.pass == 1
        ((s.setProg k { p with bank1 := e.bank p.bank1 fresh }).perf (corePage k 2) 2 1).vecEnter k 1

def execEpilogueTile (core : Nat) (s : State) : Host.Outcome State Fault Refusal :=
  .next { s with toDev := s.toDev.onCore core (Dev.tileCmd core) }

/-- VEND in bank 1: the tile ends; with the last tile of the last pass the command is done. -/
def Dev.tileEnd (s : Dev) (k : Nat) (p : Prog) (o : Op) : Dev :=
  match (s.core k).epi with
  | none => s
  | some e =>
    let s := (s.setProg k { p with bank1 := { p.bank1 with on := false } }).perf (corePage k 2) 2 1
    if e.tile + 1 < e.tiles then s.setCore k { s.core k with epi := some { e with tile := e.tile + 1 } }
    else (s.setCore k { s.core k with epi := none }).setOp k { o with done := o.pass == opPasses o }

/-- VEND in bank 0: the iteration ends; the next starts, or the command is done. -/
def Dev.iterEnd (s : Dev) (k : Nat) (p : Prog) (o : Op) : Dev :=
  let o := { o with pass := o.pass + 1 }
  let s := s.setProg k { p with bank0 := { p.bank0 with on := false } }
  if o.pass < cf o.w 2 0 16 then (if p.halt then s.setOp k o else (s.setOp k o).vecIter k o) else s.setOp k { o with done := true }

/-- Run the next instruction of core `k`'s lanes when its opcode is `op`. The instruction sees the bank with its index already
advanced. -/
def Dev.vecRun (s : Dev) (k op : Nat) (f : Nat → Nat → Prog → Op → VBank → Dev → VOut) : Dev :=
  s.onCore k fun p s =>
    match p.lanes with
    | none => s
    | some bank => match s.bankOp k bank p with
      | none => s
      | some o =>
        let b := p.bankOf bank
        let i := s.imem k b.pc
        if vOp i ≠ op ∨ s.blkRuns (corePage k 2) = false then s
        else match f bank i p o { b with pc := b.pc + 1, n := b.n + 1, wait := false } s with
          | .go b' s => ((s.setBank k bank b').perf (corePage k 2) bank 1).vecEnter k bank
          | .stop =>
            let s := s.perf (corePage k 2) bank 1
            if bank = 1 then s.tileEnd k p o else s.iterEnd k p o
          | .wait => s.setBank k bank { b with wait := true }
          | .fail r e => s.vecFail k bank b.pc r o e

/-- An instruction that acts on its bank only. -/
def Dev.vecPure (s : Dev) (k op : Nat) (f : Nat → VBank → VBank) : Dev :=
  s.vecRun k op fun _ i _ _ b s => .go (f i b) s

/-- An instruction on lanes of operands A and B. -/
def Dev.vecLanes (s : Dev) (k op : Nat) (f : Nat → Word → Word → Word) : Dev :=
  s.vecPure k op fun i b => b.put i fun l => f i (b.lane (vA i) l) (b.opB i l)

/-- 64 free lanes. -/
def Dev.freeLanes (s : Dev) (tag : Nat) : (Nat → Word) × Dev :=
  (fun l => Word.ofNat (Config.freeNat (65536 + 64 * tag + l) s.draws), (s.draw tag).2)

/-- As `vecLanes`; where the spec states no result for the instruction's TYPE the lanes are free values. -/
def Dev.vecLanesOr (s : Dev) (k op : Nat) (open_ : Nat → Bool) (f : Nat → Word → Word → Word) : Dev :=
  s.vecRun k op fun _ i _ _ b s =>
    if open_ i then let (g, s) := s.freeLanes 64; .go (b.put i g) s
    else .go (b.put i fun l => f i (b.lane (vA i) l) (b.opB i l)) s

/-- An instruction on scalars. -/
def Dev.vecScalar (s : Dev) (k op : Nat) (f : Nat → Word → Word → Word) : Dev :=
  s.vecPure k op fun i b => b.setSc (vD i) (f i (b.sc (vA i)) (b.scB i))

/-! ### Loads and stores (R259) -/

/-- Offset of element `l` of a VLD or VST: s[A] + IMM[22:0], sign-extended, + *l*·*z*. -/
def VBank.elemAddr (b : VBank) (i l : Nat) : Nat :=
  let imm := vImm i
  let z := if imm.bit 26 then (b.sc (vB i)).toNat else elemSize (imm.fld 23 3)
  ((b.sc (vA i)).toNat + ofSigned 32 (toSigned 23 (imm.fld 0 23)) + l * z) % 2 ^ 32

/-- The reason of VEC_ERR for an error of an access. -/
def vecReason (e : CErr) : Nat := if e.nm = .ctxFaultCmd then 1 else if e.nm = .ctxFaultAddr then 4 else if e.nm = .dataPoisoned then 5 else 0

/-- Active lanes. -/
def VBank.lanesOn (b : VBank) (i : Nat) : List Nat := (List.range 64).filter (b.active i)

/-- VLD. -/
def vecLoad (k : Nat) (_bank i : Nat) (_p : Prog) (_o : Op) (b : VBank) (s : Dev) : VOut :=
  let f := (vImm i).fld 23 3
  let e := elemSize f
  let r : Except CErr (List (Nat × Word)) := (b.lanesOn i).mapM fun l =>
    let a := b.elemAddr i l
    if a % e ≠ 0 then .error ⟨.ctxFaultAddr, a⟩ else (s.asRd k a e).map fun bs => (l, laneOf f (natOf bs))
  match r with
  | .error e => .fail (vecReason e) e
  | .ok l => .go (b.put i fun n => ((l.find? (·.1 == n)).map (·.2)).getD 0) s

/-- The code that a lane of TYPE stores in a format: as REQUANT converts; an integer lane becomes a narrow integer by
saturation, a floating format by way of FP32 (R259, R264, R265). -/
def storeCode (f ty : Nat) (sat : Bool) (w : Word) : Nat :=
  if f = 6 then w.toNat
  else if ty = 2 then encOf f sat w
  else if f = 0 then ofSigned 8 (clampI (-128) 127 (tyInt ty w))
  else if f = 1 then ofSigned 8 (clampI 0 255 (tyInt ty w))
  else encOf f sat (fofInt (tyInt ty w))

/-- The results of the tile that bank 1 works on are poisoned (R239). -/
def Dev.tilePoison (s : Dev) (k bank : Nat) : Bool := bank == 1 && (s.core k).epi.any (·.poison)

/-- VST. -/
def vecStore (k bank i : Nat) (_p : Prog) (_o : Op) (b : VBank) (s : Dev) : VOut :=
  let f := (vImm i).fld 23 3
  let e := elemSize f
  let l := (b.lanesOn i).map fun l => (b.elemAddr i l, bytesOf e (storeCode f (vTy i) ((vImm i).bit 27) (b.lane (vD i) l)))
  match l.find? fun w => w.1 % e != 0 with
  | some w => .fail 4 ⟨.ctxFaultAddr, w.1⟩
  | none =>
    let r : Except CErr Dev := (mergeRuns (l.map fun w => ((w.1 : Int), w.2))).foldlM (fun s w =>
      s.asWr k w.1.toNat w.2 (s.tilePoison k bank)) s
    match r with
    | .error e => .fail (vecReason e) e
    | .ok s => .go b s

/-- Offset of SLD and SST: s[A] + IMM[22:0]. -/
def VBank.scAddr (b : VBank) (i : Nat) : Nat := ((b.sc (vA i)).toNat + (vImm i).fld 0 23) % 2 ^ 32

/-- SLD. -/
def vecSld (k : Nat) (_bank i : Nat) (_p : Prog) (_o : Op) (b : VBank) (s : Dev) : VOut :=
  let a := b.scAddr i
  if a % 4 ≠ 0 then .fail 4 ⟨.ctxFaultAddr, a⟩
  else match s.asWord k a with
    | .error e => .fail (vecReason e) e
    | .ok w => .go (b.setSc (vD i) w) s

/-- SST: s[D] is stored. -/
def vecSst (k bank i : Nat) (_p : Prog) (_o : Op) (b : VBank) (s : Dev) : VOut :=
  let a := b.scAddr i
  if a % 4 ≠ 0 then .fail 4 ⟨.ctxFaultAddr, a⟩
  else match s.asWr k a (bytesOf 4 (b.sc (vD i)).toNat) (s.tilePoison k bank) with
    | .error e => .fail (vecReason e) e
    | .ok s => .go b s

/-- VTIN: row s[A] of the tile; a row past the tile's rows is not stated and reads free values. -/
def vecTin (k : Nat) (_bank i : Nat) (_p : Prog) (_o : Op) (b : VBank) (s : Dev) : VOut :=
  match (s.core k).epi with
  | none => .wait
  | some e =>
    let r := (b.sc (vA i)).toNat
    if min 64 (e.nr - 64 * e.rb) ≤ r then let (g, s) := s.freeLanes 65; .go (b.put i g) s
    else .go (b.put i fun l => cellOf e.rows (64 * e.rb + r) (64 * e.cb + l)) s

/-- VSEND (R213-R217): it waits for credit, or the message leaves. -/
def vecSend (k : Nat) (_bank i : Nat) (p : Prog) (o : Op) (b : VBank) (s : Dev) : VOut :=
  let imm := vImm i
  let n := (b.sc (vB i)).toNat
  match s.sendTo k p.route (imm.fld 0 8) (imm.fld 8 5) n (cTag o.w) (imm.bit 13) with
  | .fail e => .fail (vecReason e) e
  | .wait => .wait
  | .go d oe => match s.asRd k (b.sc (vA i)).toNat n with
    | .error e => .fail (vecReason e) e
    | .ok bs =>
      let (m, s) := s.sendMsg k o.id d (imm.fld 8 5) (imm.bit 13) oe bs
      .go b (s.setOp k { o with flight := o.flight + m })

/-- VFMA. -/
def VBank.vfma (i : Nat) (b : VBank) : VBank :=
  b.put i fun l => ffma (b.lane (vA i) l) (b.opB i l) (b.lane ((vImm i).fld 0 5) l)

/-- VCMP. -/
def VBank.vcmp (i : Nat) (b : VBank) : VBank :=
  b.putPr i fun l => laneCmp (vTy i) ((vImm i).fld 0 3) (b.lane (vA i) l) (b.opB i l)

/-- VSEL: every lane is written. -/
def VBank.vsel (i : Nat) (b : VBank) : VBank :=
  b.setVec (vD i) fun l => if b.active i l then b.lane (vA i) l else b.opB i l

/-- VINS. -/
def VBank.vins (i : Nat) (b : VBank) : VBank :=
  b.put i fun l => if l = (vImm i).fld 0 6 then b.sc (vA i) else b.lane (vD i) l

/-- VRED. -/
def VBank.vred (i : Nat) (b : VBank) : VBank :=
  b.setSc (vD i) (redLanes ((vImm i).fld 0 2) (vTy i) (vSat i) ((b.lanesOn i).map (b.lane (vA i))))

/-- PAND. -/
def VBank.pand (i : Nat) (b : VBank) : VBank :=
  b.putPr i fun l => bitN (b.pr (vA i)) l && bitN (b.pr (vB i)) l

/-- POR. -/
def VBank.por (i : Nat) (b : VBank) : VBank :=
  b.putPr i fun l => bitN (b.pr (vA i)) l || bitN (b.pr (vB i)) l

/-- PNOT. -/
def VBank.pnot (i : Nat) (b : VBank) : VBank :=
  b.putPr i fun l => !bitN (b.pr (vA i)) l

/-- PFIRST. -/
def VBank.pfirst (i : Nat) (b : VBank) : VBank :=
  b.putPr i fun l => decide (l < (b.sc (vA i)).toNat)

/-- VPERM. -/
def VBank.vperm (i : Nat) (b : VBank) : VBank :=
  b.put i fun l => b.lane (vA i) ((b.opB i l).toNat % 64)

/-- VACT on a lane. -/
def laneAct (lut : Nat → Nat → Word) (i : Nat) (a _b : Word) : Word := actFn lut ((vImm i).fld 0 4) (vImm i) a

/-! ### The instructions -/

def execVnop (core : Nat) (s : State) : Host.Outcome State Fault Refusal :=
  .next { s with toDev := s.toDev.vecPure core 0x00 fun _ b => b }
def execVadd (core : Nat) (s : State) : Host.Outcome State Fault Refusal :=
  .next { s with toDev := s.toDev.vecLanes core 0x01 fun i => laneArith 1 (vTy i) (vSat i) }
def execVsub (core : Nat) (s : State) : Host.Outcome State Fault Refusal :=
  .next { s with toDev := s.toDev.vecLanes core 0x02 fun i => laneArith 2 (vTy i) (vSat i) }
def execVmul (core : Nat) (s : State) : Host.Outcome State Fault Refusal :=
  .next { s with toDev := s.toDev.vecLanes core 0x03 fun i => laneArith 3 (vTy i) (vSat i) }
def execVfma (core : Nat) (s : State) : Host.Outcome State Fault Refusal :=
  .next { s with toDev := s.toDev.vecPure core 0x04 VBank.vfma }
def execVmin (core : Nat) (s : State) : Host.Outcome State Fault Refusal :=
  .next { s with toDev := s.toDev.vecLanes core 0x05 fun i => laneMin (vTy i) }
def execVmax (core : Nat) (s : State) : Host.Outcome State Fault Refusal :=
  .next { s with toDev := s.toDev.vecLanes core 0x06 fun i => laneMax (vTy i) }
def execVabs (core : Nat) (s : State) : Host.Outcome State Fault Refusal :=
  .next { s with toDev := s.toDev.vecLanes core 0x07 fun i a _ => laneAbs (vTy i) (vSat i) a }
def execVneg (core : Nat) (s : State) : Host.Outcome State Fault Refusal :=
  .next { s with toDev := s.toDev.vecLanes core 0x08 fun i a _ => laneNeg (vTy i) (vSat i) a }
def execVdiv (core : Nat) (s : State) : Host.Outcome State Fault Refusal :=
  .next { s with toDev := s.toDev.vecLanes core 0x09 fun _ => fdiv }
def execVsqrt (core : Nat) (s : State) : Host.Outcome State Fault Refusal :=
  .next { s with toDev := s.toDev.vecLanes core 0x0A fun _ a _ => fsqrt a }
def execVmulq (core : Nat) (s : State) : Host.Outcome State Fault Refusal :=
  .next { s with toDev := s.toDev.vecLanes core 0x0B fun i a b => laneMulq a b (vImm i) }
def execVand (core : Nat) (s : State) : Host.Outcome State Fault Refusal :=
  .next { s with toDev := s.toDev.vecLanes core 0x10 fun _ a b => a &&& b }
def execVor (core : Nat) (s : State) : Host.Outcome State Fault Refusal :=
  .next { s with toDev := s.toDev.vecLanes core 0x11 fun _ a b => a ||| b }
def execVxor (core : Nat) (s : State) : Host.Outcome State Fault Refusal :=
  .next { s with toDev := s.toDev.vecLanes core 0x12 fun _ a b => a ^^^ b }
def execVshl (core : Nat) (s : State) : Host.Outcome State Fault Refusal :=
  .next { s with toDev := s.toDev.vecLanes core 0x13 fun _ => laneShl }
/-- With TYPE F32 the spec states no result. -/
def execVshr (core : Nat) (s : State) : Host.Outcome State Fault Refusal :=
  .next { s with toDev := s.toDev.vecLanesOr core 0x14 (fun i => vTy i == 2) fun i => laneShr (vTy i) }
/-- With TYPE F32 the spec states no result. -/
def execVcvt (core : Nat) (s : State) : Host.Outcome State Fault Refusal :=
  .next { s with toDev := s.toDev.vecLanesOr core 0x18 (fun i => vTy i == 2) fun i a _ => laneCvt (vTy i) (vImm i) a }
def execVcmp (core : Nat) (s : State) : Host.Outcome State Fault Refusal :=
  .next { s with toDev := s.toDev.vecPure core 0x20 VBank.vcmp }
def execPand (core : Nat) (s : State) : Host.Outcome State Fault Refusal :=
  .next { s with toDev := s.toDev.vecPure core 0x28 VBank.pand }
def execPor (core : Nat) (s : State) : Host.Outcome State Fault Refusal :=
  .next { s with toDev := s.toDev.vecPure core 0x29 VBank.por }
def execPnot (core : Nat) (s : State) : Host.Outcome State Fault Refusal :=
  .next { s with toDev := s.toDev.vecPure core 0x2A VBank.pnot }
def execPfirst (core : Nat) (s : State) : Host.Outcome State Fault Refusal :=
  .next { s with toDev := s.toDev.vecPure core 0x2B VBank.pfirst }
def execVsel (core : Nat) (s : State) : Host.Outcome State Fault Refusal :=
  .next { s with toDev := s.toDev.vecPure core 0x30 VBank.vsel }
def execVperm (core : Nat) (s : State) : Host.Outcome State Fault Refusal :=
  .next { s with toDev := s.toDev.vecPure core 0x31 VBank.vperm }
def execVbcast (core : Nat) (s : State) : Host.Outcome State Fault Refusal :=
  .next { s with toDev := s.toDev.vecPure core 0x32 fun i b => b.put i fun _ => b.sc (vA i) }
def execVext (core : Nat) (s : State) : Host.Outcome State Fault Refusal :=
  .next { s with toDev := s.toDev.vecPure core 0x33 fun i b => b.setSc (vD i) (b.lane (vA i) ((vImm i).fld 0 6)) }
def execVins (core : Nat) (s : State) : Host.Outcome State Fault Refusal :=
  .next { s with toDev := s.toDev.vecPure core 0x34 VBank.vins }
def execVred (core : Nat) (s : State) : Host.Outcome State Fault Refusal :=
  .next { s with toDev := s.toDev.vecPure core 0x35 VBank.vred }
def execViota (core : Nat) (s : State) : Host.Outcome State Fault Refusal :=
  .next { s with toDev := s.toDev.vecPure core 0x36 fun i b => b.put i fun l => Word.ofNat l }
/-- The functions are on FP32 values; with another TYPE the spec states no result. -/
def execVact (core : Nat) (s : State) : Host.Outcome State Fault Refusal :=
  .next { s with toDev := s.toDev.vecLanesOr core 0x38 (fun i => vTy i != 2) (laneAct (s.toDev.lut core)) }
/-- As VACT. -/
def execVlut (core : Nat) (s : State) : Host.Outcome State Fault Refusal :=
  .next { s with toDev := s.toDev.vecLanesOr core 0x39 (fun i => vTy i != 2) fun i a _ => lutFn (s.toDev.lut core) (vImm i) a }
def execVld (core : Nat) (s : State) : Host.Outcome State Fault Refusal :=
  .next { s with toDev := s.toDev.vecRun core 0x40 (vecLoad core) }
def execVst (core : Nat) (s : State) : Host.Outcome State Fault Refusal :=
  .next { s with toDev := s.toDev.vecRun core 0x41 (vecStore core) }
def execSld (core : Nat) (s : State) : Host.Outcome State Fault Refusal :=
  .next { s with toDev := s.toDev.vecRun core 0x42 (vecSld core) }
def execSst (core : Nat) (s : State) : Host.Outcome State Fault Refusal :=
  .next { s with toDev := s.toDev.vecRun core 0x43 (vecSst core) }
def execVtin (core : Nat) (s : State) : Host.Outcome State Fault Refusal :=
  .next { s with toDev := s.toDev.vecRun core 0x48 (vecTin core) }
def execVsend (core : Nat) (s : State) : Host.Outcome State Fault Refusal :=
  .next { s with toDev := s.toDev.vecRun core 0x49 (vecSend core) }
def execSadd (core : Nat) (s : State) : Host.Outcome State Fault Refusal :=
  .next { s with toDev := s.toDev.vecScalar core 0x50 fun _ a b => a + b }
def execSsub (core : Nat) (s : State) : Host.Outcome State Fault Refusal :=
  .next { s with toDev := s.toDev.vecScalar core 0x51 fun _ a b => a - b }
def execSmul (core : Nat) (s : State) : Host.Outcome State Fault Refusal :=
  .next { s with toDev := s.toDev.vecScalar core 0x52 fun _ a b => a * b }
def execSli (core : Nat) (s : State) : Host.Outcome State Fault Refusal :=
  .next { s with toDev := s.toDev.vecScalar core 0x53 fun i _ _ => vImm i }
def execSand (core : Nat) (s : State) : Host.Outcome State Fault Refusal :=
  .next { s with toDev := s.toDev.vecScalar core 0x54 fun _ a b => a &&& b }
def execSor (core : Nat) (s : State) : Host.Outcome State Fault Refusal :=
  .next { s with toDev := s.toDev.vecScalar core 0x55 fun _ a b => a ||| b }
def execSshl (core : Nat) (s : State) : Host.Outcome State Fault Refusal :=
  .next { s with toDev := s.toDev.vecScalar core 0x56 fun _ => laneShl }
/-- Arithmetic for TYPE I32, logical otherwise (DEDUCED from VSHR, notes/assumptions/12). -/
def execSshr (core : Nat) (s : State) : Host.Outcome State Fault Refusal :=
  .next { s with toDev := s.toDev.vecScalar core 0x57 fun i => laneShr (vTy i) }

/-- A jump to IMM[11:0] when `c` holds. -/
def Dev.vecJump (s : Dev) (k op : Nat) (c : Word → Bool) : Dev :=
  s.vecPure k op fun i b => if c (b.sc (vA i)) then { b with pc := (vImm i).fld 0 12 } else b

def execJmp (core : Nat) (s : State) : Host.Outcome State Fault Refusal :=
  .next { s with toDev := s.toDev.vecJump core 0x60 fun _ => true }
def execBz (core : Nat) (s : State) : Host.Outcome State Fault Refusal :=
  .next { s with toDev := s.toDev.vecJump core 0x61 fun a => a == 0 }
def execBnz (core : Nat) (s : State) : Host.Outcome State Fault Refusal :=
  .next { s with toDev := s.toDev.vecJump core 0x62 fun a => a != 0 }
def execVend (core : Nat) (s : State) : Host.Outcome State Fault Refusal :=
  .next { s with toDev := s.toDev.vecRun core 0x63 fun _ _ _ _ _ _ => .stop }

end Sys2Proof.Machine
end

