-- ==== Sys2Proof/Machine/Jobs.lean ====
section
/-! DEFINITION. The job queues of JPEG, the PPUs, the DPP and the SLV: pushing, acceptance, and the end of a job (R177, R178,
R277, R294, R335). -/

namespace Sys2Proof.Machine

/-! ### Register access to an engine page -/

/-- A register write by `src` reaches the block of a page: not while the PF is in D3hot or in FLR for the host (R69, R73); a
gated or isolated island drops it and records GATED (R37); a block in soft reset drops it (R38). -/
def Dev.regWrOk (s : Dev) (src : Src) (page off : Nat) : Bool × Dev :=
  let down := match src with
    | .host n => n != 0 || s.inD3 || s.rb R.hifFlrStat 0
    | _ => false
  if down then (false, s)
  else if !s.islOn (islOf page) then (false, s.accErr 0 .gated (page + off))
  else (!s.rb (page + R.ctl) 1, s)

/-! ### Descriptors -/

/-- A word of a descriptor at byte offset `o`. -/
def dW (d : List Byte) (o : Nat) : Word := Word.ofNat (natOf ((d.drop o).take 4))
/-- A field of a descriptor's word. -/
def dF (d : List Byte) (o lo len : Nat) : Nat := (dW d o).fld lo len
/-- A word of a descriptor as a number. -/
def dN (d : List Byte) (o : Nat) : Nat := (dW d o).toNat
/-- A 64-bit field of a descriptor. -/
def dQ (d : List Byte) (o : Nat) : Nat := natOf ((d.drop o).take 8)

/-- Alignment of a queue's descriptors. -/
def jqAlign (q : Nat) : Nat := if q = 0 ∨ 4 ≤ q then 64 else 128

/-- Destinations of a PPU descriptor. -/
def ppuN (d : List Byte) : Nat := min 16 (dF d 0 8 5)

/-- Levels of a DPP descriptor, none for EMIT. -/
def dppLevels (d : List Byte) : Nat := if dF d 0 8 1 = 1 then 0 else dF d 0 19 3 + 1

/-- Bytes of a descriptor with what follows it, from its first 128 or 64. -/
def descLen (q : Nat) (d : List Byte) : Nat :=
  if q = 0 then 64 else if q ≤ 2 then 128 + 16 * ppuN d
  else if q = 3 then 128 + (if dF d 0 16 2 = 2 then 160 else 32) * dppLevels d
  else 256

/-- The handles of a job, in the order in which the engine increments them. -/
def jobHandles (q : Nat) (d : List Byte) : List Nat :=
  if q = 0 then []
  else if q ≤ 2 then dN d 4 :: (List.range (ppuN d)).map fun i => dN d (0x80 + 16 * i)
  else if q = 3 then
    if dF d 0 8 1 = 1 then [dN d 0x48] else (List.range (dppLevels d)).map (fun l => dN d (0x80 + 32 * l)) ++ [dN d 0x2C]
  else match dF d 0 8 3 with
    | 0 => [dN d 0x44, dN d 0x50, dN d 0x5C] ++ (if dN d 0x64 = 0 then [] else [dN d 0x64])
        ++ (if dF d 0 14 1 = 1 then [dN d 0x6C] else [])
    | 1 => [dN d 0x44, dN d 0x4C, dN d 0x58] ++ (if dF d 0x40 9 1 = 1 then [dN d 0x6C] else [])
    | 2 => [dN d 0x44, dN d 0x64]
    | 3 => [dN d 0x40, dN d 0x48]
    | 4 => [dN d 0x4C, dN d 0x54, dN d 0x5C, dN d 0x64]
    | _ => []

/-- TAG of a descriptor. -/
def jobTag (q : Nat) (d : List Byte) : Nat :=
  dN d (if q = 0 then 0x14 else if q ≤ 2 then 0x58 else if q = 3 then 0x54 else 4)
/-- IRQ of a descriptor. -/
def jobIrq (q : Nat) (d : List Byte) : Bool := dF d 0 (if q = 0 then 8 else if q ≤ 2 then 29 else if q = 3 then 9 else 11) 1 == 1
/-- NOTIFY of a descriptor: core address and channel. -/
def jobNotify (q : Nat) (d : List Byte) : Option (Nat × Nat) :=
  if q = 0 then (if dF d 0 9 1 = 1 then some (dF d 0 24 8, dF d 0 16 5) else none)
  else if q ≤ 2 then (if dF d 0x24 15 1 = 1 then some (dF d 0x24 0 8, dF d 0x24 8 5) else none)
  else if q = 3 then (if dF d 0 10 1 = 1 then some (dF d 4 0 8, dF d 4 8 5) else none)
  else (if dF d 0 12 1 = 1 then some (dF d 0 24 8, dF d 0 16 5) else none)
/-- KIND of a queue's NOTIFY (R218). -/
def jqKind (q : Nat) : Nat := if q = 0 then 3 else if q ≤ 2 then q else if q = 3 then 4 else 5
/-- NOTIFY_CH of a descriptor is illegal. -/
def notifyBad (q : Nat) (d : List Byte) : Bool := match jobNotify q d with
  | some (_, ch) => decide (28 ≤ ch)
  | none => false

/-! ### Acceptance (R177, R178) -/

/-- Places of a queue. -/
def jqCap (q : Nat) : Nat := if q = 5 then 2 else 64

/-- The job is TIME's. -/
def Job.timed (j : Job) : Bool := match j.by_ with
  | .time _ => true
  | _ => false

/-- A queue has a place that the job may use: eight places of each PPU are TIME's. -/
def Dev.jqRoom (s : Dev) (q : Nat) (j : Job) : Bool :=
  let l := (s.jq q).jobs
  decide (l.length < jqCap q) &&
    (j.timed || q == 0 || decide (3 ≤ q) || decide ((l.filter fun x => !x.timed).length < 56))

/-- Take references in order: the ones taken, and the first failure. -/
def Dev.takeRefs (s : Dev) (rq c : Nat) : List Nat → List Nat × Option (Status × Nat) × Dev
  | [] => ([], none, s)
  | h :: l =>
    let (st, s) := s.ref rq c h
    if st.nm = .success then let (r, e, s) := s.takeRefs rq c l; (h :: r, e, s) else ([], some (st, h), s)

/-- The engine accepts a job: it takes the job's references; one that fails decides the job's status. -/
def Dev.jobAccept (s : Dev) (q : Nat) (j : Job) : Dev :=
  let (refs, e, s) := if j.bad.isSome then ([], none, s) else s.takeRefs (jqRq q) j.ctx (jobHandles q j.desc)
  let s := if e.isSome ∧ 1 ≤ q ∧ q ≤ 2 then s.perf (jqPage q) 3 1 else s
  let x := s.jq q
  let j := { j with refs, id := x.next, bad := j.bad.or (e.map (·.1)), d2 := match e with | some (_, h) => h | none => j.d2 }
  (s.setJq q { x with jobs := x.jobs ++ [j], next := x.next + 1 }).jqStat q

/-- A refused push. -/
def Dev.jobRefused (s : Dev) (q : Nat) (flag : Bool) : Dev :=
  let s := s.satInc (jqPage q + 0x110) 1
  if flag then s.irq (jqPage q) 1 else s

/-- A push: accepted when a place is free; else SCHED's and firmware's wait, the PF driver's is dropped with bit 1, and TIME's
is late (R177). Whether it was taken or waits. -/
def Dev.jobPush (s : Dev) (q : Nat) (j : Job) : Bool × Dev :=
  if s.jqRoom q j then (true, s.jobAccept q j)
  else match j.by_ with
    | .host => (false, s.jobRefused q true)
    | .time _ => (false, s.jobRefused q false)
    | _ => let s := s.jobRefused q false
           let x := s.jq q
           (true, s.setJq q { x with waits := x.waits ++ [j] })

/-- The waiting push that goes first: by CTX_PRIO, then arrival (R335). -/
def Dev.bestWait (s : Dev) (q : Nat) : Option Job :=
  ((s.jq q).waits.filter (s.jqRoom q)).foldl (fun b j => match b with
    | none => some j
    | some k => if s.rf (R.ctxPrio k.ctx) 0 3 < s.rf (R.ctxPrio j.ctx) 0 3 then some j else some k) none

/-- Refused pushes of SCHED and firmware are retried while places are free. -/
def Dev.jqRetry (s : Dev) (q fuel : Nat) : Dev :=
  match fuel with
  | 0 => s
  | fuel + 1 => match s.bestWait q with
    | none => s
    | some j =>
      let x := s.jq q
      ((s.setJq q { x with waits := x.waits.erase j }).jobAccept q j).jqRetry q fuel

/-- The job of the descriptor at a usable address: its bytes, read at the push. -/
def Dev.jobAt (s : Dev) (q a : Nat) (by_ : JobBy) : Job × Dev :=
  let c := (s.byte a).toNat
  let n := descLen q (s.bytes a 128)
  let (bad, bs, s) := s.memRd c a n
  ({ by_, addr := some a, desc := bs, ctx := c, bad := if bad then some ⟨.dataPoisoned, jqBlk q⟩ else none, d2 := a % 2 ^ 32 }, s)

/-- A descriptor address that the engine refuses: misaligned, or outside usable DRAM. -/
def Dev.descBad (s : Dev) (q a : Nat) : Bool :=
  a % jqAlign q != 0 || decide (s.usable < a + jqAlign q) || decide (s.usable < a + descLen q (s.bytes a 128))

/-- A descriptor is pushed: whether it is taken or waits. A solver record with OP BUNDLE goes to the BUNDLE queue. -/
def Dev.pushDesc (s : Dev) (q a : Nat) (by_ : JobBy) : Bool × Dev :=
  if s.descBad q a then (false, s.jobRefused q true)
  else
    let (j, s) := s.jobAt q a by_
    s.jobPush (if q = 4 ∧ dF j.desc 0 8 3 = 4 then 5 else q) j

/-- Who pushes through a page. -/
def pushBy (src : Src) : JobBy := match src with
  | .host _ => .host
  | _ => .fw

/-- A write of JOB_PUSH_HI of queue `q`'s page (R177, R277, R294). -/
def Dev.pushWrite (s : Dev) (q : Nat) (src : Src) (v : Word) : Dev :=
  let (ok, s) := s.regWrOk src (jqPage q) 0x104
  if ok then (s.pushDesc q (s.rn (jqPage q + 0x100) + v.toNat * 2 ^ 32) (pushBy src)).2 else s

/-- JOB_PUSH_HI of JPEG (0), PPU0 (1), PPU1 (2). -/
def execJobPushHi (q : Nat) (src : Src) (v : Word) (s : State) : Host.Outcome State Fault Refusal :=
  .next { s with toDev := if q < 3 then (s.toDev.busPosted src).pushWrite q src v else s.toDev }

/-- DPP_JOB_PUSH_HI (R277). -/
def execDppJobPushHi (src : Src) (v : Word) (s : State) : Host.Outcome State Fault Refusal :=
  .next { s with toDev := (s.toDev.busPosted src).pushWrite 3 src v }

/-- SLV_JOB_PUSH_HI (R294). -/
def execSlvJobPushHi (src : Src) (v : Word) (s : State) : Host.Outcome State Fault Refusal :=
  .next { s with toDev := (s.toDev.busPosted src).pushWrite 4 src v }

/-! ### The end of a job (R178) -/

/-- Replace a job of a queue. -/
def Dev.setJob (s : Dev) (q : Nat) (j : Job) : Dev :=
  let x := s.jq q
  (s.setJq q { x with jobs := x.jobs.map fun k => if k.id == j.id then j else k }).jqStat q

/-- The words of a status sector with nothing in it but STATUS: JPEG and PPU and DPP 8 words, the SLV's result record 16. -/
def blankSector (q : Nat) (st : Status) : List Word :=
  let w := Word.ofNat st.code
  if q = 0 then [0, 0, w, 0, 0, 0, 0, 0]
  else if q ≤ 3 then [w, 0, 0, 0, 0, 0, 0, 0]
  else [w, 0, 0, 0xFFFF0000, 0, 0, 0, 0, 0, 0, 0, 0, 0, 0, 0, 0]

/-- Write a job's status sector; the SLV's second sector first. -/
def Dev.statusWrite (s : Dev) (q : Nat) (j : Job) (a : Nat) : Dev :=
  let bs := bytesOfWords j.out
  if q ≤ 3 then s.memWr j.ctx (a + (if q = 0 then 0x20 else 0x60)) bs false
  else (s.memWr j.ctx (a + 0xE0) (bs.drop 32) false).memWr j.ctx (a + 0xC0) (bs.take 32) false

/-- A coach seat learns the end of one of its jobs. -/
def Dev.seatJobEnd (s : Dev) (r q k : Nat) (st : Status) : Dev :=
  match s.route r with
  | none => s
  | some x =>
    let up := fun (e : Seat) => if e.q ≠ q then e
      else if k = 0 then { e with ppu := 2, fail := st.nm != .success } else { e with postsOut := e.postsOut - 1 }
    s.setRoute r (some { x with steps := x.steps.map fun t => { t with seats := t.seats.map up } })

/-- A status fails a job. -/
def Nm.jobFails (n : Nm) : Bool := n != .success && n != .nmsTruncated

/-- Write a SOLVE's result record at OUT, at the manager. -/
def Dev.solveOut (s : Dev) (c seq : Nat) (bs : List Byte) : Dev :=
  match (s.ctx c).run.find? (·.seq == seq) with
  | none => s
  | some r =>
    let o := hAddrAt r.words 0x10
    if o.dram then match s.ctxDram c o.addr 64 with
      | some a => s.memWr c a bs false
      | none => s
    else s.hostWr (s.ctxVec c).1 o.addr bs

/-- A SOLVE ends with its job: the result record goes to OUT at the manager, or with a worker's answer (R295). -/
def Dev.solveEnd (s : Dev) (c seq : Nat) (j : Job) : Dev :=
  let bs := bytesOfWords j.out
  if 3 ≤ j.phase then s.endCmd c seq j.st 0 j.d2
  else if !s.isMgr then
    let run := (s.ctx c).run.map fun e => if e.seq == seq then { e with data := bs } else e
    (s.setCtx c { s.ctx c with run }).endCmd c seq j.st 0 j.d2
  else (s.solveOut c seq bs).endCmd c seq j.st 0 j.d2

/-- A computed job completes: references, status sector, NOTIFY, BLK_IRQ_STAT bit 0, in that order; then its pusher learns it,
waiting pushes move up, and a status of R87 faults the context (R178). -/
def Dev.jobEnd (s : Dev) (q : Nat) (j : Job) : Dev :=
  let page := jqPage q
  let nm := j.st.nm
  let s := s.dropJob q j
  let x := s.jq q
  let s := s.setJq q { x with jobs := x.jobs.filter (·.id != j.id) }
  let own := match j.by_ with
    | .cmd _ _ => none
    | _ => j.addr
  let s := match own with
    | some a => if 3 ≤ j.phase then s else s.statusWrite q j a
    | none => s
  let s := match jobNotify q j.desc with
    | some (core, ch) => s.notify (jqKind q) core ch j.ctx j.st.code (j.addr.getD 0) (jobTag q j.desc)
    | none => s
  let s := if jobIrq q j.desc then s.irq page 0 else s
  let s := if nm.jobFails then (s.irq page 16).capture page j.st.code j.ctx (j.addr.getD 0) (jobTag q j.desc) else s
  let s := if nm = .dataPoisoned then s.irq page 18 else s
  let s := ((s.setReg (page + 0x10C) (Word.ofNat j.st.code)).perf page 0 1).jqStat q
  let s := match j.by_ with
    | .seat r n k => s.seatJobEnd r n k j.st
    | .cmd c seq => s.solveEnd c seq j
    | _ => s
  let s := s.jqRetry q 64
  if nm.faults then s.ctxFault j.ctx j.st 0 j.d2 0xFFFF else s

/-- A job computes to a status with the words of its sector: it waits for its completion. -/
def Dev.jobDone (s : Dev) (q : Nat) (j : Job) (st : Status) (d2 : Nat) (ws : List Word) : Dev :=
  s.setJob q { j with phase := 2, st, d2, out := ws }

/-- A job ends at once with a failure. -/
def Dev.jobFail (s : Dev) (q : Nat) (j : Job) (st : Status) (d2 : Nat) : Dev :=
  s.jobEnd q { j with phase := 2, st, d2, out := blankSector q st }

/-- The first job of a queue in order of completion. -/
def Dev.jobFirst (s : Dev) (q : Nat) : Option Job := (s.jq q).jobs.head?

end Sys2Proof.Machine
end

