-- ==== Sys2Proof/Machine/Route.lean ====
section
/-! DEFINITION. Models and routes: MODEL_LOAD, MODEL_UNLOAD, GRAPH_LAUNCH, GRAPH_STOP, the end of programs, and the parts that
the units of the chain have in them (R209, R210, R223-R227, R331-R339). How the manager's SCHED and the units' tell each other
is not given by the spec (DEDUCED, notes/assumptions/13). -/

namespace Sys2Proof.Machine

/-! ### Fields of the commands (R96) -/

/-- MODEL_ID and UNIT_MASK of MODEL_LOAD; MODEL_ID of GRAPH_LAUNCH; ROUTE of GRAPH_LAUNCH and GRAPH_STOP. -/
def hModel (w : List Word) : Nat := if hOp w = 3 then hF w 8 0 16 else hF w 0x14 0 16
def hUnits (w : List Word) : List Nat := (List.range 16).filter fun u => bitN (hF w 0x14 16 16) u
def hRoute (w : List Word) : Nat := hF w 8 16 8

/-- The physical cores that CORE_MASK selects, in order (R209). -/
def hCores (w : List Word) : List Nat := (List.range 256).filter fun i => (hW w (0x10 + i / 32 * 4)).bit (i % 32)

/-- The units of a core map. -/
def unitsOf (map : List Nat) : List Nat := (map.map (· / 16)).eraseDups

/-! ### A route leaves a unit (R334, R339, R344) -/

/-- Route `r`'s programs leave the cores of this unit, its seats and waiting pictures are released, its entry goes; the manager
keeps the entry while other units' parts of the launch are awaited. -/
def Dev.routeClear (s : Dev) (r : Nat) : Dev :=
  match s.route r with
  | none => s
  | some x =>
    let s := (List.range 16).foldl (fun s k =>
      if (s.core k).progs.any (·.route == r) then s.leaveCore k r x.ctx else s) s
    let s := s.dropSeats x
    let open_ := s.isMgr && (s.ctx x.ctx).run.any fun e => e.seq == x.seq && e.op == 3 && e.await.any (· != s.addr)
    s.setRoute r (if open_ then some { x with coach := none, told := some false, running := [], steps := [], held := [],
                                               closes := [], waiting := [] } else none)

/-- The image of a model is freed on this unit. -/
def Dev.modelFree (s : Dev) (m : Nat) : Dev :=
  match s.model m with
  | none => s
  | some x => (s.unref0 schedRq x.ctx x.h).setModel m none

/-! ### The parts of a command (R331) -/

/-- A command waits for the parts of units `us`. -/
def Dev.awaitUnits (s : Dev) (c seq : Nat) (us : List Nat) : Dev :=
  let x := s.ctx c
  s.setCtx c { x with run := x.run.map fun e => if e.seq == seq then { e with await := us } else e }

/-- Send the units `us` other than this one their parts of a command. -/
def Dev.sendParts (s : Dev) (c : Nat) (w : List Word) (us : List Nat) (data : List Byte) : Dev :=
  (us.filter (· != s.addr)).foldl (fun s u =>
    s.fwSend u (.cmd c (s.rn (R.ctxPrio c)) (s.rn (R.ctxQuota c)) (s.rn (R.ctxCoreset c u)) (hSeq w) w data)) s

/-- Every part of a command has ended, or a part of a launch failed: the command ends. A failed MODEL_LOAD or GRAPH_LAUNCH
leaves nothing behind on the units where it had succeeded. -/
def Dev.partsEnd (s : Dev) (c : Nat) (e : Run) (st : Status) (result d2 : Nat) (data : List Byte) : Dev :=
  let ok := st.nm == .success
  let r := hRoute e.words
  let others := fun (s : Dev) (us : List Nat) (m : FwMsg) => (us.filter (· != s.addr)).foldl (fun s u => s.fwSend u m) s
  let s := match e.op with
    | 1 => if ok then s else others (s.modelFree (hModel e.words)) (hUnits e.words) (.modelDrop (hModel e.words))
    | 3 =>
      if !ok then (others (s.awaitUnits c e.seq []) (unitsOf (hCores e.words)) (.routeEnd r)).routeClear r
      else match s.route r with
        | some x => s.setRoute r (if result = 1 ∧ x.told ≠ some false then some { x with told := some true } else none)
        | none => s
    | 4 => (s.awaitUnits c e.seq []).routeClear r
    | 0x20 =>
      if data = [] then s
      else
        let o := hAddrAt e.words 0x10
        if o.dram then match s.ctxDram c o.addr 64 with
          | some a => s.memWr c a data false
          | none => s
        else s.hostWr (s.ctxVec c).1 o.addr data
    | _ => s
  let result := if e.op = 1 ∨ e.op = 3 then (if !ok then 0 else if e.op = 1 then hModel e.words else r) else result
  (s.endCmd c e.seq st result d2)

/-- At the manager: unit `u`'s part of a command has ended. -/
def Dev.partDone (s : Dev) (c seq u : Nat) (st : Status) (result d2 : Nat) (data : List Byte) : Dev :=
  match (s.ctx c).run.find? (·.seq == seq) with
  | none => s
  | some e =>
    if !e.await.contains u then s
    else
      let await := e.await.erase u
      let part : Status × Nat := match e.part with
        | some p => if p.1.nm = .success then (st, max result p.2) else p
        | none => (st, result)
      let x := s.ctx c
      let s := s.setCtx c { x with run := x.run.map fun g => if g.seq == seq then { g with await, part := some part } else g }
      if await = [] ∨ (e.op = 3 ∧ st.nm ≠ .success) then (s.partsEnd c { e with await } part.1 part.2 d2 data).kick c else s

/-- This unit's part of a command has ended. -/
def Dev.partEnd (s : Dev) (c seq : Nat) (st : Status) (result d2 : Nat) : Dev :=
  if s.isMgr then s.partDone c seq s.addr st result d2 [] else s.endCmd c seq st result d2

/-- Whether this unit's part of a command is outstanding. -/
def Dev.partOpen (s : Dev) (e : Run) : Bool := !s.isMgr || e.await.contains s.addr

/-- Route `r` ends on this unit: what waits for that ends (R338, R339). -/
def Dev.routeGone (s : Dev) (r : Nat) : Dev :=
  match s.route r with
  | none => s
  | some x =>
    let stops := (s.ctx x.ctx).run.filter fun e => e.op == 4 && hRoute e.words == r && s.partOpen e
    let s := (s.routeClear r).partEnd x.ctx x.seq .ok 0 0
    stops.foldl (fun s e => s.partEnd x.ctx e.seq .ok 0 0) s

/-- A coach route ends at its home unit: the other units and the manager learn it. -/
def Dev.coachFinish (s : Dev) (r : Nat) : Dev :=
  match s.route r with
  | none => s
  | some x =>
    let us := ((0 :: unitsOf x.map).eraseDups).filter (· != s.addr)
    (us.foldl (fun s u => s.fwSend u (.routeEnd r)) s).routeGone r

/-- Route `r` is to stop on this unit (R339): a coach route's steps run to their end, a free route's cores stop as R225 states,
without a fault event. -/
def Dev.stopRoute (s : Dev) (r : Nat) : Dev :=
  match s.route r with
  | none => s
  | some x =>
    if x.coach.isSome then
      let s := s.setRoute r (some { x with stopping := true })
      if x.steps = [] then s.coachFinish r else s
    else if x.told = some true then s.setRoute r (some { x with stopping := true })
    else s.routeGone r

/-- MODEL_UNLOADs whose routes have ended on this unit free the image here (R210). -/
def Dev.unloadAll (s : Dev) : Dev :=
  s.ctxs.foldl (fun s y =>
    (y.2.run.filter fun e => e.op == 2 && s.partOpen e).foldl (fun s e =>
      let m := hModel e.words
      if s.eng.routes.any fun x => (x.2.map (·.model)) == some m then s
      else (s.modelFree m).partEnd y.1 e.seq .ok 0 0) s) s

/-! ### MODEL_LOAD (R227) -/

/-- One step of the CRC-32 of IEEE 802.3, bit-reflected. -/
def crcBit (c : Nat) : Nat := if c % 2 = 1 then (c / 2).xor 0xEDB88320 else c / 2

/-- CRC-32 (IEEE 802.3) over bytes, from a running value. -/
def crcRun (c : Nat) : List Byte → Nat
  | [] => c
  | b :: l => crcRun (crcBit (crcBit (crcBit (crcBit (crcBit (crcBit (crcBit (crcBit (c.xor b.toNat))))))))) l

/-- CRC-32 (IEEE 802.3). -/
def crc32 (l : List Byte) : Nat := (crcRun 0xFFFFFFFF l).xor 0xFFFFFFFF

/-- A section of an image is legal: its TYPE, its extent inside LEN, its alignment, its logical core, and the length that its
TYPE asks. -/
def sectOk (len nl : Nat) (x : Sect) : Bool :=
  decide (1 ≤ x.typ) && decide (x.typ ≤ 6) && x.off % 64 == 0 && decide (x.off + x.len ≤ len)
    && (x.typ == 4 || decide (x.lcore < nl)) && (x.typ != 1 || (x.len % 32 == 0 && x.len != 0))
    && (x.typ != 5 || x.len == 512)

/-- The checks of R227 on an image of which `n` bytes were read: its LEN and NLCORE. -/
def imageCheck (bs : List Byte) : Option (Nat × Nat) :=
  let len := dN bs 0xC
  let ns := dF bs 4 16 16
  let nl := dF bs 8 0 9
  let sects := (List.range ns).map fun i => Sect.ofBytes ((bs.drop (0x40 + 16 * i)).take 16)
  let cores := fun t => (sects.filter (·.typ == t)).map (·.lcore)
  if bs.length < 64 ∨ len < 64 ∨ bs.length < len ∨ dN bs 0 ≠ 0x4D445045 ∨ dF bs 4 0 16 ≠ 1 ∨ 4096 < ns ∨ ns = 0 ∨ nl = 0
      ∨ 256 < nl ∨ len < 0x40 + 16 * ns then none
  else if crc32 ((bs.take len).drop 0x40) ≠ dN bs 0x10 then none
  else if sects.all (sectOk len nl) && (List.range nl).all (fun l => (cores 1).count l == 1)
      && (List.range nl).all (fun l => decide ((cores 5).count l ≤ 1)) then some (len, nl)
  else none

/-- MODEL_LOAD on a unit of UNIT_MASK: the pinned buffer, allocated at once by management firmware's requester, takes the image
(R128, R135; DEDUCED, notes/assumptions/9). -/
def Dev.modelHere (s : Dev) (c : Nat) (w : List Word) (bs : List Byte) (nl : Nat) : Dev :=
  let p := hF w 0x18 0 4
  let m := hModel w
  let seq := hSeq w
  if s.poolEn p ∧ (s.poolAs p = true ∨ s.poolSize p < bs.length) then s.partEnd c seq ⟨.ctxFaultCmd, 8⟩ 0 1
  else match s.allocate p schedRq c none false (.eng 0) with
    | (some (st, h), s) =>
      if st.nm ≠ .success then s.partEnd c seq st 0 0
      else
        let b := s.buf (hPool h) (hIdx h)
        let s := s.setBuf (hPool h) (hIdx h) { b with pinned := true }
        let s := s.memWr c (s.hAddr h) bs false
        let mask := hF w 0x14 16 16
        (s.setModel m (some { ctx := c, mask, h, len := bs.length, nl })).partEnd c seq .ok 0 0
    | (none, s) => s

/-- MODEL_LOAD at the manager: the checks, then its parts. -/
def Dev.modelLoadMgr (s : Dev) (c : Nat) (w : List Word) : Dev :=
  let seq := hSeq w
  let m := hModel w
  let us := hUnits w
  let len := (hW w 0x10).toNat
  if us.any fun u => !s.unitIn u then s.endCmd c seq ⟨.unitLost, 8⟩ 0 ((us.find? fun u => !s.unitIn u).getD 0)
  else if (s.model m).isSome ∨ len < 64 then s.endCmd c seq ⟨.ctxFaultCmd, 8⟩ 0 1
  else s.dramOperand c w (hAddrAt w 8) len fun s =>
    let bs := (s.ctx c).opData.getD []
    match imageCheck bs with
    | none => s.endCmd c seq ⟨.ctxFaultCmd, 8⟩ 0 1
    | some (n, nl) =>
      let bs := bs.take n
      let s := s.setModel m (some { ctx := c, mask := hF w 0x14 16 16, h := 0, len := n, nl })
      if us = [] then s.endCmd c seq .ok m 0
      else
        let s := (s.awaitUnits c seq us).sendParts c w us bs
        if us.contains s.addr then s.modelHere c w bs nl else s

/-- MODEL_LOAD. -/
def Dev.modelLoad (c : Nat) (w : List Word) (s : Dev) : Dev :=
  if s.isMgr then s.modelLoadMgr c w
  else
    let bs := (s.ctx c).opData.getD []
    s.modelHere c w bs (dF bs 8 0 9)

def execModelLoad (c : Nat) (s : State) : Host.Outcome State Fault Refusal :=
  .next { s with toDev := s.toDev.hostCmd c 1 (Dev.modelLoad c) }

/-! ### MODEL_UNLOAD (R210) -/

/-- MODEL_UNLOAD on a unit: the model's routes stop; the image goes when they have ended. -/
def Dev.unloadHere (s : Dev) (m : Nat) : Dev :=
  let s := match s.model m with
    | some x => s.setModel m (some { x with gone := true })
    | none => s
  ((s.eng.routes.filter fun x => (x.2.map (·.model)) == some m).foldl (fun s x => s.stopRoute x.1) s).unloadAll

/-- MODEL_UNLOAD: a model that is not loaded, or that another context loaded, is left alone. -/
def Dev.modelUnload (c : Nat) (w : List Word) (s : Dev) : Dev :=
  let m := hModel w
  let seq := hSeq w
  if !s.isMgr then s.unloadHere m
  else match s.model m with
    | none => s.endCmd c seq .ok 0 0
    | some x =>
      if x.ctx ≠ c ∨ x.gone = true then s.endCmd c seq .ok 0 0
      else
        let us := (s.addr :: (List.range 16).filter (bitN x.mask)).eraseDups.filter s.unitIn
        ((s.awaitUnits c seq us).sendParts c w us []).unloadHere m

def execModelUnload (c : Nat) (s : State) : Host.Outcome State Fault Refusal :=
  .next { s with toDev := s.toDev.hostCmd c 2 (Dev.modelUnload c) }

end Sys2Proof.Machine
end

