-- ==== Sys2Proof/Machine/Launch.lean ====
section
/-! DEFINITION. GRAPH_LAUNCH, GRAPH_STOP, the end of core programs and of core commands, the timeouts of cores, preemption and
resumption, and cores out of service (R199, R209, R212, R216, R223-R225, R240, R331-R339, R348). -/

namespace Sys2Proof.Machine

/-! ### Checks of a launch -/

/-- An enabled entry of a channel table. -/
def chanEn (bs : List Byte) (ch : Nat) : Bool := bitN (chanWord bs ch 0) 31
/-- Sender KIND and SENDER of a channel table's entry. -/
def chanKindOf (bs : List Byte) (ch : Nat) : Nat := fldN (chanWord bs ch 2) 8 4
def chanSenderOf (bs : List Byte) (ch : Nat) : Nat := fldN (chanWord bs ch 2) 0 8

/-- An enabled entry is illegal: BASE not a multiple of 64, no slots, an unlisted KIND, a sender outside the cores. -/
def chanBad (bs : List Byte) (nl ch : Nat) : Bool :=
  chanEn bs ch && (fldN (chanWord bs ch 0) 0 23 % 64 != 0 || fldN (chanWord bs ch 1) 10 8 == 0
    || decide (5 < chanKindOf bs ch) || (chanKindOf bs ch == 0 && decide (nl ≤ chanSenderOf bs ch)))

/-- Two ranges of AS windows overlap. -/
def windowsMeet (a b : Nat × Nat) : Bool := decide (a.1 < b.1 + b.2) && decide (b.1 < a.1 + a.2)

/-- The logical cores of a map on this unit, with their core numbers. -/
def Dev.hereOf (s : Dev) (map : List Nat) : List (Nat × Nat) :=
  (map.zipIdx.filter fun x => x.1 / 16 == s.addr).map fun x => (x.2, x.1 % 16)

/-- What stops a launch on this unit, with DETAIL2: the model is not here, its image is BAD, a table is illegal, a core would be
the sender of more than 64 channels (R210, R212), or R332 refuses it. -/
def Dev.launchBad (s : Dev) (c : Nat) (w : List Word) : Option (Status × Nat) :=
  let map := hCores w
  let cmd : Option (Status × Nat) := some (⟨.ctxFaultCmd, 8⟩, 3)
  match s.model (hModel w) with
  | none => cmd
  | some m =>
    if m.ctx ≠ c ∨ m.gone = true ∨ m.nl ≠ map.length ∨ s.hValid m.h = false then cmd
    else if (s.buf (hPool m.h) (hIdx m.h)).bad then some (⟨.dataPoisoned, 8⟩, s.hAddr m.h % 2 ^ 32)
    else
      let tabs := (List.range m.nl).map fun l => (s.chanTable (s.hAddr m.h) l).getD []
      let ents := tabs.flatMap fun b => (List.range 32).map fun ch => (b, ch)
      let on := ents.filter fun e => chanEn e.1 e.2
      let sends := fun l => (on.filter fun e => chanKindOf e.1 e.2 == 0 && chanSenderOf e.1 e.2 == l).length
      if on.any (fun e => chanBad e.1 m.nl e.2) || (List.range m.nl).any fun l => decide (64 < sends l) then cmd
      else
        let full := (s.hereOf map).any fun x =>
          let k := x.2
          let y := s.core k
          !s.rb (R.ctxCoreset c s.addr) k || s.rb R.schedCoreOff k
            || decide (4 ≤ (y.progs.filter fun p => decide (p.route < 256)).length)
            || (List.range 32).any (fun ch => chanEn (tabs.getD x.1 []) ch && y.chans.any (·.1 == ch))
            || y.progs.any fun p => p.ctx != c && windowsMeet (s.window c) (s.window p.ctx)
        if full || (!s.isMgr && (s.route (hRoute w)).isSome) then some (⟨.poolQuota, 8⟩, 0) else none

/-! ### The launch steps (R224) -/

/-- Step 2: AS_PRELOAD sections of a logical core go into its window. -/
def Dev.preload (s : Dev) (k : Nat) (p : Prog) : Except CErr Unit × Dev :=
  let (b, n) := s.window p.ctx
  let l := (s.sectsAt p.image).filter fun x => x.typ == 6 && x.lcore == p.lcore
  Dev.loadSects (fun s x bs =>
    if n - 20480 < x.dest + bs.length then .error ⟨.ctxFaultAddr, x.dest⟩ else .ok (s.asStore k (b + x.dest) bs false)) p l s

/-- Step 3: the channel table is loaded, its channels are enabled, and initial credits go to the senders (R212). -/
def Dev.loadChans (s : Dev) (k : Nat) (p : Prog) : Except CErr Unit × Dev :=
  let bs := (s.chanTable p.image p.lcore).getD []
  let lim := (s.window p.ctx).2 - 20480
  let on := (List.range 32).filter (chanEn bs)
  match on.find? fun ch => decide (lim < fldN (chanWord bs ch 0) 0 23 + fldN (chanWord bs ch 1) 10 8 * chanSlot bs ch) with
  | some ch => (.error ⟨.ctxFaultAddr, fldN (chanWord bs ch 0) 0 23⟩, s)
  | none => (.ok (), on.foldl (fun s ch =>
      let s := (s.setReg (R.mbxChCfg0 k ch) (Word.ofNat (chanWord bs ch 0))).setReg (R.mbxChCfg1 k ch)
        (Word.ofNat (chanWord bs ch 1))
      let s := (s.setReg (R.mbxChCfg2 k ch) (Word.ofNat (chanWord bs ch 2))).setReg (R.mbxChStat k ch) 0
      let x := s.core k
      let s := s.setCore k { x with chans := Tab.put ch { route := p.route, ctx := p.ctx } x.chans }
      s.sendCredits k ch p.route (fldN (chanWord bs ch 1) 10 8)) s)

/-- The launch of a route's program on core `k`. Step 1 waits for the core when another context's program holds it: arbitration
then loads the sections. -/
def Dev.launchCore (s : Dev) (k : Nat) (p : Prog) (map : List Nat) : Except CErr Unit × Dev :=
  let x := s.core k
  let s := (s.setCore k { x with progs := x.progs ++ [p] }).claimCredits k p.route map
  let (r1, s) := if x.cur.isNone || x.imemOf == some p.ctx then s.loadCode k p else (.ok (), s)
  match r1 with
  | .error e => (.error e, s)
  | .ok _ =>
    let (r2, s) := s.preload k p
    match r2 with
    | .error e => (.error e, s)
    | .ok _ => s.loadChans k p

/-- Launch on the listed cores until one fails. -/
def Dev.launchCores (s : Dev) (f : Nat → Nat → Prog) (map : List Nat) : List (Nat × Nat) → Except CErr Unit × Dev
  | [] => (.ok (), s)
  | x :: l =>
    let (r, s) := s.launchCore x.2 (f x.1 x.2) map
    match r with
    | .error e => (.error e, s)
    | .ok _ => s.launchCores f map l

/-! ### The coach block (R338) -/

/-- The coach block of 64 bytes. -/
def Coach.ofBytes (b : List Byte) : Coach :=
  { kind := dF b 4 0 2, seats := dF b 4 2 7, nslot := dF b 4 9 2 + 1, src := dF b 4 16 8, seatAddr := dF b 8 0 23
    ppuTpl := dF b 0xC 0 23, inStride := dF b 0x10 0 23, post0 := dF b 0x14 0 23, post1 := dF b 0x18 0 23
    headStride := dF b 0x1C 0 23, outStride := dF b 0x20 0 23, ttLcore := dF b 0x24 0 8, ttAddr := dF b 0x28 0 23
    ttStride := dF b 0x2C 0 23, ttCount := dF b 0x30 0 13, expand := dW b 0x34 }

/-- A coach block field is illegal, for a window whose legal part has `lim` bytes. -/
def Coach.bad (x : Coach) (lim : Nat) : Bool :=
  x.kind == 0 || x.kind == 3 || x.seats == 0 || decide (64 < x.seats) || x.seatAddr % 64 != 0
    || decide (lim < x.seatAddr + 64 + 64 * x.seats) || x.inStride % 64 != 0 || x.headStride % 64 != 0
    || x.outStride % 64 != 0 || decide (lim < x.ppuTpl + 128)
    || (x.post0 != 0 && decide (lim < x.post0 + 128)) || (x.post1 != 0 && decide (lim < x.post1 + 128))
    || (x.kind == 2 && (x.ttAddr % 64 != 0 || x.ttStride % 64 != 0 || x.ttCount == 0 || decide (4096 < x.ttCount)
      || !isFinite x.expand || flt x.expand 0x3F800000))

/-- A template read once at launch, with what follows its first 128 bytes, cut at the end of the legal window. -/
def Dev.template (s : Dev) (k base lim off q : Nat) : List Byte :=
  let n := descLen q (s.asBytes k (base + off) 128)
  s.asBytes k (base + off) (min n (lim - off))

/-- What the coach block says: a free route, an illegal block, or a coach. -/
def Dev.readCoach (s : Dev) (c k : Nat) : Except CErr (Option Coach) :=
  let (b, n) := s.window c
  let lim := n - 20480
  match s.asPoison k b 64 with
  | some o => .error ⟨.dataPoisoned, o⟩
  | none =>
    let blk := s.asBytes k b 64
    if dN blk 0 ≠ 0x48434F43 then .ok none
    else
      let x := Coach.ofBytes blk
      if x.bad lim then .error ⟨.ctxFaultCmd, 3⟩
      else
        let tpl := fun o => if o = 0 then [] else s.template k b lim o 3
        .ok (some { x with ppuT := s.template k b lim x.ppuTpl 1, post0T := tpl x.post0, post1T := tpl x.post1 })

/-- What the route is becomes known on this unit: a free route's programs start; a coach route's wait for a step, and this
unit's part of the launch has ended. -/
def Dev.kindKnown (s : Dev) (r : Nat) (coach : Bool) : Dev :=
  match s.route r with
  | none => s
  | some x =>
    if x.told.isSome then s
    else
      let s := s.setRoute r (some { x with told := some coach })
      if coach then s.partEnd x.ctx x.seq .ok 1 0
      else ((s.hereOf x.map).foldl (fun s e => match s.progOf e.2 r with
        | some p => s.setProg e.2 { p with st := .ready, since := s.ns }
        | none => s) s).pumpAll

/-- The home unit tells the other units what the route is; the manager passes it on. -/
def Dev.tellKind (s : Dev) (r : Nat) (coach : Bool) : Dev :=
  match s.route r with
  | none => s
  | some x =>
    if s.isMgr then ((unitsOf x.map).filter fun u => u != s.addr && u != x.map.headD 0 / 16).foldl
      (fun s u => s.fwSend u (.routeKind r coach)) s
    else s.fwSend 0 (.routeKind r coach)

/-! ### GRAPH_LAUNCH -/

/-- GRAPH_LAUNCH on a unit that it maps cores of: checks, slot, launch steps; the home unit reads the coach block. -/
def Dev.launchHere (s : Dev) (c : Nat) (w : List Word) (banks : List Nat) : Dev :=
  let seq := hSeq w
  let r := hRoute w
  let map := hCores w
  match s.launchBad c w with
  | some (st, d2) => s.partEnd c seq st 0 d2
  | none =>
    let (slot, s) := s.giveSlot c
    match slot, s.model (hModel w) with
    | some _, some m =>
      let here := s.hereOf map
      let s := s.setRoute r (some { ctx := c, model := hModel w, map, banks, seq, running := here.map fun x => s.addr * 16 + x.2 })
      let a := s.hAddr m.h
      let sects := s.sectsAt a
      let f := fun l _ =>
        let e := sects.find? fun x => x.typ == 1 && x.lcore == l
        ({ route := r, ctx := c, lcore := l, bank := banks.getD l 0, st := .ended, off := (e.map (·.off)).getD 0
           len := (e.map (·.len)).getD 0 / 32, image := a, size := m.len } : Prog)
      let (res, s) := s.launchCores f map here
      match res with
      | .error e => s.partEnd c seq ⟨e.nm, 0x20⟩ 0 e.d2
      | .ok _ =>
        if map.headD 0 / 16 ≠ s.addr then s
        else match s.readCoach c (map.headD 0 % 16) with
          | .error e => s.partEnd c seq ⟨e.nm, 8⟩ 0 e.d2
          | .ok co =>
            let s := match s.route r with
              | some x => s.setRoute r (some { x with coach := co })
              | none => s
            (s.tellKind r co.isSome).kindKnown r co.isSome
    | _, _ => s.partEnd c seq ⟨.poolQuota, 8⟩ 0 0

/-- The route bank for a core: the lowest of the four that no route on it has (R333). -/
def Dev.bankFor (s : Dev) (a : Nat) : Option Nat :=
  let used := s.eng.routes.filterMap fun x => x.2.bind fun y =>
    if y.map.contains a then some (y.banks.getD (y.map.findIdx (· == a)) 0) else none
  (List.range 4).find? fun b => !used.contains b

/-- GRAPH_LAUNCH at the manager: the checks that need the whole chain, then its parts. -/
def Dev.launchMgr (s : Dev) (c : Nat) (w : List Word) : Dev :=
  let seq := hSeq w
  let r := hRoute w
  let map := hCores w
  let us := unitsOf map
  let fail := fun (s : Dev) nm d2 => s.endCmd c seq ⟨nm, 8⟩ 0 d2
  match us.find? fun u => !s.unitIn u, s.model (hModel w) with
  | some u, _ => fail s .unitLost u
  | _, none => fail s .ctxFaultCmd 3
  | none, some m =>
    if m.ctx ≠ c ∨ m.gone = true ∨ m.nl ≠ map.length ∨ us.any (fun u => !bitN m.mask u) = true then fail s .ctxFaultCmd 3
    else
      let here := us.contains s.addr
      let bad := if here then s.launchBad c w else none
      match bad with
      | some (st, d2) => s.endCmd c seq st 0 d2
      | none =>
        let banks := map.map s.bankFor
        if (s.route r).isSome || banks.any Option.isNone || us.any (fun u => !(hCores w).all fun a =>
            a / 16 != u || s.rb (R.ctxCoreset c u) (a % 16)) then fail s .poolQuota 0
        else
          let banks := banks.map (·.getD 0)
          let s := (s.awaitUnits c seq us).setRoute r (some { ctx := c, model := hModel w, map, banks, seq })
          let s := if here then s.launchHere c w banks else s
          if (s.ctx c).run.any (·.seq == seq) then s.sendParts c w us (banks.map fun b => BitVec.ofNat 8 b) else s

/-- GRAPH_LAUNCH. A worker gets the route banks with its part. -/
def Dev.graphLaunch (c : Nat) (w : List Word) (s : Dev) : Dev :=
  if s.isMgr then s.launchMgr c w else s.launchHere c w (((s.ctx c).opData.getD []).map (·.toNat))

def execGraphLaunch (c : Nat) (s : State) : Host.Outcome State Fault Refusal :=
  .next { s with toDev := s.toDev.hostCmd c 3 (Dev.graphLaunch c) }

/-! ### GRAPH_STOP (R339) -/

/-- GRAPH_STOP: a route that is not active is stopped already; another context's is refused (DEDUCED, notes/assumptions/14). -/
def Dev.graphStop (c : Nat) (w : List Word) (s : Dev) : Dev :=
  let seq := hSeq w
  let r := hRoute w
  match s.route r with
  | none => s.endCmd c seq .ok 0 0
  | some x =>
    if x.ctx ≠ c then s.endCmd c seq ⟨.poolQuota, 8⟩ 0 0
    else if !s.isMgr then s.stopRoute r
    else
      let us := unitsOf x.map
      let s := (s.awaitUnits c seq us).sendParts c w us []
      (if us.contains s.addr then s.stopRoute r else s.setRoute r (some { x with stopping := true })).unloadAll

def execGraphStop (c : Nat) (s : State) : Host.Outcome State Fault Refusal :=
  .next { s with toDev := s.toDev.hostCmd c 4 (Dev.graphStop c) }

/-! ### The end of a program (R223, R338, R343) -/

/-- The running program of core `k` has ended: a free route leaves the core; a coach route's core waits for the next step. -/
def Dev.progEnd (s : Dev) (k : Nat) : Dev :=
  match s.prog k with
  | none => s
  | some p => match s.route p.route with
    | none => s
    | some x =>
      let a := s.addr * 16 + k
      if x.told = some true then
        let s := s.setProg k { p with st := .ended, ending := false }
        let s := s.setCore k { s.core k with cur := none }
        if x.coach.isSome then
          let steps := match x.steps with
            | t :: l => { t with running := t.running.erase a } :: l
            | [] => []
          s.setRoute p.route (some { x with steps })
        else s.fwSend (x.map.headD 0 / 16) (.coreEnd p.route a)
      else
        let s := s.leaveCore k p.route p.ctx
        let run := x.running.erase a
        let s := s.setRoute p.route (some { x with running := run })
        if run = [] then (s.routeGone p.route).unloadAll else s

/-- END: issue stops; the program ends when every slot has freed. -/
def Dev.endOp (k : Nat) (p : Prog) (_w : List Word) (s : Dev) : Dev :=
  let s := s.setProg k { p with ending := true }
  if p.ops = [] then s.progEnd k else s

def execEnd_ (core : Nat) (s : State) : Host.Outcome State Fault Refusal :=
  .next { s with toDev := s.toDev.seqCmd core 0x3F (Dev.endOp core) }

/-- CCMD_COMPLETE: a command that is done and whose writes and messages are acknowledged frees its slot (R199). -/
def Dev.ccmdComplete (k id : Nat) (p : Prog) (s : Dev) : Dev :=
  match p.ops.find? (·.id == id) with
  | none => s
  | some o =>
    if !o.done ∨ o.flight ≠ 0 then s
    else
      let ops := p.ops.filter (·.id != id)
      let s := s.setProg k { p with ops }
      if p.ending ∧ ops = [] then s.progEnd k else s

def execCcmdComplete (core id : Nat) (s : State) : Host.Outcome State Fault Refusal :=
  .next { s with toDev := s.toDev.onCore core (Dev.ccmdComplete core id) }

/-! ### Timeouts (R216, R240) -/

/-- The command that waits for credit as `sub` says: 0 an ordinary SEND, 1 a halo SEND, 2 an epilogue's SEND stage, 3 and 4 a
VSEND of bank 0 or 1. -/
def Dev.creditWaiter (s : Dev) (k sub : Nat) (p : Prog) : Option Op :=
  match sub with
  | 0 | 1 => (p.ops.find? fun o => o.q == 3 && !o.done && cXf o.w 0 1 == sub).filter fun o =>
      (s.opCheck p o).isNone && s.sendTo k p.route (cf o.w 3 0 8) (cf o.w 3 8 5) (cf o.w 2 0 17) (cTag o.w) (sub == 1) == .wait
  | 2 => p.ops.find? fun o => o.begun && !o.done && (cOp o.w == 1 || cOp o.w == 2 || cOp o.w == 3) && epiKind o.w == 1
      && decide (o.pass < opPasses o) && !s.epiReady k p o (passOf o o.pass) (accType (opAcc o))
  | 3 => if p.bank0.on && p.bank0.wait then p.front 1 4 else none
  | 4 => if p.bank1.on && p.bank1.wait then (s.core k).epi.bind fun e => p.ops.find? (·.id == e.op) else none
  | _ => none

/-- A send has waited for credit for MBX_CREDIT_TMO, when that is not 0: the command fails; `sub` 5: an engine's NOTIFY, whose
context faults. -/
def Dev.creditTimeout (s : Dev) (k sub : Nat) : Dev :=
  let t := s.rn (R.mbxCreditTmo k)
  if 16 ≤ k ∨ t = 0 then s
  else if sub = 5 then match s.eng.notices.find? (·.core == k) with
    | none => s
    | some x =>
      let s : Dev := { s with eng := { s.eng with notices := s.eng.notices.erase x } }
      ((s.irq (corePage k 4) 16).capture (corePage k 4) (Status.mk .creditTimeout 0x24).code x.ctx 0 t).ctxFault x.ctx
        ⟨.creditTimeout, 0x24⟩ 0 t k
  else s.onCore k fun p s => match s.creditWaiter k sub p with
    | none => s
    | some o => (s.irq (corePage k 4) 16).opFail k 0x24 o ⟨.creditTimeout, t⟩

def execCreditTimeout (core sub : Nat) (s : State) : Host.Outcome State Fault Refusal :=
  .next { s with toDev := s.toDev.creditTimeout core sub }

/-- MXU_PREEMPT_TIMEOUT: under a preemption request, a pass that has not reached its front for MXU_PREEMPT_TMO, when that is not
0, is cut with nothing delivered; on resume it runs again from its first operand (R240). -/
def Dev.preemptCut (k : Nat) (p : Prog) (s : Dev) : Dev :=
  let cut := p.ops.any fun o => o.q == 0 && o.begun && !o.done
  if p.halt ∧ s.rn (R.mxuPreemptTmo k) ≠ 0 ∧ cut = true then (s.irq (corePage k 1) 18).perf (corePage k 1) 5 1 else s

def execMxuPreemptTimeout (core : Nat) (s : State) : Host.Outcome State Fault Refusal :=
  .next { s with toDev := s.toDev.onCore core (Dev.preemptCut core) }

/-! ### Preemption (R335-R337) -/

/-- Run `f` on the running program of core `k`, a route's or the SLV's. -/
def Dev.onAny (s : Dev) (k : Nat) (f : Prog → Dev → Dev) : Dev :=
  if 16 ≤ k then s
  else match s.prog k with
    | none => s
    | some p => if p.st = .run ∧ s.blkRuns (corePage k 0) = true then (f p s).pumpAll else s

/-- PREEMPT: a runnable program of strictly higher priority than the running one exists; the running one is asked to stop. -/
def Dev.preempt (k : Nat) (p : Prog) (s : Dev) : Dev :=
  match s.bestOn k with
  | none => s
  | some q =>
    if p.halt ∨ p.ending ∨ s.schedDown = true ∨ s.prioOf q ≤ s.prioOf p then s
    else (s.setProg k { p with halt := true, since := s.ns }).perf 0x7000 2 1

def execPreempt (core : Nat) (s : State) : Host.Outcome State Fault Refusal :=
  .next { s with toDev := s.toDev.onAny core (Dev.preempt core) }

/-- Stream a recorded WSTREAM into its half again, without multicast (R337 step 3). -/
def Dev.restream (s : Dev) (k : Nat) (p : Prog) (w : Option (List Word)) : Except CErr Unit × Dev :=
  match w with
  | none => (.ok (), s)
  | some w =>
    let (r, s) := s.wsRead p w
    match r with
    | .error e => (.error e, s)
    | .ok bs =>
      let x := s.core k
      (.ok (), s.setCore k { x with ws := storeBytes x.ws (wsHalf w * 2 ^ 20 + cf w 4 0 20) bs })

/-- RESUME: an idle core takes up the preempted program that is to run on it (R337). -/
def Dev.resume (s : Dev) (k : Nat) : Dev :=
  if 16 ≤ k ∨ (s.core k).cur.isSome = true ∨ s.rb R.schedCoreOff k = true ∨ s.schedDown = true then s
  else match s.bestOn k with
    | none => s
    | some p =>
      if p.st ≠ .parked then s
      else
        let (r, s) := (s.takeCore k p).reload k p
        match r with
        | .error e => s.coreFault k 0x20 e
        | .ok _ =>
          let (r, s) := s.restream k p p.wsA
          match r with
          | .error e => s.coreFault k 0x25 e
          | .ok _ =>
            let (r, s) := s.restream k p p.wsB
            match r with
            | .error e => s.coreFault k 0x25 e
            | .ok _ => s.pumpAll

def execResume (core : Nat) (s : State) : Host.Outcome State Fault Refusal :=
  .next { s with toDev := s.toDev.resume core }

/-! ### Cores out of service (R348) -/

/-- A write of SCHED_CORE_OFF: cores that a route maps or a BUNDLE holds are refused; a core that returns has its AS zeroised
unless it was retained (R204). -/
def Dev.coreOffWrite (s : Dev) (src : Src) (v : Word) : Dev :=
  let (ok, s) := s.regWrOk src 0x7000 0x100
  if !ok then s
  else (List.range 16).foldl (fun s k =>
    let old := s.rb R.schedCoreOff k
    if v.bit k && !old then
      if (s.core k).progs = [] then s.setRb R.schedCoreOff k true
      else (s.setRb R.schedCoreRefused k true).irq 0x7000 0
    else if !v.bit k && old then
      let s := s.setRb R.schedCoreOff k false
      if s.rb (R.pwrIslCtl (islOf (corePage k 0))) 1 then s else s.asZero k 0 (2 ^ 23)
    else s) s

def execSchedCoreOff (src : Src) (v : Word) (s : State) : Host.Outcome State Fault Refusal :=
  .next { s with toDev := (s.toDev.busPosted src).coreOffWrite src v }

end Sys2Proof.Machine
end

