-- ==== Sys2Proof/Machine/Coach.lean ====
section
/-! DEFINITION. The coach: boarding, seats, steps (R289, R340-R343). -/

namespace Sys2Proof.Machine

/-! ### Templates and tables -/

/-- A descriptor with the word at offset `o` replaced. -/
def putW (d : List Byte) (o v : Nat) : List Byte := d.take o ++ bytesOf 4 v ++ d.drop (o + 4)

/-- A descriptor with `n` added to the word at offset `o`. -/
def addW (d : List Byte) (o n : Nat) : List Byte := putW d o (dN d o + n)

/-- The PPU job of a seat, from the template (R343 step 2). -/
def Coach.ppuJob (x : Coach) (c : Nat) (e : Seat) : List Byte :=
  let d := x.ppuT
  let d := putW d 0 (dN d 0 / 256 * 256 + c)
  let d := putW d 0 ((dW d 0).setBit 29 false).toNat
  let d := putW (putW d 4 e.pic) 8 (e.w % 65536 + e.hgt % 65536 * 65536)
  let d := match e.crop with
    | some q => putW (putW d 0xC (q.x % 65536 + q.y % 65536 * 65536)) 0x10 (q.w % 65536 + q.h % 65536 * 65536)
    | none => d
  let d := putW d 0x24 ((dW d 0x24).setBit 15 false).toNat
  (List.range (ppuN d)).foldl (fun d i => addW d (0x84 + 16 * i) (e.q % x.nslot * x.inStride)) d

/-- A POST job of a seat, from its template (R343 step 5). -/
def Coach.postJob (x : Coach) (t : List Byte) (c r model nrec : Nat) (e : Seat) : List Byte :=
  let slot := e.q % x.nslot
  let d := putW t 0 (dN t 0 / 256 * 256 + c)
  let d := putW d 0x34 (e.stream % 4096 + e.flags % 8 * 4096 + e.camera % 65536 * 65536)
  let d := putW (putW d 0x38 e.cts) 0x3C (e.cts / 2 ^ 32)
  let d := putW (putW d 0x40 e.picN) 0x44 (model % 65536 + r % 256 * 65536)
  let d := addW (addW d 0x30 (slot * x.outStride)) 0x4C (slot * x.headStride)
  let d := (List.range (dppLevels d)).foldl (fun d l => addW d (0x84 + 32 * l) (slot * x.headStride)) d
  if dF d 0 8 1 = 1 then putW d 0x50 nrec else d

/-- A seat's entry of the seat table. -/
def Coach.entry (x : Coach) (e : Seat) : List Byte :=
  bytesOf 4 (e.stream % 4096 + e.flags % 8 * 4096 + e.camera % 65536 * 65536) ++ bytesOf 4 e.pic ++ bytesOf 8 e.cts
    ++ bytesOf 4 e.picN ++ bytesOf 4 (e.q % x.nslot) ++ bytesOf 4 e.track ++ bytesOf 4 e.glob
    ++ bytesOfWords ((e.box ++ [0, 0, 0, 0]).take 4) ++ List.replicate 16 0

/-- The seat table of a step: header and entries. -/
def Coach.table (x : Coach) (t : Step) : List Byte :=
  bytesOf 4 t.n ++ bytesOf 4 t.seats.length ++ bytesOf 4 ((t.seats.head?.map (·.q)).getD 0) ++ List.replicate 52 0
    ++ t.seats.flatMap x.entry

/-- Offset of byte `o` of a seat's entry from the seat table. -/
def seatAt (i o : Nat) : Nat := 64 + 64 * i + o

/-! ### Boarding (R340, R341) -/

/-- Cut a list into at most `k` lists of at most `n`, and what is left. -/
def chunks {α : Type} (n : Nat) : Nat → List α → List (List α) × List α
  | 0, l => ([], l)
  | k + 1, l => if l.isEmpty then ([], []) else let (c, r) := chunks n k (l.drop n); (l.take n :: c, r)

/-- Number the seats of a list from `q`. -/
def numberSeats (q : Nat) (l : List Seat) : List Seat := l.zipIdx.map fun e => { e.1 with q := q + e.2 }

/-- Board sequences: as many steps as there is room for; how many sequences were left. -/
def Dev.board (s : Dev) (r : Nat) (l : List Seat) : Nat × Dev :=
  match s.route r with
  | none => (0, s)
  | some x => match x.coach with
    | none => (0, s)
    | some co =>
      let (cs, rest) := chunks co.seats (2 - x.steps.length) (numberSeats x.q l)
      let n := (cs.map (·.length)).sum
      let steps := cs.zipIdx.map fun e => ({ n := x.stepN + e.2, seats := e.1, running := x.map } : Step)
      (rest.length, s.setRoute r (some { x with steps := x.steps ++ steps, q := x.q + n, stepN := x.stepN + cs.length }))

/-- The order of seating pictures: CTS, then stream. -/
def boardLe (a b : Waiting) : Bool :=
  decide (a.pic.cts < b.pic.cts) || (a.pic.cts == b.pic.cts && decide (a.pic.stream ≤ b.pic.stream))

/-- A picture's seat. -/
def Waiting.seat (w : Waiting) : Seat :=
  { q := 0, stream := w.pic.stream, camera := w.camera, pic := w.pic.h, twin := w.pic.twin, cts := w.pic.cts, picN := w.pic.n
    w := w.pic.w, hgt := w.pic.hgt, flags := bN w.pic.recov + bN (w.pic.conc != 0) * 2 + bN w.pic.est * 4 }

/-- Boarding of a PICTURE route closes: deferred while two steps exist. -/
def Dev.pictureClose (s : Dev) (r : Nat) : Dev :=
  match s.route r with
  | none => s
  | some x =>
    if x.stopping ∨ (x.coach.map (·.kind)) ≠ some 1 then s
    else if 2 ≤ x.steps.length then s.setRoute r (some { x with deferred := true })
    else
      let l := x.waiting.mergeSort boardLe
      let (n, s) := (s.setRoute r (some { x with deferred := false })).board r (l.map Waiting.seat)
      match s.route r with
      | some x => s.setRoute r (some { x with waiting := l.drop (l.length - n) })
      | none => s

/-! ### Track tables (R289, R342) -/

/-- A crop of R342 on one axis: centre, extent, EXPAND, the source route's template's origin, the picture's size. -/
def reidAxis (c w expand : Word) (tpl dim : Nat) : Nat × Nat :=
  let half := fun (v : Word) => (fdec v).mul (.fin false 1 (-1))
  let size := -2 * (half (fmul w expand)).negate.floor
  let org := 2 * (half (fsub c (fmul (fenc (Fp.ofInt size)) 0x3F000000))).floor + tpl
  let n := min size.toNat dim
  ((min (max org 0) (dim - n : Nat)).toNat, n)

/-- The crop of a track on a source seat's picture; a box that is not finite gives a free crop. -/
def Dev.reidCrop (s : Dev) (x : Coach) (e : Seat) (box : List Word) : Rect × Dev :=
  let g := fun i => box.getD i 0
  let tpl := (((s.route x.src).bind (·.coach)).map (·.ppuT)).getD []
  if box.all isFinite && isFinite (fmul (g 2) x.expand) && isFinite (fmul (g 3) x.expand) then
    let (sx, sw) := reidAxis (g 0) (g 2) x.expand (dF tpl 0xC 0 16) e.w
    let (sy, sh) := reidAxis (g 1) (g 3) x.expand (dF tpl 0xC 16 16) e.hgt
    ({ x := sx, y := sy, w := sw, h := sh }, s)
  else
    let (a, s) := s.draw 67
    let (b, s) := s.draw 67
    let (c, s) := s.draw 67
    let (d, s) := s.draw 67
    ({ x := a % 65536, y := b % 65536, w := c % 65536, h := d % 65536 }, s)

/-- The track table of a stream among the tables of a REID route: its AS offset on core `k`. -/
def Dev.trackTable (s : Dev) (x : Coach) (k base stream : Nat) : Option Nat :=
  ((List.range x.ttCount).map fun i => base + x.ttAddr + i * x.ttStride).find? fun a =>
    let b := s.asBytes k a 8
    dN b 0 == 0x4B435254 && dF b 4 0 12 == stream

/-- The entries of a table due for re-identification at shop time `t`, in index order: bytes 0x00-0x3F of each. -/
def Dev.dueEntries (s : Dev) (k a t : Nat) : List (List Byte) :=
  ((List.range (dF (s.asBytes k a 8) 4 16 16)).map fun i => s.asBytes k (a + 64 + 128 * i) 64).filter fun b =>
    dF b 4 0 8 == 2 && dQ b 0x18 != 0 && decide (dQ b 0x18 ≤ t)

/-- The REID seat of a due entry on its source seat. -/
def Dev.reidSeat (s : Dev) (x : Coach) (e : Seat) (b : List Byte) : Seat × Dev :=
  let box := [dW b 0x30, dW b 0x34, dW b 0x38, dW b 0x3C]
  let (crop, s) := s.reidCrop x e box
  ({ e with q := 0, track := dN b 0, glob := dN b 0xC, box, crop := some crop, ppu := 0, fail := false, finished := false,
            posts := [], postsOut := 0, twin := 0, released := false }, s)

/-- A due entry is seated only when its REID_AT is later than the one last seated for its TRACK_ID on the route. -/
def isNew (seen : List (Nat × Nat)) (b : List Byte) : Bool :=
  seen.all fun x => x.1 != dN b 0 || decide (x.2 < dQ b 0x18)

/-- The due entries of a source step for a REID route, in seat order then entry order. -/
def Dev.dueOf (s : Dev) (x : Route) (co : Coach) (t : Step) : List (Seat × List Byte) :=
  match s.route co.src with
  | none => []
  | some y => match y.map[co.ttLcore]? with
    | none => []
    | some a =>
      if a / 16 ≠ s.addr then []
      else t.seats.flatMap fun e => match s.trackTable co (a % 16) (s.window y.ctx).1 e.stream with
        | none => []
        | some o => ((s.dueEntries (a % 16) o s.ns).filter (isNew x.seen)).map fun b => (e, b)

/-- Keep each TRACK_ID once. -/
def oncePerTrack : List (Seat × List Byte) → List Nat → List (Seat × List Byte)
  | [], _ => []
  | e :: l, ids => if ids.contains (dN e.2 0) then oncePerTrack l ids else e :: oncePerTrack l (dN e.2 0 :: ids)

/-- Make the REID seats of due entries; each adds its own reference to the picture. -/
def Dev.reidSeats (s : Dev) (c : Nat) (co : Coach) : List (Seat × List Byte) → List Seat × Dev
  | [] => ([], s)
  | e :: l =>
    let (_, s) := s.ref schedRq c e.1.pic
    let (a, s) := s.reidSeat co e.1 e.2
    let (r, s) := s.reidSeats c co l
    (a :: r, s)

/-- The step `n` of a route, running, boarded or held. -/
def Route.stepAt (y : Route) (n : Nat) : Option Step := (y.steps ++ y.held).find? (·.n == n)

/-- Boarding of a REID route closes for step `n` of its source route; with two steps it is deferred. -/
def Dev.reidClose (s : Dev) (r n : Nat) : Dev :=
  match s.route r with
  | none => s
  | some x => match x.coach with
    | none => s
    | some co =>
      if x.stopping then s
      else if 2 ≤ x.steps.length then s.setRoute r (some { x with closes := x.closes ++ [n] })
      else match (s.route co.src).bind (·.stepAt n) with
        | none => s
        | some t =>
          let due := oncePerTrack (s.dueOf x co t) []
          let fit := due.take (co.seats * (2 - x.steps.length))
          let (seats, s) := s.reidSeats x.ctx co fit
          let x := { x with skipped := satAdd 0xFFFFFFFF x.skipped (due.length - fit.length)
                            seen := ((fit.map fun e => (dN e.2 0, dQ e.2 0x18)).reverse
                              ++ x.seen.filter fun p => fit.all fun e => dN e.2 0 != p.1).take 4096 }
          ((s.setRoute r (some x)).board r seats).2

/-- The REID routes on this unit that take their sequences from route `r`. -/
def Dev.listeners (s : Dev) (r : Nat) : List Nat :=
  (s.eng.routes.filter fun x => match x.2.bind (·.coach) with
    | some co => co.kind == 2 && co.src == r && !((x.2.map (·.stopping)).getD true)
    | none => false).map (·.1)

/-- A seat releases its picture. -/
def Dev.releaseSeat (s : Dev) (c : Nat) (e : Seat) : Dev := s.dropSeat c e

/-- Held steps for whose REID closes nobody waits any more release their seats. -/
def Dev.freeHeld (s : Dev) (r : Nat) : Dev :=
  match s.route r with
  | none => s
  | some y =>
    let waits := fun n => (s.listeners r).any fun q => ((s.route q).map (·.closes)).getD [] |>.contains n
    let go := y.held.filter fun t => !waits t.n
    let s := go.foldl (fun s t => t.seats.foldl (fun s e => s.releaseSeat y.ctx e) s) s
    s.setRoute r (some { y with held := y.held.filter fun t => waits t.n })

/-! ### What a step does by itself (R343 steps 2-5) -/

/-- Change the seat `q` of a route. -/
def Dev.updSeat (s : Dev) (r q : Nat) (f : Seat → Seat) : Dev :=
  match s.route r with
  | none => s
  | some x => s.setRoute r (some { x with steps := x.steps.map fun t =>
      { t with seats := t.seats.map fun e => if e.q = q then f e else e } })

/-- The seats of a route's steps, in order. -/
def Route.seats (x : Route) : List Seat := x.steps.flatMap (·.seats)

/-- A seat of a route that has finished, or whose step has ended. -/
def Route.slotFree (x : Route) (co : Coach) (q : Nat) : Bool :=
  decide (q < co.nslot) || x.seats.all fun e => e.q != q - co.nslot || e.finished

/-- Counter 14 of logical core 0 finishes the oldest unfinished seats of the running step. -/
def Dev.seatsFinish (s : Dev) (r fuel : Nat) : Dev :=
  match fuel with
  | 0 => s
  | fuel + 1 => match s.route r with
    | none => s
    | some x => match s.localCore (x.map.headD 0), x.steps with
      | some k, t :: _ => match s.progOf k r, t.seats.find? fun e => !e.finished with
        | some p, some e =>
          let n := s.sig k p.bank 14
          if t.started ∧ 0 < n then
            ((s.setSig k p.bank 14 (n - 1)).updSeat r e.q fun e => { e with finished := true, posts := [0, 1] }).seatsFinish r fuel
          else s
        | _, _ => s
      | _, _ => s

/-- The POST jobs of a finished seat are pushed, POST0 first. -/
def Dev.pushPosts (s : Dev) (r : Nat) (x : Route) (co : Coach) (i : Nat) (e : Seat) : Dev :=
  if e.posts = [] then s
  else
    let s := s.updSeat r e.q fun e => { e with posts := [] }
    if e.fail then s
    else
      let k := x.map.headD 0 % 16
      let nrec := natOf (s.asBytes k ((s.window x.ctx).1 + co.seatAddr + seatAt i 0x30) 4)
      [(1, co.post0T), (2, co.post1T)].foldl (fun s t =>
        if t.2 = [] ∨ (dF t.2 0 8 1 = 1 ∧ nrec = 0) then s
        else
          let s := s.updSeat r e.q fun e => { e with postsOut := e.postsOut + 1 }
          (s.jobPush 3 { by_ := .seat r e.q t.1, addr := none, desc := co.postJob t.2 x.ctx r x.model nrec e, ctx := x.ctx }).2) s

/-- PPU jobs of seats in *q* order, while slots are free; the PPU with fewer queued jobs takes each. -/
def Dev.pushPpus (s : Dev) (r : Nat) (x : Route) (co : Coach) : List Seat → Dev
  | [] => s
  | e :: l =>
    if e.ppu ≠ 0 then s.pushPpus r x co l
    else if !x.slotFree co e.q then s
    else
      let q := if (s.jq 2).jobs.length < (s.jq 1).jobs.length then 2 else 1
      let s := s.updSeat r e.q fun e => { e with ppu := 1 }
      ((s.jobPush q { by_ := .seat r e.q 0, addr := none, desc := co.ppuJob x.ctx e, ctx := x.ctx }).2).pushPpus r x co l

/-- INTAKE_FAIL is set in a seat's entry on every core of the route. -/
def Dev.markIntake (s : Dev) (x : Route) (addr i : Nat) : Dev :=
  let o := (s.window x.ctx).1 + addr + seatAt i 0x14
  (s.hereOf x.map).foldl (fun s e =>
    s.asPutBytes e.2 o (bytesOf 1 ((Word.ofNat (s.asByte e.2 o).toNat).setBit 2 true).toNat)) s

/-- Counter 13 of every core of the route grows for each completed PPU job of the running step, in *q* order. -/
def Dev.signalSeats (s : Dev) (r : Nat) (x : Route) (co : Coach) : List (Seat × Nat) → Dev
  | [] => s
  | (e, i) :: l =>
    if e.ppu = 3 then s.signalSeats r x co l
    else if e.ppu ≠ 2 then s
    else
      let s :=
        if e.fail then
          ((unitsOf x.map).filter (· != s.addr)).foldl (fun s u => s.fwSend u (.intakeFail r co.seatAddr i))
            (s.markIntake x co.seatAddr i)
        else s
      let s := s.updSeat r e.q fun e => { e with ppu := 3 }
      (x.map.foldl (fun s a => s.signalTo r a 13 1 16 0) s).signalSeats r x co l

/-- What a coach route can do at once. -/
def Dev.coachPump (s : Dev) (r : Nat) : Dev :=
  let s := s.seatsFinish r 64
  match s.route r with
  | none => s
  | some x => match x.coach with
    | none => s
    | some co =>
      let s := match x.steps with
        | t :: _ => t.seats.zipIdx.foldl (fun (s : Dev) (e : Seat × Nat) => s.pushPosts r x co e.2 e.1) s
        | [] => s
      let s := s.pushPpus r x co x.seats
      match x.steps with
      | t :: _ => if t.started then (s.signalSeats r x co t.seats.zipIdx).pumpAll else s
      | [] => s

/-- Every coach route of this unit does what it can. -/
def Dev.coachAll (s : Dev) : Dev := s.eng.routes.foldl (fun s x => s.coachPump x.1) s

/-! ### Steps -/

/-- A step starts on the cores of this unit: the seat table is written and the programs start at command 0. -/
def Dev.stepHere (s : Dev) (r addr : Nat) (table : List Byte) : Dev :=
  match s.route r with
  | none => s
  | some x =>
    let base := (s.window x.ctx).1
    (s.hereOf x.map).foldl (fun s e =>
      let s := s.asStore e.2 (base + addr) table false
      match s.progOf e.2 r with
      | some p => s.setProg e.2 { p with st := .ready, since := s.ns, pc := 0, loops := [], lcs := [], wait := none }
      | none => s) s

/-- STEP_START: no step of the route runs, and one is boarded (R343 step 1). -/
def Dev.stepStart (s : Dev) (r : Nat) : Dev :=
  match s.route r with
  | none => s
  | some x => match x.coach, x.steps with
    | some co, t :: l =>
      if t.started ∨ s.schedDown = true then s
      else
        let tab := co.table t
        let s := s.setRoute r (some { x with steps := { t with started := true } :: l })
        let us := (unitsOf x.map).filter (· != s.addr)
        let s := us.foldl (fun s u => s.fwSend u (.stepStart r co.seatAddr tab)) s
        ((s.stepHere r co.seatAddr tab).coachPump r).pumpAll
    | _, _ => s

def execStepStart (r : Nat) (s : State) : Host.Outcome State Fault Refusal :=
  .next { s with toDev := s.toDev.stepStart r }

/-- The jobs of a seat have completed. -/
def Seat.done (e : Seat) : Bool := decide (2 ≤ e.ppu) && e.finished && e.posts.isEmpty && e.postsOut == 0

/-- SEAT_RELEASE: a seat whose jobs have completed releases its picture, unless a REID close is to come (R342, R343 step 6). -/
def Dev.seatRelease (s : Dev) (r q : Nat) : Dev :=
  match s.route r with
  | none => s
  | some x => match x.seats.find? (·.q == q) with
    | none => s
    | some e =>
      if !e.done ∨ e.released = true ∨ s.listeners r ≠ [] then s
      else (s.releaseSeat x.ctx e).updSeat r q fun e => { e with released := true }

def execSeatRelease (r q : Nat) (s : State) : Host.Outcome State Fault Refusal :=
  .next { s with toDev := s.toDev.seatRelease r q }

/-- What follows the end of a step: waiting pictures or a deferred close board, deferred REID closes run, a stopping route
ends. -/
def Dev.afterStep (s : Dev) (r : Nat) : Dev :=
  match s.route r with
  | none => s
  | some x =>
    if x.stopping then (if x.steps = [] then (s.coachFinish r).unloadAll else s)
    else match x.coach with
      | none => s
      | some co =>
        if co.kind = 1 then (if x.waiting ≠ [] ∨ x.deferred = true then s.pictureClose r else s)
        else match x.closes with
          | [] => s
          | n :: l => ((s.setRoute r (some { x with closes := l })).reidClose r n).freeHeld co.src

/-- STEP_END: every core has reached END and every seat's jobs have completed; REID routes that follow close, the seats release,
and the step ends. -/
def Dev.stepEnd (s : Dev) (r : Nat) : Dev :=
  match s.route r with
  | none => s
  | some x => match x.steps with
    | [] => s
    | t :: l =>
      let ls := s.listeners r
      if !t.started ∨ t.running ≠ [] ∨ (t.seats.all fun e => e.done && (e.released || !ls.isEmpty)) = false then s
      else
        let x := { x with steps := l, ended := (x.ended + 1) % 2 ^ 32, held := x.held ++ [t] }
        let s := ((s.setRoute r (some x)).perf 0x7000 0 1).perf 0x7000 1 t.seats.length
        let s := (ls.foldl (fun s q => s.reidClose q t.n) s).freeHeld r
        ((ls.foldl (fun s q => s.coachPump q) s).afterStep r).coachPump r

def execStepEnd (r : Nat) (s : State) : Host.Outcome State Fault Refusal :=
  .next { s with toDev := s.toDev.stepEnd r }

/-- SIGNAL (R219); a seat that logical core 0 reports finished lets the coach go on (R343 step 4). -/
def execSignal (core : Nat) (s : State) : Host.Outcome State Fault Refusal :=
  .next { s with toDev := (s.toDev.seqCmd core 0x12 (Dev.signalCmd core)).coachAll }

end Sys2Proof.Machine
end

