-- ==== Sys2Proof/Machine/Pixel.lean ====
section
/-! DEFINITION. The JPEG decoder and the pixel pipelines: their checks, what they write, and the end of their jobs (R177-R195).
The entropy decoding and inverse transform of ISO/IEC 10918-1 are no part of the model: their samples are free values. -/

namespace Sys2Proof.Machine

/-! ### JPEG headers (R179, R180) -/

/-- What the marker segments up to the SOF say: nothing parsable, or the SOF's type and segment. -/
inductive JpegScan where
  | bad
  | sof (code : Nat) (seg : List Byte)
  deriving DecidableEq, Repr

/-- A big-endian number of two bytes at `o`. -/
def be16 (b : List Byte) (o : Nat) : Nat := (b.getD o 0).toNat * 256 + (b.getD (o + 1) 0).toNat

/-- Walk marker segments to the first SOF or DHP. `l` starts where a marker must stand. -/
def jpegScan (fuel : Nat) (l : List Byte) : JpegScan :=
  match fuel with
  | 0 => .bad
  | fuel + 1 => match l with
    | a :: b :: r =>
      let m := b.toNat
      if a.toNat ≠ 0xFF then .bad
      else if m = 0xFF then jpegScan fuel (b :: r)
      else if m = 0xD8 ∨ m = 0x01 then jpegScan fuel r
      else if m < 0xC0 ∨ m = 0xC8 ∨ (0xD0 ≤ m ∧ m ≤ 0xD7) ∨ m = 0xD9 ∨ m = 0xDA then .bad
      else
        let n := be16 r 0
        if n < 2 ∨ r.length < n then .bad
        else if m = 0xDE ∨ (0xC0 ≤ m ∧ m ≤ 0xCF ∧ m ≠ 0xC4 ∧ m ≠ 0xCC) then .sof m (r.take n)
        else jpegScan fuel (r.drop n)
    | _ => .bad

/-- Blocks-padded samples of a component with factors (h, v) in an image of maximal factors (hm, vm). -/
def compSamples (w h hi vi hm vm : Nat) : Nat := roundUp ((w * hi + hm - 1) / hm) 8 * roundUp ((h * vi + vm - 1) / vm) 8

/-- The outcome of the checks of R180: a failure with its BITSTREAM_ERROR kind, DIM_LIMIT, or the head and total samples. -/
inductive JpegCheck where
  | err (kind : Nat)
  | dim (w h : Nat)
  | ok (x : JpegHead) (samples : Nat)
  deriving DecidableEq, Repr

/-- The checks of R180 up to the sample count. -/
def jpegCheck (bs : List Byte) : JpegCheck :=
  match bs with
  | a :: b :: _ =>
    if a.toNat ≠ 0xFF ∨ b.toNat ≠ 0xD8 then .err 5
    else match jpegScan bs.length bs with
      | .bad => .err 5
      | .sof m g =>
        let n := (g.getD 7 0).toNat
        let w := be16 g 5
        let h := be16 g 3
        let hv := fun i => (g.getD (9 + 3 * i) 0).toNat
        if m ≠ 0xC0 ∧ m ≠ 0xC1 ∧ m ≠ 0xC2 then .err 3
        else if g.length < 8 ∨ g.length ≠ 8 + 3 * n then .err 5
        else if (g.getD 2 0).toNat ≠ 8 ∨ w = 0 ∨ h = 0 ∨ 16384 < w ∨ 16384 < h ∨ (n ≠ 1 ∧ n ≠ 3) then .dim w h
        else if n = 1 then
          if hv 0 ≠ 0x11 then .dim w h
          else
            let t := compSamples w h 1 1 1 1
            if 2 ^ 28 < t then .dim w h else .ok { sof := m, w, h, chroma := 3 } t
        else
          let f := hv 0
          if (f ≠ 0x11 ∧ f ≠ 0x21 ∧ f ≠ 0x22) ∨ hv 1 ≠ 0x11 ∨ hv 2 ≠ 0x11 then .dim w h
          else
            let hm := f / 16
            let vm := f % 16
            let t := compSamples w h hm vm hm vm + 2 * compSamples w h 1 1 hm vm
            if 2 ^ 28 < t then .dim w h else .ok { sof := m, w, h, chroma := if f = 0x22 then 0 else if f = 0x21 then 1 else 2 } t
  | _ => .err 5

/-! ### JPEG jobs -/

/-- The words of a JPEG status sector (R178, the descriptor). -/
def jpegWords (x : Option JpegHead) (out : Nat) (st : Status) (blocks : Nat) : List Word :=
  let h := x.getD { sof := 0, w := 0, h := 0, chroma := 0 }
  [Word.ofNat out, Word.ofNat (h.w + h.h * 65536), Word.ofNat (st.code + bN (blocks != 0) * 65536), Word.ofNat blocks,
   Word.ofNat (h.sof + h.chroma * 256), 0, 0, 0]

/-- A BITSTREAM_ERROR of a JPEG job: class 1, stream 0xFFFF, TAG, kind. -/
def Dev.jpegErr (s : Dev) (j : Job) (kind : Nat) : Dev :=
  s.raise { nm := .bitstreamError, blk := 0x0F, ctx := some j.ctx, d0 := 0xFFFF, d1 := jobTag 0 j.desc, d3 := kind }

/-- A JPEG job ends with a failure. -/
def Dev.jpegFail (s : Dev) (j : Job) (st : Status) (d2 : Nat) : Dev :=
  let h := s.eng.jpeg.head
  let s := s.dropJpeg j.ctx
  s.jobEnd 0 { j with phase := 2, st, d2, out := jpegWords h 0 st 0 }

/-- Illegal fields of a JPEG descriptor (R6). -/
def Dev.jpegBad (s : Dev) (d : List Byte) : Bool :=
  let n := dN d 0x10
  n == 0 || decide (67108864 < n) || notifyBad 0 d || s.poolCls (dF d 4 0 4) != 0

/-- JPEG_JOB_START: the next job is parsed up to its SOF and checked, and asks for its buffers (R180, R182). -/
def Dev.jpegStart (s : Dev) : Dev :=
  match s.jobFirst 0 with
  | none => s
  | some j =>
    if j.phase ≠ 0 ∨ s.blkRuns 0x50000 = false then s
    else
      let fail := fun (s : Dev) nm d2 => s.jpegFail j ⟨nm, 0x0F⟩ d2
      let d := j.desc
      let a := dQ d 8
      match j.bad with
      | some st => s.jpegFail j st j.d2
      | none =>
        if s.jpegBad d then fail s .ctxFaultCmd (jobTag 0 d)
        else if s.usable < a + dN d 0x10 then fail s .ctxFaultAddr (a % 2 ^ 32)
        else
          let (bad, bs, s) := s.memRd j.ctx a (min (dN d 0x10) 65536)
          if bad then fail s .dataPoisoned (a % 2 ^ 32)
          else match jpegCheck bs with
            | .err k => fail (s.jpegErr j k) .bitstreamError 0
            | .dim w h =>
              fail ((s.irq 0x50000 17).raise { nm := .dimLimit, blk := 0x0F, ctx := some j.ctx, d0 := jobTag 0 d, d1 := w, d2 := h })
                .dimLimit 0
            | .ok x t =>
              let op := dF d 4 0 4
              let sp := dF d 4 4 4
              if s.poolSize op < picBytes 0 (roundUp x.w 2) (roundUp x.h 2) ∨ (x.sof = 0xC2 ∧ s.poolSize sp < 2 * t) then
                fail (s.jpegErr j 4) .bitstreamError 0
              else
                let (o, s) := s.want 69 j.ctx op
                let (c, s) := if x.sof = 0xC2 then s.want 69 j.ctx sp else (.no, s)
                let s : Dev := { s with eng := { s.eng with jpeg := { head := some x, out := o, scratch := c } } }
                s.setJob 0 { j with phase := 1 }

def execJpegJobStart (s : State) : Host.Outcome State Fault Refusal := .next { s with toDev := s.toDev.jpegStart }

/-- A plane of `h` rows of `w` with its last column and row replicated to `w2` by `h2`. -/
def padPlane (rows : List (List Nat)) (w h w2 h2 : Nat) : List (List Nat) :=
  (List.range h2).map fun j => (List.range w2).map fun i => planeAt rows (min i (w - 1)) (min j (h - 1))

/-- Chroma of one component at 4:2:0 from its samples (R182). -/
def jpegChroma (kind w2 h2 : Nat) (rows : List (List Nat)) : List (List Nat) :=
  (List.range (h2 / 2)).map fun j => (List.range (w2 / 2)).map fun i =>
    if kind = 0 then planeAt rows i j
    else if kind = 1 then (planeAt rows i (2 * j) + planeAt rows i (2 * j + 1) + 1) / 2
    else if kind = 2 then
      (planeAt rows (2 * i) (2 * j) + planeAt rows (2 * i + 1) (2 * j) + planeAt rows (2 * i) (2 * j + 1)
        + planeAt rows (2 * i + 1) (2 * j + 1) + 2) / 4
    else 128

/-- The size of a chroma component as decoded. -/
def chromaDim (x : JpegHead) : Nat × Nat :=
  if x.chroma = 0 then ((x.w + 1) / 2, (x.h + 1) / 2) else if x.chroma = 1 then ((x.w + 1) / 2, x.h) else (x.w, x.h)

/-- The size to which a chroma component is replicated before it is reduced. -/
def chromaPad (x : JpegHead) : Nat × Nat :=
  let w2 := roundUp x.w 2
  let h2 := roundUp x.h 2
  if x.chroma = 0 then (w2 / 2, h2 / 2) else if x.chroma = 1 then (w2 / 2, h2) else (w2, h2)

/-- Interleave Cb and Cr samples. -/
def weave (a b : List (List Nat)) : List (List Nat) := (a.zip b).map fun r => (r.1.zip r.2).flatMap fun p => [p.1, p.2]

/-- The NV12 planes of a decoded image: samples free, layout and chroma reduction as R182 says. -/
def Dev.jpegPlanes (s : Dev) (x : JpegHead) : Planes × Dev :=
  let w2 := roundUp x.w 2
  let h2 := roundUp x.h 2
  let (cw, ch) := chromaDim x
  let (pw, ph) := chromaPad x
  let (y, s) := s.drawRows 69 x.h x.w 8
  let (cb, s) := s.drawRows 70 ch cw 8
  let (cr, s) := s.drawRows 71 ch cw 8
  let red := fun c => jpegChroma x.chroma w2 h2 (padPlane c cw ch pw ph)
  ({ y := padPlane y x.w x.h w2 h2, c := weave (red cb) (red cr) }, s)

/-- The job's buffers, polled. -/
def Dev.jpegPoll (s : Dev) (j : Job) : Option Status × Dev :=
  let r := s.eng.jpeg
  let (o, e1, s) := s.poll r.out
  let (c, e2, s) := s.poll r.scratch
  let s : Dev := { s with eng := { s.eng with jpeg := { r with out := o, scratch := c } } }
  match e1, e2 with
  | some st, _ => (some st, s.bpmWarn st j.ctx (dF j.desc 4 0 4) 69)
  | none, some st => (some st, s.bpmWarn st j.ctx (dF j.desc 4 4 4) 69)
  | none, none => (none, s)

/-- The picture of a JPEG job is written and its output reference passes to the slot of the job's context (R182). -/
def Dev.jpegFinish (s : Dev) (j : Job) (x : JpegHead) (h blocks : Nat) : Dev :=
  let w2 := roundUp x.w 2
  let h2 := roundUp x.h 2
  let (pl, s) := s.jpegPlanes x
  let s := s.putPic j.ctx (s.hAddr h) 0 w2 h2 pl
  let s := match s.eng.jpeg.scratch with
    | .got c => s.unref 69 j.ctx c
    | _ => s
  let s : Dev := { s with eng := { s.eng with jpeg := {} } }
  let (slot, s) := s.giveSlot j.ctx
  let ok := match slot with
    | some k => s.ledgerN k h != 0 || !s.ledgerFull
    | none => false
  if !ok then
    let st : Status := ⟨.poolQuota, 9⟩
    (s.unref 69 j.ctx h).jobEnd 0 { j with phase := 2, st, out := jpegWords (some x) 0 st blocks }
  else
    let s := s.ledgerAdd (slot.getD 0) h
    let s := if blocks ≠ 0 then (s.jpegErr j 6).perf 0x50000 3 blocks else s
    let s := (s.perf 0x50000 1 (w2 * h2 / 256)).perfCycles 0x50000 2
    s.jobEnd 0 { j with phase := 2, st := .ok, out := jpegWords (some x) h .ok blocks }

/-- JPEG_JOB_DONE: the started job completes when its buffers are there; `blocks`: the blocks affected by entropy-coded errors
(R183). -/
def Dev.jpegDone (s : Dev) (blocks : Nat) : Dev :=
  match s.jobFirst 0, s.eng.jpeg.head with
  | some j, some x =>
    if j.phase ≠ 1 then s
    else
      let (e, s) := s.jpegPoll j
      match e with
      | some st => s.jpegFail j st 0
      | none => match s.eng.jpeg.out, s.eng.jpeg.scratch with
        | .wait _, _ => s
        | _, .wait _ => s
        | .got h, _ =>
          let a := dQ j.desc 8
          let (bad, _, s) := s.memRd j.ctx a (dN j.desc 0x10)
          if bad then s.jpegFail j ⟨.dataPoisoned, 0x0F⟩ (a % 2 ^ 32) else s.jpegFinish j x h (blocks % 2 ^ 32)
        | _, _ => s
  | _, _ => s

def execJpegJobDone (blocks : Nat) (s : State) : Host.Outcome State Fault Refusal :=
  .next { s with toDev := (s.toDev.jpegDone blocks).coachAll }

/-! ### The PPU's descriptor -/

/-- A PPU job's fields. -/
structure Ppu where
  mode : Nat
  rot : Nat
  flipH : Bool
  flipV : Bool
  filter : Nat
  fill : Bool
  matrix : Nat
  chans : Nat
  fmt : Nat
  ten : Bool
  srcW : Nat
  srcH : Nat
  sx : Nat
  sy : Nat
  sw : Nat
  sh : Nat
  ow : Nat
  oh : Nat
  lx : Nat
  ly : Nat
  cw : Nat
  ch : Nat
  /-- FILL_Y, FILL_CB, FILL_CR -/
  fills : List Nat
  /-- SCALE0-2, OFFSET0-2 -/
  norm : List Word
  /-- M00, M01, M02, M10, M11, M12 -/
  m : List Int
  deriving DecidableEq, Repr

/-- A destination entry. -/
structure PpuDst where
  h : Nat
  off : Nat
  y0 : Nat
  y1 : Nat
  row : Nat
  plane : Nat
  deriving DecidableEq, Repr

/-- The fields of a PPU descriptor. -/
def Ppu.ofDesc (d : List Byte) : Ppu :=
  { mode := dF d 0 13 1, rot := dF d 0 14 2, flipH := dF d 0 16 1 == 1, flipV := dF d 0 17 1 == 1, filter := dF d 0 18 2
    fill := dF d 0 20 1 == 1, matrix := dF d 0 21 2, chans := dF d 0 23 2, fmt := dF d 0 25 3, ten := dF d 0 28 1 == 1
    srcW := dF d 8 0 16, srcH := dF d 8 16 16, sx := dF d 0xC 0 16, sy := dF d 0xC 16 16, sw := dF d 0x10 0 16
    sh := dF d 0x10 16 16, ow := dF d 0x14 0 16, oh := dF d 0x14 16 16, lx := dF d 0x18 0 16, ly := dF d 0x18 16 16
    cw := dF d 0x1C 0 16, ch := dF d 0x1C 16 16, fills := [dF d 0x20 0 8, dF d 0x20 8 8, dF d 0x20 16 8]
    norm := (List.range 6).map fun i => dW d (0x28 + 4 * i), m := (List.range 6).map fun i => (dW d (0x40 + 4 * i)).int }

/-- Destination `i` of a PPU descriptor. -/
def PpuDst.ofDesc (d : List Byte) (i : Nat) : PpuDst :=
  let o := 0x80 + 16 * i
  { h := dN d o, off := dF d (o + 4) 0 23, y0 := dF d (o + 8) 0 16, y1 := dF d (o + 8) 16 16, row := dF d (o + 12) 0 16 * 64
    plane := dF d (o + 12) 16 16 * 64 }

/-- Element bytes and planes of the output. -/
def Ppu.esz (x : Ppu) : Nat := if x.fmt = 4 then 2 else 1
def Ppu.planes (x : Ppu) : Nat := if x.chans = 2 then 1 else 3

/-- Illegal fields of a PPU descriptor (R190, R191, R194). -/
def ppuBad (d : List Byte) : Bool :=
  let x := Ppu.ofDesc d
  let n := dF d 0 8 5
  let odd := fun v => v % 2 == 1
  n == 0 || decide (16 < n) || notifyBad 1 d || x.chans == 3 || decide (4 < x.fmt)
    || x.norm.any (fun w => !isFinite w)
    || odd x.sx || odd x.sy || odd x.sw || odd x.sh || x.sw == 0 || x.sh == 0 || odd x.srcW || odd x.srcH
    || decide (x.srcW < x.sx + x.sw) || decide (x.srcH < x.sy + x.sh)
    || x.ow == 0 || x.oh == 0 || decide (16384 < x.ow) || decide (16384 < x.oh)
    || x.cw == 0 || x.ch == 0 || decide (x.ow < x.lx + x.cw) || decide (x.oh < x.ly + x.ch)
    || (x.mode == 1 && (x.rot != 0 || x.flipH || x.flipV || x.filter == 3))
    || (List.range n).any fun i =>
      let t := PpuDst.ofDesc d i
      decide (t.y1 ≤ t.y0) || decide (x.oh < t.y1) || t.off % 64 != 0 || decide (t.row < x.ow * x.esz)
        || decide (t.plane < (t.y1 - t.y0) * t.row)

/-- The first address fault of a PPU job: its source, then its destinations (R192, R194). -/
def Dev.ppuAddr (s : Dev) (d : List Byte) : Option Nat :=
  let x := Ppu.ofDesc d
  let src := dN d 4
  if s.poolCls (hPool src) ≠ 0 ∨ s.poolAs (hPool src) = true
      ∨ s.poolSize (hPool src) < picBytes (bN x.ten) x.srcW x.srcH then some (s.hAddr src % 2 ^ 32)
  else (((List.range (ppuN d)).map (PpuDst.ofDesc d)).find? fun t =>
    s.poolCls (hPool t.h) != 1 || !s.poolAs (hPool t.h) || s.bufIso t.h
      || decide (s.poolSize (hPool t.h) < t.off + (x.planes - 1) * t.plane + (t.y1 - t.y0 - 1) * t.row + x.ow * x.esz)).map
    fun t => s.hAddr t.h % 2 ^ 32

/-- PPU_JOB_START: the checks of R194, in order. -/
def Dev.ppuStart (s : Dev) (q : Nat) : Dev :=
  match s.jobFirst q with
  | none => s
  | some j =>
    if j.phase ≠ 0 ∨ s.blkRuns (jqPage q) = false then s
    else
      let poisoned := match j.bad with
        | some st => st.nm == .dataPoisoned
        | none => false
      if !poisoned && ppuBad j.desc then s.jobFail q j ⟨.ctxFaultCmd, 0x10⟩ (jobTag q j.desc)
      else match j.bad with
        | some st => s.jobFail q j st j.d2
        | none => match s.ppuAddr j.desc with
          | some a =>
            (s.isoMark (((List.range (ppuN j.desc)).map (PpuDst.ofDesc j.desc)).map (·.h))).jobFail q j ⟨.ctxFaultAddr, 0x10⟩ a
          | none => s.setJob q { j with phase := 1 }

def execPpuJobStart (n : Nat) (s : State) : Host.Outcome State Fault Refusal :=
  .next { s with toDev := if n < 2 then (s.toDev.ppuStart (n + 1)).coachAll else s.toDev }

/-! ### Sampling (R185-R188) -/

/-- The taps of one source axis: (index, weight), and the sum that the weights stand for. -/
structure Taps where
  l : List (Int × Int)
  t : Int
  deriving DecidableEq, Repr

/-- 128·κ(*n*/64), rounded half away from zero (R187). -/
def cubicW (n : Nat) : Int :=
  let n' : Int := n
  let v : Int := if n ≤ 64 then 192 * n' ^ 3 - 20480 * n' ^ 2 + 33554432
                 else -64 * n' ^ 3 + 20480 * n' ^ 2 - 2097152 * n' + 67108864
  if 0 ≤ v then (v * 2 + 262144) / 524288 else -((-v * 2 + 262144) / 524288)

/-- The taps of NEAREST, BILINEAR and BICUBIC at coordinate `c` (16.16). -/
def tapsAt (filter : Nat) (c : Int) : Taps :=
  let k := c / 65536
  if filter = 0 then { l := [((c + 32768) / 65536, 1)], t := 1 }
  else if filter = 2 then
    let p := (c / 1024 % 64).toNat
    let a := cubicW (64 + p)
    let b := cubicW p
    let d := cubicW (64 - p)
    { l := [(k - 1, a), (k, b), (k + 1, d), (k + 2, 128 - a - b - d)], t := 128 }
  else
    let f := c / 256 % 256
    { l := [(k, 256 - f), (k + 1, f)], t := 256 }

/-- The taps of AREA for output index `i` of step `st`, in pixels of size `px`: overlaps with [*i*·st, (*i*+1)·st). -/
def areaTaps (st px i : Nat) : Taps :=
  let lo := i * st
  let hi := (i + 1) * st
  let k0 := lo / px
  let k1 := (hi + px - 1) / px
  { l := (List.range (k1 - k0)).map fun n =>
      let k := k0 + n
      ((k : Int), ((min hi ((k + 1) * px) - max lo (k * px) : Nat) : Int)), t := st }

/-- A tap list under an index map. -/
def Taps.map (f : Int → Int) (x : Taps) : Taps := { x with l := x.l.map fun p => (f p.1, p.2) }

/-- STEP of an axis. -/
def stepOf (r c : Nat) : Nat := (r * 65536 + c / 2) / c

/-- The luma source coordinate of content pixel (`i`, `j`) (R185). -/
def Ppu.coord (x : Ppu) (i j : Nat) : Int × Int :=
  if x.mode = 1 then
    let g := fun n => x.m.getD n 0
    (g 0 * i + g 1 * j + g 2, g 3 * i + g 4 * j + g 5)
  else
    let (rw, rh) := if x.rot % 2 = 0 then (x.sw, x.sh) else (x.sh, x.sw)
    let a : Int := ((2 * i + 1) * stepOf rw x.cw - 65536 : Int) / 2
    let b : Int := ((2 * j + 1) * stepOf rh x.ch - 65536 : Int) / 2
    let a := if x.flipH then ((rw : Int) - 1) * 65536 - a else a
    let b := if x.flipV then ((rh : Int) - 1) * 65536 - b else b
    let (u, v) := match x.rot with
      | 0 => (a, b)
      | 1 => (b, ((rw : Int) - 1) * 65536 - a)
      | 2 => (((x.sw : Int) - 1) * 65536 - a, ((x.sh : Int) - 1) * 65536 - b)
      | _ => (((rh : Int) - 1) * 65536 - b, a)
    ((x.sx : Int) * 65536 + u, (x.sy : Int) * 65536 + v)

/-- The taps of both source axes for content pixel (`i`, `j`) on a plane: luma, or chroma (R186, R187). -/
def Ppu.taps (x : Ppu) (chroma : Bool) (i j : Nat) : Taps × Taps :=
  let d := if chroma then 2 else 1
  let (cx, cy) := x.coord i j
  let (cx, cy) := if chroma then (cx / 2, (cy - 32768) / 2) else (cx, cy)
  if x.filter ≠ 3 then (tapsAt x.filter cx, tapsAt x.filter cy)
  else
    let (rw, rh) := if x.rot % 2 = 0 then (x.sw / d, x.sh / d) else (x.sh / d, x.sw / d)
    let stx := stepOf (rw * d) x.cw
    let sty := stepOf (rh * d) x.ch
    let fa : Int → Int := fun m => if x.flipH then (rw : Int) - 1 - m else m
    let fb : Int → Int := fun m => if x.flipV then (rh : Int) - 1 - m else m
    let px := 65536 * d
    let ta := (areaTaps stx px i).map fa
    let tb := (areaTaps sty px j).map fb
    let ox : Int → Int := fun m => (x.sx / d : Nat) + m
    let oy : Int → Int := fun m => (x.sy / d : Nat) + m
    let (xa, ya, sx, sy) := match x.rot with
      | 0 => (ta.map ox, tb.map oy, stx, sty)
      | 1 => (tb.map ox, ta.map fun m => oy ((rw : Int) - 1 - m), sty, stx)
      | 2 => (ta.map fun m => ox ((rw : Int) - 1 - m), tb.map fun m => oy ((rh : Int) - 1 - m), stx, sty)
      | _ => (tb.map fun m => ox ((rh : Int) - 1 - m), ta.map oy, sty, stx)
    (if sx < 65536 then tapsAt 1 cx else xa, if sy < 65536 then tapsAt 1 cy else ya)

/-- A source tap: outside the valid rectangle the nearest edge sample, or FILL (R186). -/
def tapAt (p : Int → Int → Nat) (fill : Option Nat) (x0 y0 w h : Nat) (x y : Int) : Nat :=
  let cx := clampI x0 (x0 + w - 1 : Nat) x
  let cy := clampI y0 (y0 + h - 1 : Nat) y
  match fill with
  | some v => if cx = x ∧ cy = y then p x y else v
  | none => p cx cy

/-- The filtered value of taps: (Σ *w*ₓ*w*ᵧ*p* + *T*/2) div *T*, clamped to the bit depth. -/
def filterAt (p : Int → Int → Nat) (mx : Nat) (x y : Taps) : Nat :=
  let t := x.t * y.t
  let sum := (y.l.map fun b => b.2 * (x.l.map fun a => a.2 * ((p a.1 b.1 : Nat) : Int)).sum).sum
  (clampI 0 mx ((sum + t / 2) / t)).toNat

/-- The planes of a source as functions: Y, Cb, Cr. -/
def Planes.at (p : Planes) (c : Nat) (x y : Int) : Nat :=
  if c = 0 then planeAt p.y x.toNat y.toNat else planeAt p.c (2 * x.toNat + c - 1) y.toNat

/-- FILL of a plane at the source's bit depth (R188). -/
def Ppu.fillOf (x : Ppu) (c : Nat) : Nat := x.fills.getD c 0 * (if x.ten then 4 else 1)

/-- The sample of plane `c` for output pixel (`ox`, `oy`), at the source's bit depth. -/
def Ppu.sample (x : Ppu) (p : Planes) (c ox oy : Nat) : Nat :=
  if ox < x.lx ∨ oy < x.ly ∨ x.lx + x.cw ≤ ox ∨ x.ly + x.ch ≤ oy then x.fillOf c
  else
    let d := if c = 0 then 1 else 2
    let (tx, ty) := x.taps (c != 0) (ox - x.lx) (oy - x.ly)
    let fill := if x.fill then some (x.fillOf c) else none
    filterAt (tapAt (p.at c) fill (x.sx / d) (x.sy / d) (x.sw / d) (x.sh / d)) (if x.ten then 1023 else 255) tx ty

/-! ### Conversion, normalisation (R189, R190) -/

/-- *y*₀, *c*ᵧ, *c*_rv, *c*_gu, *c*_gv, *c*_bu of a MATRIX. -/
def matrixOf (m : Nat) : Int × Int × Int × Int × Int × Int :=
  match m with
  | 0 => (64, 9539, 13075, 3209, 6660, 16525)
  | 1 => (64, 9539, 14686, 1747, 4366, 17305)
  | 2 => (0, 8192, 11485, 2819, 5850, 14516)
  | _ => (0, 8192, 12901, 1535, 3835, 15201)

/-- R, G, B at 10 bits of 10-bit Y, Cb, Cr. -/
def toRgb (m : Nat) (y cb cr : Int) : List Int :=
  let (y0, cy, rv, gu, gv, bu) := matrixOf m
  let k := fun (v : Int) => clampI 0 1023 ((v + 4096) / 8192)
  [k (cy * (y - y0) + rv * (cr - 512)), k (cy * (y - y0) - gu * (cb - 512) - gv * (cr - 512)), k (cy * (y - y0) + bu * (cb - 512))]

/-- The output values of pixel (`ox`, `oy`), in plane order, before normalisation. -/
def Ppu.pixel (x : Ppu) (p : Planes) (ox oy : Nat) : List Int :=
  let ext := fun c => ((x.sample p c ox oy * (if x.ten then 1 else 4) : Nat) : Int)
  if x.chans = 2 then [ext 0]
  else
    let l := toRgb x.matrix (ext 0) (ext 1) (ext 2)
    if x.chans = 1 then l.reverse else l

/-- The element of a value of plane `c`. -/
def Ppu.elem (x : Ppu) (c : Nat) (v : Int) : List Byte :=
  bytesOf x.esz (encOf x.fmt true (ffma (fofInt v) (x.norm.getD c 0) (x.norm.getD (3 + c) 0)))

/-- The bytes of the rows of a plane of a destination: offset from the destination's base, bytes. -/
def Ppu.rows (x : Ppu) (img : Nat → Nat → List Int) (t : PpuDst) : List (Nat × List Byte) :=
  (List.range x.planes).flatMap fun c => (List.range (t.y1 - t.y0)).map fun j =>
    (t.off + c * t.plane + j * t.row, (List.range x.ow).flatMap fun i => x.elem c ((img i (t.y0 + j)).getD c 0))

/-! ### The end of a PPU job -/

/-- The source's samples inside the crop rectangle, row by row; samples outside it are never used. -/
def Dev.ppuSource (s : Dev) (c : Nat) (x : Ppu) (a : Nat) : Bool × Planes × Dev :=
  let pitch := pitchOf (bN x.ten) x.srcW
  let b := if x.ten then 2 else 1
  let row := fun (s : Dev) (o : Nat) =>
    let (bad, bs, s) := s.memRd c (a + o + x.sx * b) (x.sw * b)
    let l := (List.range x.sw).map fun i => if x.ten then natOf ((bs.drop (2 * i)).take 2) / 64 else (bs.getD i 0).toNat
    (bad, List.replicate x.sx 0 ++ l, s)
  let rows := fun (s : Dev) (base y0 n : Nat) => (List.range n).foldl (fun (r : Bool × List (List Nat) × Dev) j =>
    let (bad, l, s) := row r.2.2 (base + (y0 + j) * pitch)
    (r.1 || bad, r.2.1 ++ [l], s)) (false, List.replicate y0 [], s)
  let (b1, y, s) := rows s 0 x.sy x.sh
  let (b2, cc, s) := rows s (pitch * x.srcH) (x.sy / 2) (x.sh / 2)
  (b1 || b2, { y, c := cc }, s)

/-- Write 64-byte blocks of a destination; a block that an earlier destination of the job wrote holds the value of one of them,
unspecified which (R192). -/
def Dev.ppuBlocks (s : Dev) (k : Nat) (done : List Nat) : List (Nat × List Byte) → Dev
  | [] => s
  | (a, bs) :: l =>
    if done.contains (k * 2 ^ 17 + a / 64) then
      let (v, s) := s.draw 68
      (if v % 2 = 0 then s else s.asStore k a bs false).ppuBlocks k done l
    else (s.asStore k a bs false).ppuBlocks k done l

/-- A row cut into 64-byte blocks. -/
def cutBlocks (r : Nat × List Byte) : List (Nat × List Byte) :=
  (List.range ((r.2.length + 63) / 64)).map fun i => (r.1 + 64 * i, (r.2.drop (64 * i)).take 64)

/-- Write the destinations in order; `done` holds the blocks written. -/
def Dev.ppuWrite (s : Dev) (x : Ppu) (img : Nat → Nat → List Int) (done : List Nat) : List PpuDst → Dev
  | [] => s
  | t :: l =>
    let k := s.poolCore (hPool t.h)
    let bl := (x.rows img t).flatMap cutBlocks |>.map fun b => (s.hAddr t.h + b.1, b.2)
    let s := s.ppuBlocks k done bl
    s.ppuWrite x img (done ++ bl.map fun b => k * 2 ^ 17 + b.1 / 64) l

/-- PPU_JOB_DONE: the started job's output is written and the job completes. -/
def Dev.ppuDone (s : Dev) (q : Nat) : Dev :=
  match s.jobFirst q with
  | none => s
  | some j =>
    if j.phase ≠ 1 then s
    else
      let x := Ppu.ofDesc j.desc
      let a := s.hAddr (dN j.desc 4)
      let (bad, p, s) := s.ppuSource j.ctx x a
      let dsts := ((List.range (ppuN j.desc)).map (PpuDst.ofDesc j.desc)).map (·.h)
      if bad then s.jobFail q j ⟨.dataPoisoned, 0x10⟩ (a % 2 ^ 32)
      else if dsts.any s.bufIso then
        s.isoHit.jobFail q j ⟨.ctxFaultAddr, 0x10⟩ (s.hAddr ((dsts.find? s.bufIso).getD 0) % 2 ^ 32)
      else
        let s := s.ppuWrite x (x.pixel p) [] ((List.range (ppuN j.desc)).map (PpuDst.ofDesc j.desc))
        let s := (s.perf (jqPage q) 1 (x.ow * x.oh / 256)).perfCycles (jqPage q) 2
        s.jobEnd q { j with phase := 2, st := .ok, out := blankSector q .ok }

def execPpuJobDone (n : Nat) (s : State) : Host.Outcome State Fault Refusal :=
  .next { s with toDev := if n < 2 then (s.toDev.ppuDone (n + 1)).coachAll else s.toDev }

end Sys2Proof.Machine
end

