-- ==== Sys2Proof/Machine/Dpp.lean ====
section
/-! DEFINITION. The DPP: decoding and suppression of detections, emission of records, and heartbeats (R274-R293). -/

namespace Sys2Proof.Machine

/-! ### Buffers an engine names by handle and offset -/

/-- Read `n` bytes at an offset of a buffer, in DRAM or an AS: whether any of it is poisoned. -/
def Dev.bufRd (s : Dev) (c h off n : Nat) : Bool × List Byte × Dev :=
  let a := s.hAddr h + off
  if s.poolAs (hPool h) then
    let k := s.poolCore (hPool h)
    ((s.asPoison k a n).isSome, s.asBytes k a n, s)
  else s.memRd c a n

/-- Write bytes at an offset of a buffer. -/
def Dev.bufWr (s : Dev) (c h off : Nat) (bs : List Byte) : Dev :=
  let a := s.hAddr h + off
  if s.poolAs (hPool h) then s.asStore (s.poolCore (hPool h)) a bs false else s.memWr c a bs false

/-- A buffer is of one of the classes, holds `n` bytes from an offset and lies behind no isolated port (R25); else the failing
address. -/
def Dev.bufBad (s : Dev) (cls : List Nat) (h off n : Nat) : Option Nat :=
  if cls.contains (s.poolCls (hPool h)) && !s.bufIso h && decide (off + n ≤ s.poolSize (hPool h)) then none
  else some ((s.hAddr h + off) % 2 ^ 32)

/-- An event raised at most once per second per context: one more has happened; due, it carries their number (R284, R313). -/
def Dev.warn (s : Dev) (key : Nat) (e : Nat → Event) : Dev :=
  let x := Tab.get (fun _ => ({} : Warn)) s.eng.warns key
  let n := x.n + 1
  if onceDue x.at_ s.ns then
    ({ s with eng := { s.eng with warns := Tab.set (fun _ => {}) s.eng.warns key { n := 0, at_ := some s.ns } } } : Dev).raise (e n)
  else { s with eng := { s.eng with warns := Tab.set (fun _ => {}) s.eng.warns key { x with n } } }

/-! ### The outbox (R287, R288) -/

/-- Records of this unit's DPP that have not been accepted. -/
def Dev.outbox (s : Dev) : List MRec :=
  let here := s.ctxs.flatMap fun x => x.2.mqWait.filter fun r => r.unit == 0
  let sent := (s.chain.out ++ s.chain.wait).flatMap fun t => match t.what with
    | .record l => l
    | _ => []
  (here ++ sent).filter (·.blk == 0x11)

/-- The outbox has room for `n` records of context `c`. -/
def Dev.outRoom (s : Dev) (c n : Nat) : Bool :=
  let l := s.outbox
  decide (l.length + n ≤ 8192) && decide ((l.filter (·.ctx == c)).length + n ≤ 1024)

/-! ### Descriptors -/

/-- A level of a DECODE_NMS job. -/
structure Level where
  h : Nat
  off : Nat
  gw : Nat
  gh : Nat
  row : Nat
  plane : Nat
  stride : Word
  scale : Word
  zp : Int
  nanch : Nat
  anchors : List (Word × Word)
  deriving DecidableEq, Repr

/-- Level `l` of a descriptor. -/
def Level.ofDesc (d : List Byte) (l : Nat) : Level :=
  let o := 0x80 + 32 * l
  let t := 0x80 + 32 * dppLevels d + 128 * l
  { h := dN d o, off := dN d (o + 4), gw := dF d (o + 8) 0 16, gh := dF d (o + 8) 16 16, row := dF d (o + 12) 0 16 * 64
    plane := dF d (o + 16) 0 18 * 64, stride := dW d (o + 20), scale := dW d (o + 24), zp := toSigned 8 (dF d (o + 28) 0 8)
    nanch := dF d (o + 28) 8 5, anchors := (List.range 16).map fun i => (dW d (t + 8 * i), dW d (t + 8 * i + 4)) }

/-- The levels of a descriptor. -/
def dppLevelList (d : List Byte) : List Level := (List.range (dppLevels d)).map (Level.ofDesc d)

/-- Fields: OBJ, NCLS, FORM, FMT, MAX_OUT, PRE_K. -/
def dObj (d : List Byte) : Nat := dF d 0 14 1
def dNcls (d : List Byte) : Nat := dF d 4 16 9
def dForm (d : List Byte) : Nat := dF d 0 16 2
def dFmt (d : List Byte) : Nat := dF d 0 22 2
def dMaxOut (d : List Byte) : Nat := dF d 0x14 0 11
def dPreK (d : List Byte) : Nat := dF d 0x10 0 17
def dNrec (d : List Byte) : Nat := dF d 0x50 0 11
/-- Planes of an anchor (R278). -/
def dPlanes (d : List Byte) : Nat := 4 + dObj d + dNcls d
/-- Bytes of an element. -/
def dEsz (d : List Byte) : Nat := if dFmt d = 0 then 1 else if dFmt d = 1 then 2 else 4
/-- The job is an EMIT. -/
def isEmit (d : List Byte) : Bool := dF d 0 8 1 == 1

/-- Illegal fields of a DPP job (R278, R279, R292). -/
def dppBad (d : List Byte) : Bool :=
  notifyBad 3 d ||
    if isEmit d then dNrec d == 0 || decide (1024 < dNrec d)
    else
      let lv := dppLevelList d
      let iou := dW d 0xC
      dForm d == 3 || dFmt d == 3 || dNcls d == 0 || decide (256 < dNcls d) || isNaN (dW d 8) || isNaN iou || flt iou 0
        || flt 0x3F800000 iou || dPreK d == 0 || decide (65536 < dPreK d) || dMaxOut d == 0 || decide (1024 < dMaxOut d)
        || lv.any (fun x => x.nanch == 0 || decide (16 < x.nanch) || (dForm d != 2 && x.nanch != 1))
        || decide (65536 < (lv.map fun x => x.gw * x.gh * x.nanch).sum)

/-- The records a job may emit at most. -/
def dppWorst (d : List Byte) : Nat :=
  if dppBad d then 0 else if isEmit d then dNrec d else if dF d 0 11 1 = 1 then dMaxOut d else 0

/-- The first address fault of a DPP job: levels and OUT, or SRC (R285, R286, R292). -/
def Dev.dppAddr (s : Dev) (d : List Byte) : Option Nat :=
  if isEmit d then s.bufBad [2] (dN d 0x48) (dN d 0x4C) (64 * dNrec d)
  else
    let lv := (dppLevelList d).map fun x =>
      if x.gw = 0 ∨ x.gh = 0 then s.bufBad [1] x.h x.off 0
      else s.bufBad [1] x.h x.off ((x.nanch * dPlanes d - 1) * x.plane + (x.gh - 1) * x.row + x.gw * dEsz d)
    ((lv ++ [s.bufBad [1, 2] (dN d 0x2C) (dN d 0x30) (32 * dMaxOut d)]).filterMap id).head?

/-- The job that the DPP starts: the oldest queued one, of each context the oldest, for which the outbox has room. -/
def Dev.dppNext (s : Dev) : Option Job :=
  let q := (s.jq 3).jobs.filter (·.phase == 0)
  (q.filter fun j => (q.find? (·.ctx == j.ctx)) == some j).find? fun j => s.outRoom j.ctx (dppWorst j.desc)

/-- Start the next DPP job when it is an EMIT or not as `emit` says, run its checks, and compute it with `f`. -/
def Dev.dppRun (s : Dev) (emit : Bool) (f : Job → Dev → Dev) : Dev :=
  match s.dppNext with
  | none => s
  | some j =>
    if isEmit j.desc ≠ emit ∨ s.blkRuns 0x60000 = false then s
    else
      let fail := fun (st : Status) d2 => s.jobDone 3 j st d2 (blankSector 3 st)
      let poisoned := match j.bad with
        | some st => st.nm == .dataPoisoned
        | none => false
      if !poisoned && dppBad j.desc then fail ⟨.ctxFaultCmd, 0x11⟩ (jobTag 3 j.desc)
      else match j.bad with
        | some st => fail st j.d2
        | none => match s.dppAddr j.desc with
          | some a =>
            let hs := if isEmit j.desc then [dN j.desc 0x48] else (dppLevelList j.desc).map (·.h) ++ [dN j.desc 0x2C]
            (s.isoMark hs).jobDone 3 j ⟨.ctxFaultAddr, 0x11⟩ a (blankSector 3 ⟨.ctxFaultAddr, 0x11⟩)
          | none => f j s

/-! ### Candidates (R278-R281) -/

/-- An element as FP32. -/
def elemF (fmt : Nat) (x : Level) (bs : List Byte) : Word :=
  if fmt = 0 then fmul (fofInt (toSigned 8 (natOf bs) - x.zp)) x.scale
  else if fmt = 1 then Word.ofNat (natOf bs * 65536) else Word.ofNat (natOf bs)

/-- The rows of a level: planes, rows, elements; whether any is poisoned. -/
def Dev.levelRows (s : Dev) (j : Job) (x : Level) : Bool × List (List (List Word)) × Dev :=
  let d := j.desc
  let e := dEsz d
  let row := fun (s : Dev) (p y : Nat) =>
    let (bad, bs, s) := s.bufRd j.ctx x.h (x.off + p * x.plane + y * x.row) (x.gw * e)
    (bad, (List.range x.gw).map fun i => elemF (dFmt d) x ((bs.drop (e * i)).take e), s)
  let plane := fun (s : Dev) (p : Nat) => (List.range x.gh).foldl (fun (r : Bool × List (List Word) × Dev) y =>
    let (bad, l, s) := row r.2.2 p y
    (r.1 || bad, r.2.1 ++ [l], s)) (false, [], s)
  (List.range (x.nanch * dPlanes d)).foldl (fun (r : Bool × List (List (List Word)) × Dev) p =>
    let (bad, l, s) := plane r.2.2 p
    (r.1 || bad, r.2.1 ++ [l], s)) (false, [], s)

/-- A box: x0, y0, x1, y1. -/
structure Box where
  x0 : Word
  y0 : Word
  x1 : Word
  y1 : Word
  deriving DecidableEq, Repr

/-- 4.135 166 6, the FP32 value nearest ln(62.5). -/
def lnMax : Word := 0x40845349

/-- The box of a candidate on the grid (R279). -/
def boxOf (form : Nat) (x : Level) (a : Nat) (gx gy : Nat) (v : Nat → Word) : Box :=
  let g := fun n => fmul (fadd (fofInt (n : Nat)) 0x3F000000) x.stride
  let px := g gx
  let py := g gy
  if form ≤ 1 then
    let d := fun i => fmul (if form = 1 then fexp (v i) else v i) x.stride
    { x0 := fsub px (d 0), y0 := fsub py (d 1), x1 := fadd px (d 2), y1 := fadd py (d 3) }
  else
    let (aw, ah) := x.anchors.getD a (0, 0)
    let cx := fadd px (fmul (v 0) aw)
    let cy := fadd py (fmul (v 1) ah)
    let w := fmul aw (fexp (fmin (v 2) lnMax))
    let h := fmul ah (fexp (fmin (v 3) lnMax))
    { x0 := fsub cx (fmul 0x3F000000 w), y0 := fsub cy (fmul 0x3F000000 h), x1 := fadd cx (fmul 0x3F000000 w)
      y1 := fadd cy (fmul 0x3F000000 h) }

/-- A box in picture coordinates (R281). -/
def mapBox (d : List Byte) (b : Box) : Box :=
  let mx := fun x => fmul (fsub x (dW d 0x18)) (dW d 0x20)
  let my := fun y => fmul (fsub y (dW d 0x1C)) (dW d 0x24)
  let clip := fun (n : Nat) x => if dF d 0 15 1 = 1 then fmin (fmax x 0) (fofInt n) else x
  let w := dF d 0x28 0 16
  let h := dF d 0x28 16 16
  { x0 := clip w (mx b.x0), y0 := clip h (my b.y0), x1 := clip w (mx b.x1), y1 := clip h (my b.y1) }

/-- A candidate: index, mapped box, class scores (R280). -/
structure Cand where
  i : Nat
  box : Box
  scores : List Word
  deriving DecidableEq, Repr

/-- The candidates of a level, from index `base`. -/
def candsOf (d : List Byte) (x : Level) (rows : List (List (List Word))) (base : Nat) : List Cand :=
  let act := fun v => if dF d 0 18 1 = 1 then interp romSigma 0xC1800000 (-3) v else v
  let p := dPlanes d
  (List.range x.gh).flatMap fun gy => (List.range x.gw).flatMap fun gx => (List.range x.nanch).map fun a =>
    let v := fun n => ((rows.getD (a * p + n) []).getD gy []).getD gx 0
    let cls := (List.range (dNcls d)).map fun c => act (v (4 + dObj d + c))
    { i := base + (gy * x.gw + gx) * x.nanch + a, box := mapBox d (boxOf (dForm d) x a gx gy v)
      scores := if dObj d = 1 then cls.map (fmul (act (v 4))) else cls }

/-! ### Entries, sorting, suppression (R282-R284) -/

/-- An entry of the sort. -/
structure Scored where
  score : Word
  i : Nat
  cls : Nat
  box : Box
  deriving DecidableEq, Repr

/-- The highest score with its lowest class; a NaN is never the highest. -/
def topClass (l : List Word) : Word × Nat :=
  (l.zipIdx).foldl (fun (b : Word × Nat) x => if isNaN b.1 || flt b.1 x.1 then (if isNaN x.1 then b else x) else b) (0x7FC00000, 0)

/-- The entries of a candidate. -/
def Cand.ents (multi : Bool) (c : Cand) : List Scored :=
  if multi then c.scores.zipIdx.map fun x => { score := x.1, i := c.i, cls := x.2, box := c.box }
  else let (v, k) := topClass c.scores; [{ score := v, i := c.i, cls := k, box := c.box }]

/-- The order of R282. -/
def entLe (a b : Scored) : Bool :=
  flt b.score a.score || (!flt a.score b.score && (decide (a.i < b.i) || (a.i == b.i && decide (a.cls ≤ b.cls))))

/-- max(0, *x*) and the area of a box. -/
def pos (x : Word) : Word := fmax 0 x
def Box.area (b : Box) : Word := fmul (pos (fsub b.x1 b.x0)) (pos (fsub b.y1 b.y0))

/-- B is suppressed by A (R283). -/
def suppresses (th : Word) (a b : Box) : Bool :=
  let i := fmul (pos (fsub (fmin a.x1 b.x1) (fmax a.x0 b.x0))) (pos (fsub (fmin a.y1 b.y1) (fmax a.y0 b.y0)))
  let u := fsub (fadd a.area b.area) i
  flt (fmul th u) i

/-- Walk the sorted entries: the kept ones in order, and how many more survived. -/
def nmsWalk (aware : Bool) (th : Word) (mx : Nat) : List Scored → List Scored → Nat → List Scored × Nat
  | [], kept, extra => (kept, extra)
  | e :: l, kept, extra =>
    if kept.any fun k => (!aware || k.cls == e.cls) && suppresses th k.box e.box then nmsWalk aware th mx l kept extra
    else if kept.length < mx then nmsWalk aware th mx l (kept ++ [e]) extra
    else nmsWalk aware th mx l kept (extra + 1)

/-! ### Records (R274-R276, R285) -/

/-- The words of a record's header: TYPE, flags, STREAM, CAMERA, INDEX, CTS; VERSION 1 and the emitting unit (R275). -/
def recHead (unit typ flags stream camera index cts : Nat) : List Word :=
  [Word.ofNat (typ + 16 + unit % 16 * 256 + flags % 8 * 4096 + stream % 4096 * 65536),
   Word.ofNat (camera % 65536 + index % 65536 * 65536), Word.ofNat cts, Word.ofNat (cts / 2 ^ 32)]

/-- Box words. -/
def Box.words (b : Box) : List Word := [b.x0, b.y0, b.x1, b.y1]

/-- The DETECTION record of a kept entry. -/
def detRecord (unit : Nat) (d : List Byte) (k : Nat) (e : Scored) : List Word :=
  recHead unit 1 (dF d 0x34 12 3) (dF d 0x34 0 12) (dF d 0x34 16 16) k (dQ d 0x38) ++ e.box.words
    ++ [e.score, Word.ofNat (e.cls + k * 65536), Word.ofNat (dF d 0x44 0 24), dW d 0x40, Word.ofNat e.i, 0, 0, 0]

/-- Emit records of a DPP job. -/
def Dev.dppEmit (s : Dev) (j : Job) (l : List (List Word)) : Dev :=
  (l.foldl (fun (s : Dev) w => s.record { ctx := j.ctx, words := w, blk := 0x11, job := j.id }) s).perf 0x60000 2 l.length

/-- The kept list's entry. -/
def Scored.bytes (e : Scored) : List Byte := bytesOfWords (e.box.words ++ [e.score, Word.ofNat e.cls, Word.ofNat e.i, 0])

/-- DECODE_NMS on the job's candidates: kept list, records, status words. -/
def Dev.dppFinish (s : Dev) (j : Job) (cands : List Cand) : Dev :=
  let d := j.desc
  let th := dW d 8
  let all := (cands.flatMap (Cand.ents (dF d 0 13 1 == 1))).filter fun e => !isNaN e.score && !flt e.score th
  let sorted := all.mergeSort entLe
  let go := sorted.take (dPreK d)
  let (kept, extra) := nmsWalk (dF d 0 12 1 == 1) (dW d 0xC) (dMaxOut d) go [] 0
  let extra := min extra 0xFFFF
  let s := s.bufWr j.ctx (dN d 0x2C) (dN d 0x30) (kept.flatMap Scored.bytes)
  let s := if dF d 0 11 1 = 1 then s.dppEmit j (kept.zipIdx.map fun e => detRecord s.addr d e.2 e.1) else s
  let s := s.perf 0x60000 1 go.length
  let st : Status := if extra = 0 then .ok else ⟨.nmsTruncated, 0x11⟩
  let s :=
    if extra = 0 then s
    else ((s.irq 0x60000 2).satInc R.dppTruncCnt 1).warn j.ctx fun n =>
      { nm := .nmsTruncated, blk := 0x11, ctx := some j.ctx, d0 := n, d1 := jobTag 3 d, d2 := extra }
  s.jobDone 3 j st 0 [Word.ofNat st.code, Word.ofNat kept.length, Word.ofNat extra, Word.ofNat go.length,
    Word.ofNat (all.length - go.length), 0, 0, 0]

/-- Read every level's candidates, the index running on. -/
def Dev.dppCands (s : Dev) (j : Job) : List Level → Nat → Bool × List Cand × Dev
  | [], _ => (false, [], s)
  | x :: l, base =>
    let (bad, rows, s) := s.levelRows j x
    let c := candsOf j.desc x rows base
    let (b2, r, s) := s.dppCands j l (base + c.length)
    (bad || b2, c ++ r, s)

/-- The computation of a DECODE_NMS job. -/
def Dev.dppDecode (j : Job) (s : Dev) : Dev :=
  let (bad, cands, s) := s.dppCands j (dppLevelList j.desc) 0
  if bad then
    let st : Status := ⟨.dataPoisoned, 0x11⟩
    s.jobDone 3 j st (((dppLevelList j.desc).head?.map fun x => s.hAddr x.h % 2 ^ 32).getD 0) (blankSector 3 st)
  else s.dppFinish j cands

/-- DECODE_NMS. -/
def execDecodeNms (s : State) : Host.Outcome State Fault Refusal :=
  .next { s with toDev := s.toDev.dppRun false Dev.dppDecode }

/-! ### EMIT (R286) -/

/-- The reserved bits of payload word `i` (from byte 0x10) of a record TYPE. -/
def recRsvd (typ i : Nat) : Word :=
  match typ with
  | 1 => if i = 6 then 0xFF000000 else if 9 ≤ i then 0xFFFFFFFF else 0
  | 3 => if i = 5 then 0xFFFFFF00 else if 10 ≤ i then 0xFFFFFFFF else 0
  | 4 => if i = 10 then 0xFFFF0000 else 0
  | 5 => if i = 7 then 0xFFFF0000 else if 9 ≤ i then 0xFFFFFFFF else 0
  | _ => 0

/-- A record built by a core is illegal: TYPE outside 1-5 or a RsvdZ bit that is not 0. -/
def recBad (w : List Word) : Bool :=
  let t := (w.getD 0 0).fld 0 4
  t == 0 || decide (5 < t) || (w.getD 0 0).bit 15 || (w.getD 0 0).fld 28 3 != 0
    || (List.range 12).any fun i => (w.getD (4 + i) 0 &&& recRsvd t i) != 0

/-- A record with VERSION, UNIT and a clear PHASE written by the emitter. -/
def recStamp (unit : Nat) (w : List Word) : List Word :=
  match w with
  | [] => []
  | h :: l => ((h.setFld 4 4 1).setFld 8 4 unit).setFld 31 1 0 :: l

/-- The computation of an EMIT job. -/
def Dev.dppForward (j : Job) (s : Dev) : Dev :=
  let d := j.desc
  let fail := fun (s : Dev) (st : Status) d2 => s.jobDone 3 j st d2 (blankSector 3 st)
  let (bad, bs, s) := s.bufRd j.ctx (dN d 0x48) (dN d 0x4C) (64 * dNrec d)
  let recs := (List.range (dNrec d)).map fun i => wordsOf ((bs.drop (64 * i)).take 64)
  if bad then fail s ⟨.dataPoisoned, 0x11⟩ ((s.hAddr (dN d 0x48) + dN d 0x4C) % 2 ^ 32)
  else if recs.any recBad then fail s ⟨.ctxFaultCmd, 0x11⟩ (jobTag 3 d)
  else (s.dppEmit j (recs.map (recStamp s.addr))).jobDone 3 j .ok 0 (blankSector 3 .ok)

/-- EMIT. -/
def execEmit (s : State) : Host.Outcome State Fault Refusal := .next { s with toDev := s.toDev.dppRun true Dev.dppForward }

/-! ### The end of a DPP job (R288) -/

/-- DPP_JOB_DONE: the oldest computed job completes whose records are all accepted and that is the oldest of its context. -/
def Dev.dppDone (s : Dev) : Dev :=
  let q := (s.jq 3).jobs
  let out := s.outbox
  match q.find? fun j => j.phase == 2 && (q.find? (·.ctx == j.ctx)) == some j
      && out.all (fun r => !(r.ctx == j.ctx && r.job == j.id)) with
  | none => s
  | some j => (s.perfCycles 0x60000 3).jobEnd 3 j

def execDppJobDone (s : State) : Host.Outcome State Fault Refusal := .next { s with toDev := s.toDev.dppDone.coachAll }

/-! ### Heartbeats (R290) -/

/-- Attached streams of context `c` in the manager's rings, and the units up. -/
def Dev.streamsOf (s : Dev) (c : Nat) : Nat := (s.eng.rings.filter fun x => (x.2.map (·.ctx)) == some c).length
def Dev.unitsUp (s : Dev) : Nat := 1 + (s.chain.units.filter fun x => x.2.st == .joined).length

/-- The words of a HEARTBEAT record. -/
def Dev.hbWords (s : Dev) (c recs pics : Nat) : List Word :=
  recHead s.addr 8 0 0xFFF 0xFFFF 0 s.ns
    ++ [Word.ofNat (s.ctx c).hbSeq, Word.ofNat (s.unitsUp + s.streamsOf c * 65536), Word.ofNat recs, Word.ofNat pics, 0, 0, 0, 0,
        0, 0, 0, 0]

/-- HEARTBEAT: a record for an OPEN context whose CTX_HB_PERIOD is not 0; a pending one is replaced in its place, its counts
carried on. -/
def Dev.heartbeat (s : Dev) (c : Nat) : Dev :=
  if !s.isMgr || s.ctxSt c != 1 || s.rf (R.ctxHbPeriod c) 0 16 == 0 || !s.mgmtUp then s
  else
    let x := s.ctx c
    let old := x.mqWait.find? (·.blk == 6)
    let n := fun i => (old.map fun r => (r.words.getD i 0).toNat).getD 0
    let r : MRec := { ctx := c, words := s.hbWords c (x.hbRecs + n 6) (x.hbPics + n 7), blk := 6 }
    let q := if old.isSome then x.mqWait.map fun e => if e.blk = 6 then r else e else x.mqWait ++ [r]
    s.setCtx c { x with mqWait := q, hbSeq := (x.hbSeq + 1) % 2 ^ 32, hbRecs := 0, hbPics := 0 }

def execHeartbeat (c : Nat) (s : State) : Host.Outcome State Fault Refusal := .next { s with toDev := s.toDev.heartbeat c }

end Sys2Proof.Machine
end

