-- ==== Sys2Proof/Machine/Slv.lean ====
section
/-! DEFINITION. The solver's jobs but for BUNDLE: SOLVE, FACTOR, ASSEMBLE, TRIANGULATE, TRACK_UPDATE, and the end of a job
(R294-R310, R313, R315). -/

namespace Sys2Proof.Machine

/-! ### Fields of a job record -/

/-- OP. -/
def slvOp (d : List Byte) : Nat := dF d 0 8 3
/-- EMIT. -/
def slvEmits (d : List Byte) : Bool := dF d 0 13 1 == 1
/-- ARITH: fixed. -/
def slvFixed (d : List Byte) : Bool := dF d 0 14 1 == 1
/-- MAXREF. -/
def slvMaxref (d : List Byte) : Nat := dF d 0x14 0 4
/-- TAU, LAMBDA, TOL. -/
def slvTau (d : List Byte) : Word := dW d 8
def slvLam (d : List Byte) : Word := dW d 0xC
def slvTol (d : List Byte) : Word := dW d 0x10
/-- N, NRHS, APITCH and BPITCH in bytes. -/
def facN (d : List Byte) : Nat := dF d 0x40 0 8
def facRhs (d : List Byte) : Nat := dF d 0x40 8 4
def facAp (d : List Byte) : Nat := dF d 0x4C 0 16 * 64
def facBp (d : List Byte) : Nat := dF d 0x58 0 16 * 64
/-- INTR of ASSEMBLE. -/
def asmIntr (d : List Byte) : Nat := dF d 0x40 0 9
/-- Cameras, points, observations and parameters of a BUNDLE. -/
def bunCams (d : List Byte) : Nat := dF d 0x40 0 12
def bunIntr (d : List Byte) : Nat := dF d 0x40 12 9
def bunFix (d : List Byte) : Nat := dF d 0x40 21 11
def bunFixEn (d : List Byte) : Bool := dF d 0x44 31 1 == 1
def bunPts (d : List Byte) : Nat := dF d 0x44 0 19
def bunObs (d : List Byte) : Nat := dF d 0x48 0 25
def bunCores (d : List Byte) : Nat := dF d 0x6C 0 16
def bunNp (d : List Byte) : Nat := (paramsOf (bunIntr d)).length
/-- Blocks of the reduced system. -/
def bunNb (d : List Byte) : Nat := (bunCams d * bunNp d + 127) / 128
/-- Bytes that WORK must hold. -/
def bunWork (d : List Byte) : Nat := 65536 * bunNb d * (bunNb d + 1) + 64 * bunPts d + 2048 * bunNb d

/-- The FP32 fields of a job, all to be finite. -/
def slvFloats (d : List Byte) : List Nat :=
  [8, 0xC, 0x10] ++ match slvOp d with
    | 1 => [0x60, 0x64, 0x68]
    | 2 => [0x4C, 0x50, 0x54, 0x5C, 0x60]
    | 3 => [0x54, 0x58, 0x5C, 0x60, 0x64, 0x68, 0x6C, 0x70]
    | 4 => [0x70, 0x74, 0x78, 0x7C]
    | _ => []

/-- A value is outside a range. -/
def outside (lo hi v : Nat) : Bool := decide (v < lo) || decide (hi < v)

/-- Illegal fields of a job but for what needs the unit's state (R303, R304, R315 and the job record). -/
def slvBad (d : List Byte) : Bool :=
  notifyBad 4 d || (slvFloats d).any (fun o => !isFinite (dW d o)) || flt (slvTau d) 0 || flt (slvLam d) 0
    || decide (8 < slvMaxref d) || (slvFixed d && slvOp d != 0)
    || match slvOp d with
      | 0 => outside 1 128 (facN d) || outside 1 8 (facRhs d) || (slvFixed d && slvMaxref d != 0)
      | 1 => outside 1 4096 (dF d 0x54 0 13)
      | 2 => outside 2 32 (dF d 0x40 0 6) || outside 1 8 (dF d 0x40 6 4)
      | 3 => outside 1 4096 (dF d 0x50 0 13)
      | 4 => outside 2 2048 (bunCams d) || outside 1 262144 (bunPts d) || outside 1 16777216 (bunObs d)
          || outside 1 31 (dF d 0x6C 16 5) || (if bunFixEn d then decide (bunCams d ≤ bunFix d) else bunFix d != 0)
          || (bunCores d == 0 && decide (1 < bunNb d))
      | _ => true

/-- What of a job's legality depends on the unit: the Q table's entries, WORK's size, the cores of a BUNDLE (R304, R311, R346). -/
def Dev.slvBadHere (s : Dev) (j : Job) : Bool :=
  let d := j.desc
  if slvOp d = 0 ∧ slvFixed d = true then
    let h := dN d 0x6C
    let n := qLen (facN d)
    s.hValid h && (s.bufBad [1, 2, 4] h (dN d 0x70) n).isNone
      && (s.bufRd j.ctx h (dN d 0x70) n).2.1.any fun b => decide (31 < b.toNat)
  else if slvOp d = 4 then
    let h := dN d 0x64
    decide (s.poolSize (hPool h) < dN d 0x68 + bunWork d)
      || (List.range 16).any fun k => bitN (bunCores d) k && !s.rb (R.ctxCoreset j.ctx s.addr) k
  else false

/-- The extents of a job: handle, offset, bytes. -/
def slvExtents (d : List Byte) : List (Nat × Nat × Nat) :=
  let ho := fun o n => (dN d o, dN d (o + 4), n)
  match slvOp d with
  | 0 =>
    let m := (facN d - 1) * facAp d + 4 * facN d
    let v := (facRhs d - 1) * facBp d + 4 * facN d
    [ho 0x44 m, ho 0x50 v, ho 0x5C v] ++ (if dN d 0x64 = 0 then [] else [ho 0x64 m])
      ++ (if slvFixed d then [ho 0x6C (qLen (facN d))] else [])
  | 1 => [ho 0x44 64, ho 0x4C (32 * dF d 0x54 0 13), ho 0x58 1024]
      ++ (if dF d 0x40 9 1 = 1 then [ho 0x6C (4 * (paramsOf (asmIntr d)).length)] else [])
  | 2 => [ho 0x44 (128 * dF d 0x40 0 6), ho 0x64 32]
  | 3 => [ho 0x40 64, ho 0x48 (32 * dF d 0x50 0 13)]
  | 4 => [ho 0x4C (64 * bunCams d), ho 0x54 (16 * bunPts d), ho 0x5C (16 * bunObs d), ho 0x64 (bunWork d)]
  | _ => []

/-- An operand that the SLV may not use: class, extent, or a buffer of another context (R296, R205). -/
def Dev.slvBuf (s : Dev) (c : Nat) (x : Nat × Nat × Nat) : Option Nat :=
  match s.bufBad [1, 2, 4] x.1 x.2.1 x.2.2 with
  | some a => some a
  | none => if (s.buf (hPool x.1) (hIdx x.1)).ctx = c then none else some ((s.hAddr x.1 + x.2.1) % 2 ^ 32)

/-- The track table's entries pass their buffer. -/
def Dev.trackBad (s : Dev) (j : Job) : Option Nat :=
  if slvOp j.desc = 3 then
    let h := dN j.desc 0x40
    let o := dN j.desc 0x44
    let cap := dF (s.bufRd j.ctx h o 64).2.1 4 16 16
    s.slvBuf j.ctx (h, o, 64 + 128 * cap)
  else none

/-! ### Results -/

/-- What a job's result record says. A value that its OP does not compute is free (notes/assumptions/22). -/
structure SlvRes where
  st : Status := .ok
  range : Bool := false
  stag : Bool := false
  retried : Bool := false
  nonfin : Bool := false
  few : Bool := false
  steps : Nat := 0
  iters : Nat := 0
  norm : Option Word := none
  cnt : PivCnt := {}
  nrej : Nat := 0
  costs : Option (Word × Word × Word) := none
  deriving DecidableEq, Repr

/-- A free word. -/
def Dev.drawWord (s : Dev) (tag : Nat) : Word × Dev := let (v, s) := s.draw tag; (Word.ofNat v, s)

/-- The result record's 16 words. -/
def SlvRes.words (r : SlvRes) (norm c0 c1 mu : Word) : List Word :=
  [Word.ofNat (r.st.code + bN (decide (0 < r.cnt.n)) * 2 ^ 16 + bN r.range * 2 ^ 17 + bN r.stag * 2 ^ 18 + bN r.retried * 2 ^ 19
     + bN r.nonfin * 2 ^ 20 + bN r.few * 2 ^ 21),
   Word.ofNat (r.steps % 16 + r.iters % 32 * 2 ^ 16), norm,
   Word.ofNat (min r.cnt.n 0xFFFF + min (r.cnt.first.getD 0xFFFF) 0xFFFF * 2 ^ 16), Word.ofNat (min r.nrej 0xFFFFFF), c0, c1, mu,
   Word.ofNat (min r.cnt.neg 0xFFFF), 0, 0, 0, 0, 0, 0, 0]

/-- The PIVOT_SMALL and RANGE_EXCEEDED reports of a job (R303, R305, R313). -/
def Dev.slvWarn (s : Dev) (j : Job) (r : SlvRes) : Dev :=
  let tag := jobTag 4 j.desc
  let s :=
    if r.cnt.n = 0 then s
    else (((s.irq 0x68000 2).satInc R.slvPivotCnt r.cnt.n).perf 0x68000 2 r.cnt.n).warn (256 + j.ctx) fun n =>
      { nm := .pivotSmall, blk := 0x12, ctx := some j.ctx, d0 := n, d1 := tag }
  if r.range then ((s.irq 0x68000 17).satInc R.slvRangeCnt 1).warn (512 + j.ctx) fun n =>
      { nm := .rangeExceeded, blk := 0x12, ctx := some j.ctx, d0 := n, d1 := tag }
  else s

/-- A job of queue `q` has computed: its result record is formed, and the payload of the record it emits. -/
def Dev.slvFinish (s : Dev) (q : Nat) (j : Job) (r : SlvRes) (d2 : Nat) (payload : List Word) : Dev :=
  let (f0, s) := s.drawWord 72
  let (f1, s) := s.drawWord 72
  let (f2, s) := s.drawWord 72
  let (f3, s) := s.drawWord 72
  let (c0, c1, mu) := r.costs.getD (f1, f2, f3)
  let ws := r.words (r.norm.getD f0) c0 c1 mu
  (s.slvWarn j r).setJob q { j with phase := 2, st := r.st, d2, out := ws, rec_ := payload }

/-- A job of queue `q` fails. -/
def Dev.slvFail (s : Dev) (q : Nat) (j : Job) (nm : Nm) (d2 : Nat) : Dev := s.slvFinish q j { st := ⟨nm, 0x12⟩ } d2 []

/-- The checks of a job at its start, in order (R315); then `f`. -/
def Dev.slvChecked (s : Dev) (q : Nat) (j : Job) (f : Dev → Dev) : Dev :=
  let d := j.desc
  let poisoned := match j.bad with
    | some st => st.nm == .dataPoisoned
    | none => false
  if !poisoned && (slvBad d || s.slvBadHere j) then s.slvFail q j .ctxFaultCmd (jobTag 4 d)
  else match j.bad with
    | some st => s.slvFinish q j { st } j.d2 []
    | none => match (((slvExtents d).map (s.slvBuf j.ctx)) ++ [s.trackBad j]).filterMap id with
      | a :: _ => (s.isoMark ((slvExtents d).map (·.1))).slvFail q j .ctxFaultAddr a
      | [] => f s

/-- Start the oldest queued job of queue 4 when its OP is one of `ops`. -/
def Dev.slvRun (s : Dev) (ops : List Nat) (f : Job → Dev → Dev) : Dev :=
  match (s.jq 4).jobs.find? (·.phase == 0) with
  | none => s
  | some j => if !ops.contains (slvOp j.desc) || !s.blkRuns 0x68000 then s else (s.perfCycles 0x68000 3).slvChecked 4 j (f j)

/-- Read pieces of a buffer: whether any is poisoned, the words of each. -/
def Dev.slvRead (s : Dev) (c h : Nat) : List (Nat × Nat) → Bool × List (List Word) × Dev
  | [] => (false, [], s)
  | x :: l =>
    let (b1, bs, s) := s.bufRd c h x.1 x.2
    let (b2, r, s) := s.slvRead c h l
    (b1 || b2, wordsOf bs :: r, s)

/-- Write pieces of a buffer. -/
def Dev.slvWrite (s : Dev) (c h : Nat) (l : List (Nat × List Word)) : Dev :=
  l.foldl (fun (s : Dev) x => s.bufWr c h x.1 (bytesOfWords x.2)) s

/-- The address that a poisoned operand is reported with. -/
def Dev.slvAddr (s : Dev) (h o : Nat) : Nat := (s.hAddr h + o) % 2 ^ 32

/-- Every word is finite. -/
def allFinite (l : List (List Word)) : Bool := l.all fun r => r.all isFinite

/-! ### FACTOR (R301-R307) -/

/-- The places of A's rows and of the columns of B and X. -/
def facRows (d : List Byte) (o : Nat) : List (Nat × Nat) := (List.range (facN d)).map fun i => (o + i * facAp d, 4 * (i + 1))
def facColsAt (d : List Byte) (o : Nat) : List (Nat × Nat) := (List.range (facRhs d)).map fun c => (o + c * facBp d, 4 * facN d)

/-- Write X and, when LD is given, the factor. -/
def Dev.facWrite (s : Dev) (j : Job) (x ld : List (List Word)) : Dev :=
  let d := j.desc
  let s := s.slvWrite j.ctx (dN d 0x5C) (((facColsAt d (dN d 0x60)).map (·.1)).zip x)
  if dN d 0x64 = 0 then s else s.slvWrite j.ctx (dN d 0x64) (((facRows d (dN d 0x68)).map (·.1)).zip ld)

/-- The payload of a SOLVE_RESULT record from byte 0x20. -/
def SlvRes.payload (r : SlvRes) (norm : Word) : List Word :=
  [Word.ofNat (r.steps % 16), norm, Word.ofNat (min r.cnt.n 0xFFFF + min (r.cnt.first.getD 0xFFFF) 0xFFFF * 2 ^ 16)]

/-- A FP32 factorisation with its solves. `range`: it repeats a fixed one. -/
def Dev.facFloat (s : Dev) (j : Job) (a b : List (List Word)) (range : Bool) : Dev :=
  let d := j.desc
  let f := ldlOf (slvTau d) (slvLam d) a
  let cols := solveCols a f.rows (slvTol d) (slvMaxref d) b
  let x := cols.map (·.x)
  let ld := f.rows.map fun r => r.l ++ [r.d]
  let norm := normOf cols
  let r : SlvRes := { range, retried := range, stag := cols.any (·.stag), steps := stepsOf cols, norm := some norm, cnt := f.cnt
                      nonfin := !(allFinite x && (dN d 0x64 == 0 || allFinite ld) && isFinite norm) }
  (s.facWrite j x ld).slvFinish 4 j r 0 (r.payload norm)

/-- A fixed-point factorisation with its solves, or its repetition in FP32 (R304, R305). -/
def Dev.facFixed (s : Dev) (j : Job) (q : List Nat) (a b : List (List Word)) : Dev :=
  let d := j.desc
  let q := QTab.ofBytes (facN d) q
  let (seed, s) := (s.draws, { s with draws := s.draws + 1 })
  let free := fun k => toSigned 32 (Config.freeNat 73 (seed + k * 2 ^ 64))
  let ai := a.map fun r => r.map Word.int
  let bi := b.map fun r => r.map Word.int
  let f := ldlI q (slvTau d) (slvLam d) free ai
  let xs := bi.zipIdx.map fun c => solveI q (fun k => free (2 ^ 20 * (c.2 + 1) + k)) f.rows c.1
  let range := f.range || xs.any (·.2)
  if range ∧ dF d 0 15 1 = 1 then
    let fa := ai.zipIdx.map fun r => r.1.zipIdx.map fun x => ffix x.1 (q.fA r.2 x.2)
    let fb := bi.map fun c => c.zipIdx.map fun x => ffix x.1 (q.fB x.2)
    s.facFloat j fa fb true
  else
    let st : Status := if range then ⟨.rangeExceeded, 0x12⟩ else .ok
    let (norm, s) := s.drawWord 72
    let r : SlvRes := { st, range, norm := some norm, cnt := f.cnt }
    (s.facWrite j (xs.map fun x => x.1.map wordOfInt) (f.rows.map fun r => (r.l ++ [r.d]).map wordOfInt)).slvFinish 4 j r 0
      (r.payload norm)

/-- The computation of a FACTOR job. -/
def Dev.factor (j : Job) (s : Dev) : Dev :=
  let d := j.desc
  let (b1, a, s) := s.slvRead j.ctx (dN d 0x44) (facRows d (dN d 0x48))
  let (b2, b, s) := s.slvRead j.ctx (dN d 0x50) (facColsAt d (dN d 0x54))
  if b1 then s.slvFail 4 j .dataPoisoned (s.slvAddr (dN d 0x44) (dN d 0x48))
  else if b2 then s.slvFail 4 j .dataPoisoned (s.slvAddr (dN d 0x50) (dN d 0x54))
  else if slvFixed d then
    let (b3, q, s) := s.bufRd j.ctx (dN d 0x6C) (dN d 0x70) (qLen (facN d))
    if b3 then s.slvFail 4 j .dataPoisoned (s.slvAddr (dN d 0x6C) (dN d 0x70))
    else s.facFixed j (q.map (·.toNat)) a b
  else s.facFloat j a b false

/-- FACTOR; a job whose OP is illegal starts here too, and fails. -/
def execFactor (s : State) : Host.Outcome State Fault Refusal :=
  .next { s with toDev := s.toDev.slvRun [0, 5, 6, 7] Dev.factor }

/-! ### ASSEMBLE (R308) -/

/-- The normal block of `n` parameters that 256 words hold. -/
def Normal.ofWords (n : Nat) (w : List Word) : Normal :=
  { h := (List.range n).map fun a => (w.drop (16 * a)).take (a + 1), g := (w.drop 240).take n, cost := w.getD 255 0 }

/-- The words of a normal block: `old` supplies the entries of parameters that are not solved for, `free` the words that the
layout does not name. -/
def Normal.words (m : Normal) (old : List Word) (free : Nat → Word) : List Word :=
  let n := m.g.length
  (List.range 256).map fun i =>
    let a := i / 16
    let b := i % 16
    if a = 15 then (if b = 15 then m.cost else if b < n then m.g.getD b 0 else old.getD i 0)
    else if a < b then free i
    else if a < n then (m.h.getD a []).getD b 0 else old.getD i 0

/-- The computation of an ASSEMBLE job. -/
def Dev.assemble (j : Job) (s : Dev) : Dev :=
  let d := j.desc
  let sel := paramsOf (asmIntr d)
  let n := sel.length
  let nobs := dF d 0x54 0 13
  let (b1, cam, s) := s.slvRead j.ctx (dN d 0x44) [(dN d 0x48, 64)]
  let (b2, obs, s) := s.slvRead j.ctx (dN d 0x4C) ((List.range nobs).map fun i => (dN d 0x50 + 32 * i, 32))
  let accum := dF d 0x40 10 1 = 1
  let (b3, old, s) := if accum then s.slvRead j.ctx (dN d 0x58) [(dN d 0x5C, 1024)] else (false, [List.replicate 256 0], s)
  let old := old.headD []
  if b1 then s.slvFail 4 j .dataPoisoned (s.slvAddr (dN d 0x44) (dN d 0x48))
  else if b2 then s.slvFail 4 j .dataPoisoned (s.slvAddr (dN d 0x4C) (dN d 0x50))
  else if b3 then s.slvFail 4 j .dataPoisoned (s.slvAddr (dN d 0x58) (dN d 0x5C))
  else
    let m0 : Normal := if accum then Normal.ofWords n old else Normal.zero n
    let m := obs.foldl (fun m o => m.take (evalObs sel (dW d 0x64) (dW d 0x68) (cam.headD []) (o.take 3) (o.getD 3 0) (o.getD 4 0)
      (o.getD 5 0))) m0
    let seed := s.draws
    let s : Dev := { s with draws := s.draws + 1 }
    let blk := m.words old fun i => Word.ofNat (Config.freeNat 74 (seed + i * 2 ^ 64))
    let s := (s.slvWrite j.ctx (dN d 0x58) [(dN d 0x5C, blk)]).perf 0x68000 1 nobs
    let fin := allFinite m.h && m.g.all isFinite && isFinite m.cost
    if dF d 0x40 9 1 = 1 then
      let a := dampDiag (dW d 0x60) m.h
      let f := ldlOf (slvTau d) (slvLam d) a
      let cols := solveCols a f.rows (slvTol d) (slvMaxref d) [m.g.map fneg]
      let x := (cols.map (·.x)).headD []
      let norm := normOf cols
      let r : SlvRes := { stag := cols.any (·.stag), steps := stepsOf cols, norm := some norm, cnt := f.cnt, nrej := m.rej
                          nonfin := !(fin && x.all isFinite && isFinite norm) }
      (s.slvWrite j.ctx (dN d 0x6C) [(dN d 0x70, x)]).slvFinish 4 j r 0 (r.payload norm)
    else
      let (norm, s) := s.drawWord 72
      let r : SlvRes := { norm := some norm, nrej := m.rej, nonfin := !fin }
      s.slvFinish 4 j r 0 (r.payload norm)

/-- ASSEMBLE. -/
def execAssemble (s : State) : Host.Outcome State Fault Refusal := .next { s with toDev := s.toDev.slvRun [1] Dev.assemble }

/-! ### TRIANGULATE (R309) -/

/-- A vector of constants, and its components. -/
def vec3 (l : List Word) : D3 := { x := dconst 0 (l.getD 0 0), y := dconst 0 (l.getD 1 0), z := dconst 0 (l.getD 2 0) }
def D3.words (p : D3) : List Word := [p.x.v, p.y.v, p.z.v]

/-- A view's part of the starting point's system: (I − d̂d̂ᵀ), and its product with c. -/
def viewRay (v : List Word) : List (List Word) × List Word :=
  let w := vec3 ((v.take 3).map fneg)
  let c := ((rotate 0 w (vec3 ((v.drop 3).take 3))).words).map fneg
  let x := fdiv (fsub (v.getD 16 0) (v.getD 8 0)) (v.getD 6 0)
  let y := fdiv (fsub (v.getD 17 0) (v.getD 9 0)) (v.getD 7 0)
  let d := (rotate 0 w (vec3 [x, y, 0x3F800000])).words
  let e := fun i => d.getD i 0
  let len := fsqrt (fadd (fadd (fmul (e 0) (e 0)) (fmul (e 1) (e 1))) (fmul (e 2) (e 2)))
  let u := fun i => fdiv (e i) len
  let m := fun i k => fsub (if i = k then 0x3F800000 else 0) (fmul (u i) (u k))
  ((List.range 3).map fun i => (List.range (i + 1)).map (m i),
   (List.range 3).map fun i => fadd (fadd (fmul (m i 0) (c.getD 0 0)) (fmul (m i 1) (c.getD 1 0))) (fmul (m i 2) (c.getD 2 0)))

/-- The sum of two lower matrices. -/
def addLow (a b : List (List Word)) : List (List Word) := List.zipWith (List.zipWith fadd) a b

/-- Where a triangulation stands. -/
structure Tri where
  x : List Word
  m : Normal := .zero 3
  f : List LRow := []
  cnt : PivCnt := {}
  nrej : Nat := 0
  iters : Nat := 0
  few : Bool := false
  deriving DecidableEq, Repr

/-- The starting point of INIT = 1. -/
def triInit (tau lam : Word) (views : List (List Word)) : Tri :=
  let z : List (List Word) × List Word := (Normal.zero 3).h |> fun h => (h, [0, 0, 0])
  let (a, b) := views.foldl (fun (s : List (List Word) × List Word) v =>
    let (m, c) := viewRay v
    (addLow s.1 m, List.zipWith fadd s.2 c)) z
  let f := ldlOf tau lam a
  { x := solveF f.rows b, cnt := f.cnt }

/-- Iterations of a triangulation. -/
def triSteps (d : List Byte) (views : List (List Word)) : Nat → Tri → Tri
  | 0, t => t
  | n + 1, t =>
    let m := views.foldl (fun m v => m.take (evalObs [15, 16, 17] (dW d 0x5C) (dW d 0x60) (v.take 15) t.x (v.getD 16 0)
      (v.getD 17 0) (v.getD 18 0))) (Normal.zero 3)
    let f := ldlOf (slvTau d) (slvLam d) m.h
    let t := { t with m, f := f.rows, nrej := t.nrej + m.rej }
    if m.used < 2 then { t with few := true }
    else
      let x := List.zipWith fadd t.x (solveF f.rows (m.g.map fneg))
      triSteps d views n { t with x, cnt := t.cnt.add f.cnt, iters := t.iters + 1 }

/-- The computation of a TRIANGULATE job. -/
def Dev.triangulate (j : Job) (s : Dev) : Dev :=
  let d := j.desc
  let nv := dF d 0x40 0 6
  let (bad, views, s) := s.slvRead j.ctx (dN d 0x44) ((List.range nv).map fun i => (dN d 0x48 + 128 * i, 128))
  if bad then s.slvFail 4 j .dataPoisoned (s.slvAddr (dN d 0x44) (dN d 0x48))
  else
    let t0 : Tri := if dF d 0x40 10 1 = 1 then triInit (slvTau d) (slvLam d) views else { x := [dW d 0x4C, dW d 0x50, dW d 0x54] }
    let t := triSteps d views (dF d 0x40 6 4) t0
    let nu := t.m.used
    let den := fofInt (max 1 (2 * (nu : Int) - 3))
    let var := fun (i : Nat) => fdiv (fmul ((solveF t.f ((List.range 3).map fun k => if k = i then 0x3F800000 else 0)).getD i 0) t.m.cost) den
    let vs := [var 0, var 1, var 2]
    let rms := fsqrt (fdiv t.m.cost (fofInt (2 * (nu : Int))))
    let s := s.slvWrite j.ctx (dN d 0x64) [(dN d 0x68, t.x ++ vs ++ [rms, 0])]
    let r : SlvRes := { few := t.few, iters := t.iters, norm := some rms, cnt := t.cnt, nrej := t.nrej
                        nonfin := !((t.x ++ vs).all isFinite && isFinite rms) }
    s.slvFinish 4 j r 0 ([dW d 0x58] ++ t.x ++ vs ++ [Word.ofNat (nv + min t.cnt.n 255 * 256), rms])

/-- TRIANGULATE. -/
def execTriangulate (s : State) : Host.Outcome State Fault Refusal := .next { s with toDev := s.toDev.slvRun [2] Dev.triangulate }

/-! ### TRACK_UPDATE (R310) -/

/-- Put words into a list of words from index `i`. -/
def putWords (l : List Word) (i : Nat) (v : List Word) : List Word := l.take i ++ v ++ l.drop (i + v.length)

/-- An axis of an update: position, velocity, their variances and covariance after it. -/
def kalman (dt q r z : Word) (predict : Bool) (p vel vp vv vc : Word) : Word × Word × Word × Word × Word :=
  let dt2 := fmul dt dt
  let p := ffma vel dt p
  let pp := fadd (fadd (fadd vp (fmul dt (fadd vc vc))) (fmul dt2 vv)) (fdiv (fmul (fmul q dt2) dt) 0x40400000)
  let c := fadd (fadd vc (fmul dt vv)) (fmul (fmul q dt2) 0x3F000000)
  let v := fadd vv (fmul q dt)
  if predict then (p, vel, pp, v, c)
  else
    let sm := fadd pp r
    let kp := fdiv pp sm
    let kv := fdiv c sm
    let y := fsub z p
    (ffma kp y p, ffma kv y vel, fsub pp (fmul kp pp), fsub v (fmul kv c), fsub c (fmul kp c))

/-- The entry after an update: 32 words. -/
def trackEntry (d : List Byte) (e u : List Word) : List Word :=
  let cts : Nat := (u.getD 2 0).toNat + (u.getD 3 0).toNat * 2 ^ 32
  let last : Nat := (e.getD 4 0).toNat + (e.getD 5 0).toNat * 2 ^ 32
  let dt := fmul (fofInt ((cts - last : Nat) : Int)) 0x3089705F
  let ax := (List.range 4).map fun k => kalman dt (dW d (0x54 + 4 * k)) (dW d (0x64 + 4 * k)) (u.getD (4 + k) 0) ((u.getD 0 0).bit 16)
    (e.getD (12 + k) 0) (e.getD (16 + k) 0) (e.getD (20 + k) 0) (e.getD (24 + k) 0) (e.getD (28 + k) 0)
  putWords (putWords e 4 [u.getD 2 0, u.getD 3 0]) 12
    (ax.map (·.1) ++ ax.map (·.2.1) ++ ax.map (·.2.2.1) ++ ax.map (·.2.2.2.1) ++ ax.map (·.2.2.2.2))

/-- Apply updates in order: the first poisoned entry's address, and how many were skipped. -/
def Dev.trackSteps (s : Dev) (j : Job) (cap : Nat) : List (List Word) → Nat → Option Nat × Nat × Dev
  | [], n => (none, n, s)
  | u :: l, n =>
    let d := j.desc
    let i := (u.getD 0 0).fld 0 16
    if cap ≤ i then s.trackSteps j cap l (n + 1)
    else
      let h := dN d 0x40
      let o := dN d 0x44 + 64 + 128 * i
      let (bad, bs, s) := s.bufRd j.ctx h o 128
      if bad then (some (s.slvAddr h o), n, s)
      else
        let e := wordsOf bs
        let cts : Nat := (u.getD 2 0).toNat + (u.getD 3 0).toNat * 2 ^ 32
        let last : Nat := (e.getD 4 0).toNat + (e.getD 5 0).toNat * 2 ^ 32
        if (e.getD 1 0).fld 0 8 = 0 ∨ cts < last then s.trackSteps j cap l (n + 1)
        else
          let w := trackEntry d e u
          (s.slvWrite j.ctx h [(o, w.take 16), (o + 64, w.drop 16)]).trackSteps j cap l n

/-- The computation of a TRACK_UPDATE job. -/
def Dev.trackUpdate (j : Job) (s : Dev) : Dev :=
  let d := j.desc
  let n := dF d 0x50 0 13
  let (b1, hd, s) := s.bufRd j.ctx (dN d 0x40) (dN d 0x44) 64
  let (b2, ups, s) := s.slvRead j.ctx (dN d 0x48) ((List.range n).map fun i => (dN d 0x4C + 32 * i, 32))
  if b1 then s.slvFail 4 j .dataPoisoned (s.slvAddr (dN d 0x40) (dN d 0x44))
  else if b2 then s.slvFail 4 j .dataPoisoned (s.slvAddr (dN d 0x48) (dN d 0x4C))
  else
    let (bad, rej, s) := s.trackSteps j (dF hd 4 16 16) ups 0
    match bad with
    | some a => s.slvFail 4 j .dataPoisoned a
    | none => s.slvFinish 4 j { nrej := rej } 0 []

/-- TRACK_UPDATE. -/
def execTrackUpdate (s : State) : Host.Outcome State Fault Refusal := .next { s with toDev := s.toDev.slvRun [3] Dev.trackUpdate }

/-! ### The end of a job (R294-R296, R99) -/

/-- The job number that a queue's records carry. -/
def slvKey (q : Nat) (j : Job) : Nat := (q - 4) * 2 ^ 40 + j.id

/-- A job hands over a record: it asks for one, ends without a fault, and has what a POSITION_3D needs. -/
def slvSends (j : Job) : Bool :=
  slvEmits j.desc && slvOp j.desc != 3 && !j.st.nm.faults && (slvOp j.desc != 2 || j.rec_ != [])

/-- Where a job's result record lies: OUT of a SOLVE, else its place in the job record. -/
def Dev.slvOut (s : Dev) (j : Job) : Nat :=
  match j.by_ with
  | .cmd c seq => match (s.ctx c).run.find? (·.seq == seq) with
    | some r => (hW r.words 0x10).toNat + (hW r.words 0x14).toNat * 2 ^ 32
    | none => 0
  | _ => j.addr.getD 0 + 0xC0

/-- The words of the record. -/
def Dev.slvRecord (s : Dev) (j : Job) : List Word :=
  if slvOp j.desc = 2 then
    recHead s.addr 5 0 0xFFF 0xFFFF 0 (dQ j.desc 0x70) ++ j.rec_ ++ List.replicate (12 - j.rec_.length) 0
  else
    let o := s.slvOut j
    let p := if j.rec_ = [] then [0, j.out.getD 2 0, j.out.getD 3 0] else j.rec_
    recHead s.addr 6 0 0xFFF 0xFFFF 0 s.ns
      ++ [Word.ofNat (jobTag 4 j.desc), Word.ofNat j.st.code, Word.ofNat o, Word.ofNat (o / 2 ^ 32)] ++ p ++ List.replicate (8 - p.length) 0

/-- Hand over the record. -/
def Dev.slvHand (s : Dev) (q : Nat) (j : Job) : Dev :=
  (s.record { ctx := j.ctx, words := s.slvRecord j, blk := 0x12, job := slvKey q j }).setJob q { j with phase := 5 }

/-- A computed job that emits: its references are released, its result record is written, then its record follows; a worker's
SOLVE first has the manager write OUT. -/
def Dev.slvAnnounce (s : Dev) (q : Nat) (j : Job) : Dev :=
  let s := s.dropJob q j
  let j := { j with refs := [] }
  match j.by_, j.addr with
  | .cmd c seq, _ =>
    if s.isMgr then (s.solveOut c seq (bytesOfWords j.out)).slvHand q j
    else (s.fwSend 0 (.solveOut c seq (bytesOfWords j.out))).setJob q { j with phase := 3 }
  | _, some a => (s.statusWrite q j a).slvHand q j
  | _, none => s.slvHand q j

/-- Every record of a job is accepted. -/
def Dev.slvHeld (s : Dev) (q : Nat) (j : Job) : Bool :=
  let mine := fun (r : MRec) => r.ctx == j.ctx && r.blk == 0x12 && r.job == slvKey q j
  let here := s.ctxs.any fun x => x.2.mqWait.any fun r => r.unit == 0 && mine r
  let sent := (s.chain.out ++ s.chain.wait).any fun t => match t.what with
    | .record l => l.any mine
    | _ => false
  here || sent

/-- The next stage of the end of the first job of a queue: none when it cannot go on. -/
def Dev.slvStage (s : Dev) (q : Nat) : Option Dev :=
  match s.jobFirst q with
  | none => none
  | some j =>
    if j.phase = 2 then some (if slvSends j then s.slvAnnounce q j else s.jobEnd q j)
    else if j.phase = 4 then some (s.slvHand q j)
    else if j.phase = 5 ∧ s.slvHeld q j = false then some (s.jobEnd q j)
    else none

/-- SLV_JOB_DONE: the first job of the queue goes one stage on, or else the BUNDLE does. -/
def Dev.slvDone (s : Dev) : Dev := ((s.slvStage 4).orElse fun _ => s.slvStage 5).getD s

def execSlvJobDone (s : State) : Host.Outcome State Fault Refusal := .next { s with toDev := s.toDev.slvDone.coachAll }

/-- The manager has written the OUT of a worker's SOLVE. -/
def Dev.solveOutDone (s : Dev) (c seq : Nat) : Dev :=
  [4, 5].foldl (fun (s : Dev) q =>
    match (s.jq q).jobs.find? fun j => j.by_ == .cmd c seq && j.phase == 3 with
    | some j => s.setJob q { j with phase := 4 }
    | none => s) s

/-! ### SOLVE (R295) -/

/-- SOLVE on its unit: the job record joins the queue as SCHED's push. -/
def Dev.solveHere (s : Dev) (c : Nat) (w : List Word) : Dev :=
  let seq := hSeq w
  s.withSlot c seq fun _ s =>
    let d := (s.ctx c).opData.getD []
    let d := BitVec.ofNat 8 c :: d.drop 1
    let q := if slvOp d = 4 then 5 else 4
    (s.jobPush q { by_ := .cmd c seq, addr := none, desc := d, ctx := c }).2

/-- SOLVE: OUT in the manager's DRAM is checked, the record at JOB is read, and goes to the unit. -/
def Dev.solve (c : Nat) (w : List Word) (s : Dev) : Dev :=
  let seq := hSeq w
  let o := hAddrAt w 0x10
  if !s.isMgr then s.solveHere c w
  else if o.dram && (s.ctxDram c o.addr 64).isNone then s.endCmd c seq ⟨.ctxFaultAddr, 8⟩ 0 o.addr
  else s.dramOperand c w (hAddrAt w 8) 256 fun s => s.onUnit c (hF w 0x18 0 4) w fun s => s.solveHere c w

/-- SOLVE. -/
def execSolve (c : Nat) (s : State) : Host.Outcome State Fault Refusal :=
  .next { s with toDev := s.toDev.hostCmd c 0x20 (Dev.solve c) }

end Sys2Proof.Machine
end

