-- ==== Sys2Proof/Machine/Bundle.lean ====
section
/-! DEFINITION. Bundle adjustment: the BUNDLE job and its sub-operations (R311, R312, R346). The order of operations of the Schur
elimination and of the back-substitution is not given by the rules; their results are free values (notes/assumptions/23). -/

namespace Sys2Proof.Machine

/-! ### Observations -/

/-- Camera, point, u, v, w of an observation's words. -/
def obCam (o : List Word) : Nat := (o.getD 0 0).fld 0 11
def obPt (o : List Word) : Nat := (o.getD 0 0).fld 11 18

/-- An observation under parameters. -/
def Bundle.eval (b : Bundle) (sel : List Nat) (cams pts : List (List Word)) (o : List Word) : Option ObsRow :=
  evalObs sel b.huber b.zmin (cams.getD (obCam o) []) (pts.getD (obPt o) []) (o.getD 1 0) (o.getD 2 0) (o.getD 3 0)

/-- The cost and rejections over observations. -/
def Bundle.costOver (b : Bundle) (cams pts obs : List (List Word)) (c : Word) : Word × Nat :=
  let m := obs.foldl (fun (m : Normal) o => m.take (b.eval [] cams pts o)) { Normal.zero 0 with cost := c }
  (m.cost, m.rej)

/-- Observations of a point. -/
def Bundle.obsOf (b : Bundle) (p : Nat) : List (List Word) := b.obs.filter fun o => obPt o == p
/-- A point is adjusted: it has two observations or more. -/
def Bundle.moves (b : Bundle) (p : Nat) : Bool := decide (2 ≤ (b.obsOf p).length)

/-- Observations are out of range, or not sorted by point and then by camera. -/
def obsBad (ncam npt : Nat) : List (List Word) → Bool
  | [] => false
  | [o] => decide (ncam ≤ obCam o) || decide (npt ≤ obPt o)
  | o :: q :: l => decide (ncam ≤ obCam o) || decide (npt ≤ obPt o) || decide (obPt q < obPt o)
      || (obPt q == obPt o && decide (obCam q < obCam o)) || obsBad ncam npt (q :: l)

/-! ### The reduced system -/

/-- Rows of the reduced system, padding included. -/
def Bundle.rows (b : Bundle) : Nat := (b.ncam * b.np + 127) / 128 * 128
def Bundle.nb (b : Bundle) : Nat := b.rows / 128

/-- An adjusted point is seen by both cameras. -/
def Bundle.shared (b : Bundle) (c d : Nat) : Bool :=
  let seen := fun k => (b.obs.filter fun o => obCam o == k && b.moves (obPt o) && (b.eval [] b.cams b.pts o).isSome).map obPt
  let l := seen c
  (seen d).any l.contains

/-- The camera block of camera `c`, damped, and its gradient. -/
def Bundle.camBlock (b : Bundle) (c : Nat) : List (List Word) × List Word :=
  let m := (b.obs.filter fun o => obCam o == c).foldl (fun (m : Normal) o => m.take (b.eval (paramsOf b.intr) b.cams b.pts o))
    (Normal.zero b.np)
  (dampDiag b.mu m.h, m.g)

/-- Entry (i, j) of the reduced system. -/
def Bundle.sysAt (b : Bundle) (free : Nat → Word) (i j : Nat) : Word :=
  let ci := i / b.np
  let cj := j / b.np
  if b.ncam * b.np ≤ i ∨ b.fix = some ci ∨ b.fix = some cj then (if i = j then 0x3F800000 else 0)
  else if b.shared ci cj then free (i * 2 ^ 16 + j)
  else if ci = cj then ((b.camBlock ci).1.getD (i % b.np) []).getD (j % b.np) 0
  else 0

/-- Entry i of the gradient. -/
def Bundle.gradAt (b : Bundle) (free : Nat → Word) (i : Nat) : Word :=
  let c := i / b.np
  if b.ncam * b.np ≤ i ∨ b.fix = some c then 0
  else if b.shared c c then free (2 ^ 33 + i)
  else (b.camBlock c).2.getD (i % b.np) 0

/-- The system that the Schur elimination leaves. -/
def Bundle.schur (b : Bundle) (free : Nat → Word) : Bundle :=
  let sys := (List.range b.rows).map fun i => (List.range (i + 1)).map (b.sysAt free i)
  { b with sys, fac := sys, dia := [], grad := (List.range b.rows).map (b.gradAt free) }

/-! ### Phases 4 to 7 -/

/-- Diagonal block `k` (phase 4). -/
def Bundle.diagStep (b : Bundle) (tau lam : Word) : Bundle :=
  let at_ := b.k * 128
  let f := ldlOf tau lam (((b.fac.drop at_).take 128).map (·.drop at_))
  let fac := b.fac.zipIdx.map fun r =>
    if at_ ≤ r.2 ∧ r.2 < at_ + 128 then match f.rows[r.2 - at_]? with
      | some x => r.1.take at_ ++ x.l ++ [x.d]
      | none => r.1
    else r.1
  { b with fac, dia := b.dia ++ f.rows.map (·.d), nreg := b.nreg + f.cnt.n, neg := b.neg + f.cnt.neg
           first := b.first.or (f.cnt.first.map (at_ + ·)) }

/-- The rows of the factored diagonal block `k`. -/
def Bundle.diagRows (b : Bundle) : List LRow :=
  let at_ := b.k * 128
  let ds := b.dia.drop at_
  ((b.fac.drop at_).take 128).zipIdx.map fun r =>
    let l := (r.1.drop at_).take r.2
    { l, w := List.zipWith fmul l ds, d := ds.getD r.2 0 }

/-- Panel block `i` (phase 5). -/
def Bundle.panelStep (b : Bundle) (i : Nat) : Bundle :=
  let at_ := b.k * 128
  let rows := b.diagRows
  { b with fac := b.fac.zipIdx.map fun r =>
      if r.2 / 128 = i then r.1.take at_ ++ lowRow rows ((r.1.drop at_).take 128) [] ++ r.1.drop (at_ + 128) else r.1 }

/-- An FP32 value's code rounded to BF16. -/
def toBf16 (w : Word) : Nat := elemEnc 4 false (w.bit 31) (fdec w)

/-- The trailing updates of block step `k` (phase 6). -/
def Bundle.trailStep (b : Bundle) : Bundle :=
  let at_ := b.k * 128
  let ds := b.dia.drop at_
  let panel := b.fac.map fun r => (r.drop at_).take 128
  let left := panel.map fun r => (List.zipWith fmul r ds).map toBf16
  let right := panel.map fun r => r.map toBf16
  { b with fac := b.fac.zipIdx.map fun r =>
      if r.2 < at_ + 128 then r.1
      else r.1.zipIdx.map fun x =>
        if x.2 < at_ + 128 then x.1 else fsub x.1 (cell 4 4 1 0 (left.getD r.2 []) (right.getD x.2 [])).1 }

/-- The camera step: solve and refine against the unfactored system (phase 7). -/
def Bundle.camStep (b : Bundle) (tol : Word) (maxref : Nat) : Bundle :=
  let f := b.fac.zipIdx.map fun r =>
    let l := r.1.take r.2
    ({ l, w := List.zipWith fmul l b.dia, d := b.dia.getD r.2 0 } : LRow)
  let g := b.grad.map fneg
  let r := refine b.sys f g tol maxref maxref 0 (solveF f g) none
  let sel := paramsOf b.intr
  let new := b.cams.zipIdx.map fun c =>
    if b.fix = some c.2 then c.1
    else c.1.zipIdx.map fun w => match sel.findIdx? (· == w.2) with
      | some m => fadd w.1 (r.x.getD (c.2 * b.np + m) 0)
      | none => w.1
  { b with newCams := new, steps := max b.steps r.steps, norm := r.norm, stag := b.stag || r.stag
           nonfin := b.nonfin || !isFinite r.norm }

/-- The point steps (phase 8). -/
def Bundle.ptStep (b : Bundle) (free : Nat → Word) : Bundle :=
  { b with newPts := b.pts.zipIdx.map fun p =>
      if b.moves p.2 then p.1.zipIdx.map fun w => if w.2 < 3 then fadd w.1 (free (p.2 * 4 + w.2)) else w.1 else p.1 }

/-! ### Sub-operations -/

/-- SLV_BA_STAT. The three bits of the phase cannot hold 8, whose code is free (notes/assumptions/24). -/
def Dev.baStat (s : Dev) : Dev :=
  match s.eng.bundle with
  | none => s.setReg R.slvBaStat 0
  | some b =>
    let (f, s) := s.draw 80
    let ph := if b.phase = 8 then f % 8 else b.phase
    s.setReg R.slvBaStat (Word.ofNat (ph + b.it % 32 * 8 + b.ctx % 256 * 256 + b.k % 65536 * 65536))

/-- Set the running BUNDLE. -/
def Dev.setBundle (s : Dev) (b : Option Bundle) : Dev := ({ s with eng := { s.eng with bundle := b } } : Dev).baStat

/-- A free word from a fresh draw. -/
def Dev.freeWords (s : Dev) (tag : Nat) : (Nat → Word) × Dev :=
  (fun i => Word.ofNat (Config.freeNat tag (s.draws + i * 2 ^ 64)), { s with draws := s.draws + 1 })

/-- WORK's contents are the SLV's own: free bytes. -/
def Dev.workFree (s : Dev) (j : Job) : Dev :=
  let (bs, s) := s.drawBytes 75 (bunWork j.desc)
  s.bufWr j.ctx (dN j.desc 0x64) (dN j.desc 0x68) bs

/-- The internal programs of a BUNDLE leave their cores. -/
def Dev.bundleLeave (s : Dev) (b : Bundle) : Dev :=
  ((List.range 16).filter (bitN b.cores)).foldl (fun (s : Dev) k => s.leaveCore k 256 b.ctx) s

/-- The cores of CORES. -/
def coresOf (m : Nat) : List Nat := (List.range 16).filter (bitN m)

/-- BUNDLE's start: operands are read, its internal programs stand by on their cores. -/
def Dev.bundleBegin (s : Dev) (j : Job) : Dev :=
  let d := j.desc
  let rd := fun (s : Dev) o n e => s.slvRead j.ctx (dN d o) ((List.range n).map fun i => (dN d (o + 4) + e * i, e))
  let (b1, cams, s) := rd s 0x4C (bunCams d) 64
  let (b2, pts, s) := rd s 0x54 (bunPts d) 16
  let (b3, obs, s) := rd s 0x5C (bunObs d) 16
  let fail := fun (s : Dev) o => s.slvFail 5 j .dataPoisoned (s.slvAddr (dN d o) (dN d (o + 4)))
  if b1 then fail s 0x4C else if b2 then fail s 0x54 else if b3 then fail s 0x5C
  else
    let b : Bundle :=
      { id := j.id, ctx := j.ctx, np := bunNp d, ncam := bunCams d, intr := bunIntr d, cores := bunCores d, iters := dF d 0x6C 16 5
        fix := if bunFixEn d then some (bunFix d) else none, huber := dW d 0x78, zmin := dW d 0x7C, tolCost := dW d 0x74
        mu := dW d 0x70, cams, pts, obs }
    let b := { b with nrej := ((List.range b.pts.length).filter fun p => !b.moves p).length }
    let s := (coresOf b.cores).foldl (fun (s : Dev) k =>
      let p : Prog := { route := 256, ctx := j.ctx, lcore := 0, bank := 0, st := .ended }
      s.setCore k { s.core k with progs := (s.core k).progs ++ [p] }) s
    ((s.setJob 5 { j with phase := 1 }).setBundle (some b)).workFree j

/-- BUNDLE: the oldest BUNDLE starts when none runs. -/
def Dev.bundleStart (s : Dev) : Dev :=
  match (s.jq 5).jobs.find? (·.phase == 0) with
  | none => s
  | some j =>
    if s.eng.bundle.isSome || !s.blkRuns 0x68000 then s else (s.perfCycles 0x68000 3).slvChecked 5 j fun s => s.bundleBegin j

def execBundle (s : State) : Host.Outcome State Fault Refusal := .next { s with toDev := s.toDev.bundleStart }

/-- The BUNDLE ends: its cores are free, its result record is formed. -/
def Dev.bundleEnd (s : Dev) (j : Job) (b : Bundle) : Dev :=
  let r : SlvRes := { stag := b.stag, nonfin := b.nonfin, steps := b.steps, iters := b.it, norm := some b.norm
                      cnt := { n := b.nreg, first := b.first, neg := b.neg }, nrej := b.nrej, costs := some (b.cost0, b.cost, b.mu) }
  (((s.bundleLeave b).setBundle none).slvFinish 5 j r 0 (r.payload b.norm)).pumpAll

/-- An iteration ends: a step of lower cost is accepted and written, μ moves, and the job may end (R311). -/
def Dev.bundleIter (s : Dev) (j : Job) (b : Bundle) : Dev :=
  let d := j.desc
  let ok := flt b.sum b.cost
  let old := b.cost
  let s :=
    if ok then
      let s := s.slvWrite j.ctx (dN d 0x4C) (b.newCams.zipIdx.map fun c => (dN d 0x50 + 64 * c.2, c.1))
      s.slvWrite j.ctx (dN d 0x54) (b.newPts.zipIdx.map fun p => (dN d 0x58 + 16 * p.2, p.1))
    else s
  let b :=
    if ok then { b with cams := b.newCams, pts := b.newPts, cost := b.sum, mu := fmax (fmul b.mu 0x3E800000) 0x2EDBE6FF
                        nonfin := b.nonfin || !(allFinite b.newCams && allFinite b.newPts) }
    else { b with mu := fmul b.mu 0x40800000 }
  let b := { b with it := b.it + 1, phase := 1, k := 0, sub := 0, sum := 0 }
  let s := (s.irq 0x68000 3).workFree j
  let stop := decide (b.iters ≤ b.it) || (ok && fle (fsub old b.cost) (fmul b.tolCost old)) || flt 0x501502F9 b.mu
  if stop then s.bundleEnd j b else s.setBundle (some b)

/-- Chunks of 256 of *n* things. -/
def chunks256 (n : Nat) : Nat := (n + 255) / 256

/-- A share of the trailing update runs on a core: the window and the weight stage are the internal program's (R346). -/
def Dev.shareRun (s : Dev) (k : Nat) (b : Bundle) : Dev :=
  let (w, n) := s.window b.ctx
  let (bs, s) := s.drawBytes 76 n
  let s := s.asStore k w bs false
  let (ws, s) := s.drawBytes 77 (2 ^ 21)
  let s := match s.progOf k 256 with
    | some p => s.setProg k { p with st := .ended }
    | none => s
  (s.setCore k { s.core k with cur := none, ws := storeBytes (s.core k).ws 0 ws }).pumpAll

/-- The internal programs become runnable: phase 6 begins. -/
def Dev.sharesReady (s : Dev) (b : Bundle) : Dev :=
  let s := s.setBundle (some { b with phase := 6, sub := 0, shares := coresOf b.cores })
  ((coresOf b.cores).foldl (fun (s : Dev) k => match s.progOf k 256 with
    | some p => s.setProg k { p with st := .ready, since := s.ns }
    | none => s) s).pumpAll

/-- The core whose share of the trailing update can run. -/
def Dev.shareCore (s : Dev) (b : Bundle) : Option Nat :=
  b.shares.find? fun k => match s.prog k with
    | some p => p.route == 256 && p.st == .run && !p.halt && s.blkRuns (corePage k 0)
    | none => false

/-- One sub-operation of the running BUNDLE. -/
def Dev.subop (s : Dev) (j : Job) (b : Bundle) : Dev :=
  let d := j.desc
  let go := fun (s : Dev) b => s.setBundle (some b)
  match b.phase with
  | 1 =>
    let l := (b.obs.drop (256 * b.sub)).take 256
    let look := (b.obs.drop (256 * b.sub - 1)).take 257
    if b.it = 0 ∧ obsBad b.ncam b.pts.length (if b.sub = 0 then l else look) = true then
      ((s.bundleLeave b).setBundle none).slvFail 5 j .ctxFaultCmd (jobTag 4 d)
    else
      let (c, r) := b.costOver b.cams b.pts l b.sum
      let s := s.perf 0x68000 1 l.length
      let b := { b with sum := c, nrej := b.nrej + r, sub := b.sub + 1 }
      if b.sub < chunks256 b.obs.length then go s b
      else go s { b with phase := 2, sub := 0, cost := c, cost0 := if b.it = 0 then c else b.cost0 }
  | 2 => go s { b with phase := 3, sub := 0 }
  | 3 =>
    if b.sub + 1 < chunks256 b.pts.length then go s { b with sub := b.sub + 1 }
    else
      let (free, s) := s.freeWords 78
      go s { b.schur free with phase := 4, sub := 0, k := 0 }
  | 4 =>
    let b := b.diagStep (slvTau d) (slvLam d)
    if b.k + 1 < b.nb then go s { b with phase := 5, sub := 0 } else go s { b with phase := 7, sub := 0 }
  | 5 =>
    let b := b.panelStep (b.k + 1 + b.sub)
    if b.k + 2 + b.sub < b.nb then go s { b with sub := b.sub + 1 } else s.sharesReady b
  | 6 =>
    match s.shareCore b with
    | none => s
    | some k =>
      let b := { b with shares := b.shares.erase k }
      let s := s.shareRun k b
      if b.shares = [] then go s { b.trailStep with phase := 4, sub := 0, k := b.k + 1 } else go s b
  | 7 =>
    if b.sub + 1 < b.nb then go s { b with sub := b.sub + 1 }
    else go s { b.camStep (slvTol d) (slvMaxref d) with phase := 8, sub := 0 }
  | _ =>
    let np := chunks256 b.pts.length
    if b.sub + 1 < np then go s { b with sub := b.sub + 1 }
    else if b.sub + 1 = np then
      let (free, s) := s.freeWords 79
      go s { b.ptStep free with sub := b.sub + 1, sum := 0 }
    else
      let l := (b.obs.drop (256 * (b.sub - np))).take 256
      let (c, r) := b.costOver b.newCams b.newPts l b.sum
      let b := { b with sum := c, nrej := b.nrej + r, sub := b.sub + 1 }
      if b.sub < np + chunks256 b.obs.length then go s b else s.bundleIter j b

/-- BUNDLE_SUBOP: the BUNDLE goes on when every other job already queued has run (R312). -/
def Dev.bundleSubop (s : Dev) : Dev :=
  match s.eng.bundle with
  | none => s
  | some b => match (s.jq 5).jobs.find? fun j => j.id == b.id && j.phase == 1 with
    | none => s
    | some j =>
      if ((s.jq 4).jobs.any (·.phase == 0)) || !s.blkRuns 0x68000 then s
      else ((s.maxCycles R.slvSubopMax).perfCycles 0x68000 3).subop j b

def execBundleSubop (s : State) : Host.Outcome State Fault Refusal := .next { s with toDev := s.toDev.bundleSubop }

end Sys2Proof.Machine
end

