-- ==== Sys2Proof/Machine/Venc.lean ====
section
/-! DEFINITION. The evidence encoder: requests and the queue, the span, masking and scaling, rate control, the clip object and its
copy (R317-R330). The bytes that the standards H.264, HEVC and AES-GCM compute are free values. -/

namespace Sys2Proof.Machine

/-! ### The clip descriptor -/

/-- Fields of a clip's descriptor. -/
def Clip.codec (q : Clip) : Nat := dF q.desc 0 12 1
def Clip.rc (q : Clip) : Nat := dF q.desc 0 13 1
def Clip.outPool (q : Clip) : Nat := dF q.desc 4 0 4
def Clip.picPool (q : Clip) : Nat := dF q.desc 4 4 4
def Clip.outW (q : Clip) : Nat := dF q.desc 0x24 0 16
def Clip.outH (q : Clip) : Nat := dF q.desc 0x24 16 16
def Clip.dest (q : Clip) : HAddr := { dram := bitN (dQ q.desc 0x18) 63, addr := dQ q.desc 0x18 % 2 ^ 63 }
def Clip.maxBytes (q : Clip) : Nat := dN q.desc 0x20

/-- REFRESH_P: 0 means 30. -/
def Clip.refreshP (q : Clip) : Nat := if dF q.desc 4 8 8 = 0 then 30 else dF q.desc 4 8 8

/-- KEY_ID: the slot, or 0x8000 + KEY_TAG (R327). -/
def clipKeyId (d : List Byte) : Nat := if dF d 0 14 1 = 0 then dF d 0 16 2 else 0x8000 + dF d 0x54 0 15

/-- The illegal fields of a clip descriptor. -/
def clipBad (d : List Byte) : Bool :=
  let odd := fun v => v % 2 == 1
  let ow := dF d 0x24 0 16
  let oh := dF d 0x24 16 16
  dF d 4 8 8 == 1 || decide (dQ d 16 < dQ d 8) || decide (dN d 0x20 < 4096)
    || odd ow || odd oh || decide (ow < 64) || decide (1920 < ow) || decide (oh < 64) || decide (1088 < oh)
    || odd (dF d 0x28 0 16) || odd (dF d 0x28 16 16) || odd (dF d 0x2C 0 16) || odd (dF d 0x2C 16 16)
    || dF d 0x2C 0 16 == 0 || dF d 0x2C 16 16 == 0 || dQ d 0x30 % 16 != 0 || decide (4096 < dF d 0x38 0 13)
    || !isFinite (dW d 0x3C) || !isFinite (dW d 0x40)
    || decide (dF d 0x48 16 8 < dF d 0x48 0 8) || decide (dF d 0x48 8 8 < dF d 0x48 16 8) || decide (51 < dF d 0x48 8 8)
    || dF d 0x48 24 8 == 0 || decide (12 < dF d 0x48 24 8) || dN d 0x4C == 0 || dF d 0x50 16 16 == 0

/-! ### Requests at the manager (R317) -/

/-- A clip request ends: a host command with its status and the clip ID, a TIME push by R362. A TIME push that fails a check
faults the entry's owner (R360). -/
def Dev.clipReply (s : Dev) (by_ : JobBy) (st : Status) (id : Nat) : Dev :=
  match by_ with
  | .cmd c seq => s.endCmd c seq st (if st.nm = .success then id else 0) 0x30
  | .time e =>
    if st.nm = .success then s.pushTaken e
    else if st.nm = .encBusy then s.pushRefused e (s.ent e).launched
    else if st.nm = .unitLost then s.pushTaken e
    else (s.ctxFault (s.ent e).owner st 0 e 0xFFFF).entDone e
  | _ => s

/-- The VENC of this unit refuses a clip, by the checks of the owner (R317, R318, R327). -/
def Dev.vencRefuse (s : Dev) (c : Nat) (d : List Byte) (timed : Bool) : Option Status :=
  let l := s.eng.venc.clips
  let wait := l.filter fun q => !q.run
  let ok := match s.strm (dF d 0 0 12) with
    | some x => x.ctx == c && x.mode != 0 && x.detach.isNone
    | none => false
  let pools := s.poolCls (dF d 4 0 4) == 3 && s.poolCls (dF d 4 4 4) == 0 && !s.poolAs (dF d 4 0 4) && !s.poolAs (dF d 4 4 4)
  let key := dF d 0 14 1 == 1 || bitN s.sec.evLoaded (dF d 0 16 2)
  if !ok || !pools || !key then some ⟨.ctxFaultCmd, 0xE⟩
  else if (dF d 0 15 1 = 1 ∧ l ≠ []) ∨ 8 ≤ wait.length ∨ (timed = false ∧ 6 ≤ (wait.filter fun q => !q.timed).length) then
    some ⟨.encBusy, 0xE⟩
  else none

/-- A clip joins the VENC queue of this unit, or is refused: an ENC_BUSY is counted and flagged. -/
def Dev.vencTake (s : Dev) (q : Clip) : Option Status × Dev :=
  match s.vencRefuse q.ctx q.desc q.timed with
  | some st =>
    (some st, if st.nm = .encBusy then (s.satInc R.vencRefused 1).irq 0x48000 1 else s)
  | none =>
    let v := s.eng.venc
    (none, (s.setVenc { v with clips := v.clips ++ [q] }).vencStat)

/-- Requests of the manager by number. -/
def Dev.clipReq (s : Dev) (n : Nat) : Option ClipReq := s.eng.venc.reqs.find? (·.n == n)

/-- A request is no longer outstanding. -/
def Dev.dropReq (s : Dev) (n : Nat) : Dev :=
  let v := s.eng.venc
  s.setVenc { v with reqs := v.reqs.filter (·.n != n) }

/-- The request's clip goes to the VENC of the unit that owns the stream, with its clip ID (R317). -/
def Dev.clipPush (s : Dev) (q : ClipReq) (masks : List Byte) : Dev :=
  let k := dF q.desc 0 0 12
  match s.inRing k with
  | none => (s.dropReq q.n).clipReply q.by_ ⟨.ctxFaultCmd, 8⟩ 0
  | some r =>
    let v := s.eng.venc
    let n := Tab.get (fun _ => 1) v.counts r.unit
    let id := r.unit * 2 ^ 28 + n
    let timed := match q.by_ with
      | .time _ => true
      | _ => false
    let s := s.setVenc { v with counts := Tab.set (fun _ => 1) v.counts r.unit (if n = 0x0FFFFFFF then 1 else n + 1) }
    let s := s.setClipReq q.n fun q => { q with id, masks := some masks }
    if r.unit = s.addr then
      let (st, s) := s.vencTake { id, ctx := q.ctx, stream := k, camera := r.camera, desc := q.desc, masks, timed }
      match st with
      | some st => (s.dropReq q.n).clipReply q.by_ st 0
      | none => s
    else if !s.unitIn r.unit then (s.dropReq q.n).clipReply q.by_ ⟨.unitLost, 8⟩ 0
    else s.fwSend r.unit (.clipPush id q.ctx r.camera timed q.desc masks)

/-- Requests whose mask entries have come from host memory go on; one whose read failed ends with that status (R102). -/
def Dev.pollReqs (s : Dev) : Dev :=
  (s.eng.venc.reqs.filter (·.id == 0)).foldl (fun (s : Dev) (q : ClipReq) =>
    match q.bad, q.masks with
    | some st, _ => (s.dropReq q.n).clipReply q.by_ st 0
    | none, some m => s.clipPush q m
    | none, none => s) s

/-- A clip request with its descriptor at hand: the manager's checks, then its mask entries (R317, R321). -/
def Dev.clipSubmit (s : Dev) (by_ : JobBy) (c : Nat) (d : List Byte) : Dev :=
  let v := s.eng.venc
  let q : ClipReq := { n := v.next, by_, ctx := c, desc := d }
  let dest : HAddr := { dram := bitN (dQ d 0x18) 63, addr := dQ d 0x18 % 2 ^ 63 }
  let mask : HAddr := { dram := bitN (dQ d 0x30) 63, addr := dQ d 0x30 % 2 ^ 63 }
  let len := 48 * dF d 0x38 0 13
  let mine := (s.inRing (dF d 0 0 12)).any fun r => r.ctx == c
  let (u, s) := if dF d 0 14 1 = 1 then s.draw 82 else (0, s)
  if clipBad d || !mine || (dF d 0 14 1 == 1 && (!s.sec.kekLoaded || u % 2 == 1)) then s.clipReply by_ ⟨.ctxFaultCmd, 8⟩ 0
  else if dest.dram && (s.ctxDram c dest.addr (dN d 0x20)).isNone then s.clipReply by_ ⟨.ctxFaultAddr, 8⟩ 0
  else
    let s := s.setVenc { v with next := v.next + 1, reqs := v.reqs ++ [q] }
    if len = 0 then s.clipPush q []
    else if mask.dram then
      match s.ctxDram c mask.addr len with
      | none => (s.dropReq q.n).clipReply by_ ⟨.ctxFaultAddr, 8⟩ 0
      | some a =>
        let (bad, bs, s) := s.memRd c a len
        if bad then (s.dropReq q.n).clipReply by_ ⟨.dataPoisoned, 8⟩ 0 else s.clipPush q bs
    else s.hostRd { tag := 0, fn := (s.ctxVec c).1, for_ := .masks c q.n, addr := mask.addr, len }

/-- CLIP_REQUEST: the descriptor is read from the address it names (R317). -/
def Dev.clipRequest (c : Nat) (w : List Word) (s : Dev) : Dev :=
  s.dramOperand c w (hAddrAt w 8) 128 fun s => s.clipSubmit (.cmd c (hSeq w)) c (((s.ctx c).opData.getD []).take 128)

def execClipRequest (c : Nat) (s : State) : Host.Outcome State Fault Refusal :=
  .next { s with toDev := s.toDev.hostCmd c 0x30 (Dev.clipRequest c) }

/-- VENC of unit `u` has answered a request: its clip is accepted, or refused (R317, R330). -/
def Dev.clipAnswer (s : Dev) (id : Nat) (st : Status) : Dev :=
  match s.eng.venc.reqs.find? (·.id == id) with
  | none => s
  | some q =>
    let u := id / 2 ^ 28
    let camera := ((s.inRing (dF q.desc 0 0 12)).map (·.camera)).getD 0xFFFF
    let s := s.dropReq q.n
    let v := s.eng.venc
    let s := if st.nm = .success ∧ u ≠ s.addr then
        s.setVenc { v with taken := v.taken ++ [{ unit := u, ctx := q.ctx, id, stream := dF q.desc 0 0 12, camera
                                                  dest := dQ q.desc 0x18, key := clipKeyId q.desc }] }
      else s
    s.clipReply q.by_ st id

/-- The owner tells the manager how a clip's request ended. -/
def Dev.clipTell (s : Dev) (id : Nat) (st : Status) : Dev :=
  if s.isMgr then s.clipAnswer id st else s.fwSend 0 (.clipAns id st)

/-- A clip pushed by the manager reaches the owner's VENC. -/
def Dev.clipArrive (s : Dev) (id c camera : Nat) (timed : Bool) (d masks : List Byte) : Dev :=
  let (st, s) := s.vencTake { id, ctx := c, stream := dF d 0 0 12, camera, desc := d, masks, timed }
  match st with
  | some st => s.clipTell id st
  | none => s

/-! ### Acceptance and the clip slot (R319, R320) -/

/-- Change clip `id`. -/
def Dev.modClip (s : Dev) (id : Nat) (f : Clip → Clip) : Dev := s.modClips (·.id == id) f

/-- The running clip. -/
def Dev.runClip (s : Dev) : Option Clip := s.eng.venc.clips.find? (·.run)

/-- With no running clip, the first of the queue runs once it is accepted: the clip slot of the engine with the fewest bound streams
decodes its span, and an OUT_POOL buffer is asked for (R320, R328). -/
def Dev.promote (s : Dev) : Dev :=
  match s.runClip, s.eng.venc.clips with
  | some _, _ => s
  | none, [] => s
  | none, q :: _ =>
    if !q.acc then s
    else
      let x : Stream := { ctx := q.ctx, camera := q.camera, opts := 0x80, bs := 0, picPool := q.picPool, twinPool := 0, route := 0
                          eng := some s.leastEngine, queue := q.span, clip := some q.stream }
      let (b, s) := (s.setStrm clipKey (some x)).want 68 q.ctx q.outPool
      ((s.modClip q.id fun q => { q with run := true, span := [], buf := b }).askPic clipKey).vencStat

/-- The retained access units from the clip's first one on, and whether START_CTS lies before them (R319). -/
def spanOf (t : Nat) (l : List Au) : List Au × Bool :=
  let rec go (best : Option (List Au)) : List Au → Option (List Au)
    | [] => best
    | a :: r => if a.start && decide (a.cts ≤ t) then go (some (a :: r)) r else go best r
  match go none l with
  | some l => (l, false)
  | none => (l.dropWhile fun a => !a.start, true)

/-- VENC accepts a clip: it takes its span's references, and the command completes (R317, R319). -/
def Dev.acceptClip (s : Dev) (q : Clip) : Dev :=
  match s.strm q.stream with
  | none => ((s.setVenc { s.eng.venc with clips := s.eng.venc.clips.filter (·.id != q.id) }).clipTell q.id ⟨.ctxFaultCmd, 0xE⟩).vencStat
  | some x =>
    let (l, clamped) := spanOf q.startCts x.retain
    let span := (l.takeWhile fun a => decide (a.cts ≤ q.endCts)).map fun a => ({ a with pic := .no, twin := .no } : Au)
    let grow := span.length == l.length
    let s := span.foldl (fun (s : Dev) a => (s.ref 68 q.ctx a.h).2) s
    (s.modClip q.id fun q => { q with acc := true, span, grow, clamped }).clipTell q.id .ok

/-- CLIP_START: requests whose masks have come go on, VENC accepts its oldest waiting clip, and the first of the queue runs when
none does. -/
def Dev.clipStart (s : Dev) : Dev :=
  let s := s.pollReqs
  if s.blkRuns 0x48000 = false ∨ s.boot.codecOk = false then s
  else
    let s := match s.eng.venc.clips.find? fun q => !q.acc with
      | some q => s.acceptClip q
      | none => s
    s.promote

def execClipStart (s : State) : Host.Outcome State Fault Refusal := .next { s with toDev := s.toDev.clipStart }

/-- CLIP_WAIT_EXPIRY: WAIT_MS has passed since clip `id` was accepted (R319). -/
def Dev.clipExpiry (s : Dev) (id : Nat) : Dev :=
  s.modClip id fun q => if q.acc && q.grow then { q with grow := false, short := true } else q

def execClipWaitExpiry (id : Nat) (s : State) : Host.Outcome State Fault Refusal :=
  .next { s with toDev := s.toDev.clipExpiry id }

/-! ### Masking and scaling (R321, R322) -/

/-- A mask entry. -/
structure MaskEnt where
  reveal : Bool
  fromT : Nat
  toT : Nat
  x0 : Word
  y0 : Word
  x1 : Word
  y1 : Word
  deriving DecidableEq, Repr

/-- The mask entries of a clip that apply at capture time `t`, their boxes mapped to coded coordinates. -/
def Clip.masksAt (q : Clip) (t : Nat) : List MaskEnt :=
  let sx := dW q.desc 0x3C
  let sy := dW q.desc 0x40
  ((List.range (q.masks.length / 48)).map fun i =>
    let d := (q.masks.drop (48 * i)).take 48
    ({ reveal := dF d 4 0 1 == 1, fromT := dQ d 8, toT := dQ d 0x10, x0 := fmul (dW d 0x18) sx, y0 := fmul (dW d 0x1C) sy
       x1 := fmul (dW d 0x20) sx, y1 := fmul (dW d 0x24) sy } : MaskEnt)).filter fun e => decide (e.fromT ≤ t) && decide (t ≤ e.toT)

/-- *v* + 0.5 lies in [`lo` − `m`, `hi` + `m`). The sums *v* + 0.5 ± `m` are exact in FP32. -/
def inBox (v m : Nat) (lo hi : Word) : Bool :=
  let half := fun (i : Int) => fmul (fofInt i) 0x3F000000
  let a := half (2 * (v + m) + 1)
  let b := half (2 * ((v : Int) - m) + 1)
  !isNaN lo && !isNaN hi && !flt a lo && flt b hi

/-- A luma sample lies inside an entry. -/
def MaskEnt.has (e : MaskEnt) (m x y : Nat) : Bool := inBox x m e.x0 e.x1 && inBox y m e.y0 e.y1

/-- A luma sample is hidden. -/
def Clip.hides (q : Clip) (l : List MaskEnt) (x y : Nat) : Bool :=
  let m := dF q.desc 0x38 16 8
  let dflt := dF q.desc 0 19 1 == 0
  !((dflt || l.any fun e => e.reveal && e.has m x y) && !(l.any fun e => !e.reveal && e.has m x y))

/-- A chroma sample is hidden. -/
def Clip.hidesC (q : Clip) (l : List MaskEnt) (cx cy : Nat) : Bool :=
  q.hides l (2 * cx) (2 * cy) || q.hides l (2 * cx + 1) (2 * cy) || q.hides l (2 * cx) (2 * cy + 1) || q.hides l (2 * cx + 1) (2 * cy + 1)

/-- The masked picture. -/
def Clip.mask (q : Clip) (l : List MaskEnt) (p : Planes) : Planes :=
  { y := p.y.zipIdx.map fun r => r.1.zipIdx.map fun v => if q.hides l v.2 r.2 then dF q.desc 0x44 0 8 else v.1
    c := p.c.zipIdx.map fun r => r.1.zipIdx.map fun v =>
      if q.hidesC l (v.2 / 2) r.2 then dF q.desc 0x44 (if v.2 % 2 = 0 then 8 else 16) 8 else v.1 }

/-- The scaler's job: the crop rectangle to OUT_W × OUT_H, MODE AXIS, BORDER CLAMP, BILINEAR or AREA (R322). -/
def Clip.scaler (q : Clip) (w h : Nat) : Ppu :=
  { mode := 0, rot := 0, flipH := false, flipV := false, filter := if dF q.desc 0 18 1 = 1 then 3 else 1, fill := false, matrix := 0
    chans := 2, fmt := 0, ten := false, srcW := w, srcH := h, sx := dF q.desc 0x28 0 16, sy := dF q.desc 0x28 16 16
    sw := dF q.desc 0x2C 0 16, sh := dF q.desc 0x2C 16 16, ow := q.outW, oh := q.outH, lx := 0, ly := 0, cw := q.outW
    ch := q.outH, fills := [], norm := [], m := [] }

/-- The block unit of the codec (R323). -/
def Clip.unit (q : Clip) : Nat := if q.codec = 0 then 16 else 64

/-- The encoder's luma source: the scaled picture, its last column and row repeated to the coded size. -/
def Clip.lumaSrc (q : Clip) (x : Ppu) (p : Planes) : List (List Nat) :=
  let row := fun j =>
    let l := (List.range q.outW).map fun i => x.sample p 0 i j
    l ++ List.replicate (roundUp q.outW q.unit - q.outW) (l.getLastD 0)
  let l := (List.range q.outH).map row
  l ++ List.replicate (roundUp q.outH q.unit - q.outH) (l.getLastD [])

/-! ### Encoding (R324-R326, R328) -/

/-- The QP of the next picture: within [QP_MIN, QP_MAX] under FW_FRAME, where firmware chose `qp` (R325); by R326 under CQ_CAP. -/
def Clip.nextQp (q : Clip) (qp : Nat) : Nat :=
  let lo := dF q.desc 0x48 0 8
  let hi := dF q.desc 0x48 8 8
  if q.rc = 0 then max lo (min hi qp)
  else if q.index.length % dF q.desc 0x50 16 16 = 0 then dF q.desc 0x48 16 8
  else if dN q.desc 0x4C ≤ q.win then hi
  else if dN q.desc 0x4C * 7 < (q.win + q.last) * 8 then min hi (q.qp + dF q.desc 0x48 24 8)
  else q.qp

/-- The intra columns of picture `k`: all of them in picture 0, then the sweep's (R324). -/
def Clip.intraCols (q : Clip) (k : Nat) : Nat × Nat :=
  let c := roundUp q.outW q.unit / q.unit
  let p := q.refreshP
  if k = 0 then (0, c) else let i := (k - 1) % p; (i * c / p, (i + 1) * c / p)

/-- The picture is encoded to `bytes` bytes: its index entry, and the encoder's state. -/
def Clip.add (q : Clip) (p : Pic) (bytes qp : Nat) (y : List (List Nat)) (c : List (List Nat)) : Clip :=
  let k := q.index.length
  let win := if q.rc = 1 ∧ k % dF q.desc 0x50 16 16 ≠ 0 then q.win + bytes else bytes
  { q with
    index := q.index ++ [{ cts := p.cts, off := q.size, qp, recov := p.recov, conc := p.conc != 0 }]
    size := q.size + bytes, srcY := y, srcC := c, intra := q.intraCols k, sei := k != 0 && (k - 1) % q.refreshP == 0
    win, last := bytes, qp, pics := q.pics.drop 1 }

/-- Bytes of a clip's object with `n` pictures and a stream of `size` bytes (R328). -/
def objBytes (n size : Nat) : Nat := 80 + 16 * n + size

/-- Poll the running clip's OUT_POOL allocation: a refusal ends the clip with the BPM's status. -/
def Dev.pollClip (s : Dev) : Dev :=
  match s.runClip with
  | none => s
  | some q =>
    let (b, e, s) := s.poll q.buf
    let s := s.modClip q.id fun q => { q with buf := b }
    match e with
    | some st => s.clipFail st
    | none => s

/-- The clip slot has decoded all of a span that no longer grows. -/
def Dev.spanDone (s : Dev) (q : Clip) : Bool :=
  !q.grow && ((s.strm clipKey).all fun x => x.queue.isEmpty) && (List.range 4).all fun n => ((s.vdec n).job.map (·.stream)) != some clipKey

/-- At the end of the span, the pictures that still wait for output are output, in order of capture time. -/
def Dev.clipFlush (s : Dev) : Dev :=
  match s.runClip, s.strm clipKey with
  | some q, some x =>
    if s.spanDone q then
      let l := (x.dpb.filter (·.wait)).mergeSort fun a b => decide (a.pic.cts ≤ b.pic.cts)
      l.foldl (fun (s : Dev) d => s.outputPic clipKey d.pic.h) s
    else s
  | _, _ => s

/-- VENC encodes the clip's next decoded picture: masked, scaled, then encoded with `bytes` bytes, or left out because the object
would grow too large (R321-R328). A crop that passes the picture is illegal when the picture shows it (R194, R322; DEDUCED,
notes/assumptions/27). -/
def Dev.encodeNext (s : Dev) (q : Clip) (p : Pic) (h bytes qp : Nat) : Dev :=
  let x := q.scaler p.w p.hgt
  let a := s.hAddr p.h
  let (bad, src, s) := s.ppuSource q.ctx x a
  if p.w < x.sx + x.sw ∨ p.hgt < x.sy + x.sh then s.ctxFault q.ctx ⟨.ctxFaultCmd, 0xE⟩ 0 q.id 0xFFFF
  else if bad then (s.irq 0x48000 18).ctxFault q.ctx ⟨.dataPoisoned, 0xE⟩ 0 a 0xFFFF
  else if min q.maxBytes (s.poolSize (hPool h)) < objBytes (q.index.length + 1) (q.size + bytes) then
    let s := q.pics.foldl (fun (s : Dev) p => s.unref 68 q.ctx p.h) s
    (s.modClip q.id fun q => { q with full := true, short := true, grow := false, pics := [] }).endStream clipKey
  else
    let y := q.lumaSrc x (q.mask (q.masksAt p.cts) src)
    let (c, s) := s.drawRows 83 (roundUp q.outH q.unit / 2) (roundUp q.outW q.unit) 8
    let s := s.modClip q.id fun q => q.add p bytes (q.nextQp qp) y c
    let s := ((s.unref 68 q.ctx p.h).perf 0x48000 1 1).maxCycles R.vencEncMax
    (s.perfCycles 0x48000 3).vencStat

/-- ENCODE_PICTURE: `bytes` is what the coded picture takes, `qp` what firmware chose under FW_FRAME. -/
def Dev.encodePicture (s : Dev) (bytes qp : Nat) : Dev :=
  if s.blkRuns 0x48000 = false ∨ s.boot.codecOk = false then s
  else
    let s := s.promote.pollClip.clipFlush
    match s.runClip with
    | none => s
    | some q => match q.buf, q.pics with
      | .got h, p :: _ => s.encodeNext q p h bytes qp
      | _, _ => s

def execEncodePicture (bytes qp : Nat) (s : State) : Host.Outcome State Fault Refusal :=
  .next { s with toDev := s.toDev.encodePicture bytes qp }

/-! ### Encryption, the copy to DEST, the record (R327, R328) -/

/-- The header of a clip's object: the additional authenticated data. -/
def Clip.header (q : Clip) (serial iv : Nat) : List Byte :=
  let n := q.index.length
  let flags := bN q.clamped + bN q.short * 2 + bN (q.index.any (·.recov)) * 4 + bN (q.index.any (·.conc)) * 8 + bN (n == 0) * 16
  bytesOf 4 0x50494C43 ++ bytesOf 4 (1 + q.codec * 65536) ++ bytesOf 4 q.id ++ bytesOf 4 (clipKeyId q.desc + flags * 65536)
    ++ bytesOf 4 (q.outW + q.outH * 65536) ++ bytesOf 4 n ++ bytesOf 8 q.startCts ++ bytesOf 8 q.endCts
    ++ bytesOf 4 serial ++ bytesOf 8 iv ++ bytesOf 4 (16 * n + q.size) ++ bytesOf 8 serial

/-- The next IV counter value: seeded with a random value at every reset (R327). -/
def Dev.clipIv (s : Dev) : Nat × Dev :=
  let (seed, s) := match s.eng.venc.iv with
    | some n => (n, s)
    | none => s.draw 84
  (seed % 2 ^ 64, s.setVenc { s.eng.venc with iv := some ((seed + 1) % 2 ^ 64) })

/-- The clip object: header, ciphertext and tag. -/
def Dev.clipObject (s : Dev) (q : Clip) : List Byte × Dev :=
  let (iv, s) := s.clipIv
  let (pay, s) := s.drawBytes 81 (16 * q.index.length + q.size)
  let (tag, s) := s.drawBytes 85 16
  (q.header s.sec.serial iv ++ pay ++ tag, s)

/-- The manager writes a clip's object at DEST. -/
def Dev.destWrite (s : Dev) (c dest : Nat) (bs : List Byte) : Dev :=
  if s.ctxSt c ≠ 1 then s
  else if bitN dest 63 then match s.ctxDram c (dest % 2 ^ 63) bs.length with
    | some a => s.memWr c a bs false
    | none => s
  else s.hostWr (s.ctxVec c).1 (dest % 2 ^ 63) bs

/-- CLIP_READY. -/
def Dev.clipRecord (s : Dev) (q : Clip) : List Word :=
  let sent := q.st.nm == .success
  let n := if sent then q.index.length else 0
  let len := if sent then objBytes n q.size else 0
  let dest := dQ q.desc 0x18
  let t0 := if sent then (q.index.head?.map (·.cts)).getD 0 else 0
  let t1 := if sent then (q.index.getLast?.map (·.cts)).getD 0 else 0
  recHead s.addr 7 0 q.stream q.camera 0 s.ns ++ [Word.ofNat q.id, Word.ofNat q.st.code, Word.ofNat dest, Word.ofNat (dest / 2 ^ 32),
    Word.ofNat len, Word.ofNat n, Word.ofNat t0, Word.ofNat (t0 / 2 ^ 32), Word.ofNat t1, Word.ofNat (t1 / 2 ^ 32),
    Word.ofNat (clipKeyId q.desc), 0]

/-- The clip ends: its buffer is released, CLIP_READY follows the data, and the next clip runs. -/
def Dev.clipEnd (s : Dev) (q : Clip) : Dev :=
  let s := s.endStream clipKey
  let s := s.dropClip q
  let v := s.eng.venc
  let s := s.setVenc { v with clips := v.clips.filter (·.id != q.id) }
  let s := s.record { ctx := q.ctx, words := s.clipRecord q, blk := 0xE, job := q.id }
  let s := if q.st.nm = .success then (((s.irq 0x48000 0).perf 0x48000 0 1).perf 0x48000 2 (objBytes q.index.length q.size / 64))
           else (s.irq 0x48000 16).capture 0x48000 q.st.code q.ctx (dQ q.desc 0x18) q.id
  s.vencStat.promote

/-- The object of a closed clip is built in its buffer and copied to DEST: at the manager at once, from a worker over the chain. -/
def Dev.clipCopy (s : Dev) (q : Clip) (h : Nat) : Dev :=
  let (obj, s) := s.clipObject q
  let s := s.memWr q.ctx (s.hAddr h) obj false
  if s.isMgr then
    let (ok, s) := s.hifMay 3 (s.hAddr h) q.ctx 68 true
    (if ok then s.destWrite q.ctx (dQ q.desc 0x18) obj else s).clipEnd q
  else
    let (ok, s) := s.chainMay 3 (s.hAddr h) 0 q.ctx 68
    if ok then (s.fwSend 0 (.clipData q.id q.ctx (dQ q.desc 0x18) obj)).modClip q.id fun q => { q with stage := 1 }
    else s.clipEnd q

/-- CLIP_CLOSE: the running clip ends once its span is encoded, it is full, or it failed. -/
def Dev.clipClose (s : Dev) : Dev :=
  if s.blkRuns 0x48000 = false then s
  else
    let s := s.promote.pollClip.clipFlush
    match s.runClip with
    | none => s
    | some q =>
      if q.st.nm ≠ .success ∨ q.stage = 2 then s.clipEnd q
      else if q.stage = 1 then s
      else match q.buf with
        | .got h => if (s.spanDone q && q.pics.isEmpty) || q.full then s.clipCopy q h else s
        | _ => s

def execClipClose (s : State) : Host.Outcome State Fault Refusal := .next { s with toDev := s.toDev.clipClose }

/-- The manager has written a worker's object. -/
def Dev.clipWritten (s : Dev) (id : Nat) : Dev := s.modClip id fun q => if q.stage = 1 then { q with stage := 2 } else q

/-- A lost unit's clips: CLIP_READY with UNIT_LOST for each that it had accepted, and its open requests fail (R330). -/
def Dev.clipsLost (s : Dev) (u : Nat) : Dev :=
  let v := s.eng.venc
  let mine := v.taken.filter (·.unit == u)
  let s := s.setVenc { v with taken := v.taken.filter (·.unit != u) }
  let s := mine.foldl (fun (s : Dev) (t : Taken) =>
    s.record { ctx := t.ctx, blk := 0xE, job := t.id
               words := recHead s.addr 7 0 t.stream t.camera 0 s.ns
                 ++ [Word.ofNat t.id, Word.ofNat (Status.code ⟨.unitLost, 0xE⟩), Word.ofNat t.dest, Word.ofNat (t.dest / 2 ^ 32), 0, 0, 0, 0,
                     0, 0, Word.ofNat t.key, 0] }) s
  (s.eng.venc.reqs.filter fun q => q.id != 0 && q.id / 2 ^ 28 == u && u != s.addr).foldl (fun (s : Dev) (q : ClipReq) =>
    (s.dropReq q.n).clipReply q.by_ ⟨.unitLost, 8⟩ 0) s

/-- A CLIP_READY of another unit has been accepted: its clip is reported. -/
def Dev.clipReported (s : Dev) (id : Nat) : Dev :=
  let v := s.eng.venc
  s.setVenc { v with taken := v.taken.filter (·.id != id) }

/-- The oldest waiting record of context `c` is accepted; a CLIP_READY of another unit reports its clip (R100, R330). -/
def Dev.recordTaken (s : Dev) (c : Nat) : Dev :=
  let l := (s.ctx c).mqWait
  let s := s.acceptRecord c
  match l with
  | r :: _ =>
    if (s.ctx c).mqWait.length < l.length ∧ r.unit ≠ 0 ∧ (r.words.headD 0).fld 0 4 = 7 then
      s.clipReported ((r.words.drop 4).headD 0).toNat
    else s
  | [] => s

/-- METADATA_RECORD (R100). -/
def execMetadataRecord (c : Nat) (s : State) : Host.Outcome State Fault Refusal :=
  .next { s with toDev := s.toDev.recordTaken c }

end Sys2Proof.Machine
end

