-- ==== Sys2Proof/Machine/Timetable.lean ====
section
/-! DEFINITION. The timetable: arming, launches, lateness, capture instants, and SYNC_IN, SYNC_OUT (R352, R355-R364). -/

namespace Sys2Proof.Machine

/-! ### Launches (R358, R360) -/

/-- The PPU that a TIME push goes to: the one with fewer queued jobs. -/
def Dev.ppuFor (s : Dev) : Nat := if (s.jq 2).jobs.length < (s.jq 1).jobs.length then 2 else 1

/-- The target of entry `e` is down (R12): SCHED, the PPU, or the VENC of this unit. -/
def Dev.targetDown (s : Dev) (x : Ent) : Bool :=
  match x.action with
  | 1 => s.schedDown
  | 2 => s.schedDown
  | 3 => !s.blkRuns (jqPage s.ppuFor)
  | 4 => s.schedDown || !s.blkRuns 0x48000
  | _ => false

/-- The owner faults at a launch: its descriptor names another context or fails the checks of its chapter (R360). -/
def Dev.launchFault (s : Dev) (e : Nat) (nm : Nm) : Dev := (s.ctxFault (s.ent e).owner ⟨nm, 0x13⟩ 0 e 0xFFFF).entDone e

/-- The picture of `l` whose capture time is nearest `i` (1/16 ns), the earlier on a tie. -/
def nearest (i : Int) (l : List Pic) : Option Pic :=
  l.foldl (fun b p => match b with
    | none => some p
    | some q =>
      let d := fun (x : Pic) => ((x.cts : Int) * 16 - i).natAbs
      if d p < d q ∨ (d p = d q ∧ p.cts < q.cts) then some p else some q) none

/-- A stream's part in a capture instant (R361): the picture nearest `i` in [`lo`, `hi`) joins, the others of the window are extra,
those before it stale, and those after it stay. -/
def Dev.instantTake (s : Dev) (r k : Nat) (x : Stream) (i lo hi : Int) : Dev :=
  let at_ := fun (p : Pic) => (p.cts : Int) * 16
  let inWin := x.ready.filter fun p => decide (lo ≤ at_ p) && decide (at_ p < hi)
  let stale := x.ready.filter fun p => decide (at_ p < lo)
  let pick := nearest i inWin
  let extra := match pick with
    | some p => inWin.erase p
    | none => inWin
  let s := s.setStrm k (some { x with ready := x.ready.filter fun p => decide (hi ≤ at_ p) })
  let s := (extra ++ stale).foldl (fun (s : Dev) p => s.dropPic x.ctx p) s
  let s := (s.satInc R.timeInstExtra extra.length).satInc R.timeInstStale stale.length
  match pick, s.route r with
  | some p, some y => s.setRoute r (some { y with waiting := y.waiting ++ [{ pic := p, camera := x.camera }] })
  | _, _ => s

/-- CLOSE of the occurrence scheduled at `t` (R361). -/
def Dev.launchClose (s : Dev) (e t : Nat) : Dev :=
  let x := s.ent e
  let r := fldN x.arg 0 8
  let ok := match s.route r with
    | some y => y.ctx == x.owner && (y.coach.map (·.kind)) == some 1 && !y.stopping
    | none => false
  if !ok then s.satInc R.timeNopCnt 1
  else
    let i : Int := (t : Int) - fldN x.arg 14 7 * 16000000
    let hi := i + fldN x.arg 8 6 * 16000000
    let lo := hi - x.per
    let mine := s.eng.streams.filter fun y => y.1 != clipKey && (match y.2 with
      | some z => z.ctx == x.owner && z.route == r
      | none => false)
    let s := mine.foldl (fun (s : Dev) y => match s.strm y.1 with
      | some z => s.instantTake r y.1 z i lo hi
      | none => s) s
    ((s.pictureClose r).perf 0x70000 3 1).coachAll

/-- PPU: the descriptor at ARG × 128 is pushed to the PPU with fewer queued jobs; a refused push is late (R177, R360, R362). -/
def Dev.launchPpu (s : Dev) (e t : Nat) : Dev :=
  let x := s.ent e
  match s.ctxDram x.owner (x.arg * 128) 128 with
  | none => s.launchFault e .ctxFaultCmd
  | some a =>
    let q := s.ppuFor
    if (s.byte a).toNat ≠ x.owner ∨ s.descBad q a = true then s.launchFault e .ctxFaultCmd
    else
      let (ok, s) := s.pushDesc q a (.time e)
      if ok then s.pushTaken e else s.pushRefused e t

/-- CLIP: the descriptor at ARG × 128 makes a clip request (R360). -/
def Dev.launchClip (s : Dev) (e : Nat) : Dev :=
  let x := s.ent e
  match s.ctxDram x.owner (x.arg * 128) 128 with
  | none => s.launchFault e .ctxFaultCmd
  | some a =>
    let (bad, bs, s) := s.memRd x.owner a 128
    if bad then s.launchFault e .dataPoisoned else s.clipSubmit (.time e) x.owner bs

/-- The action of entry `e`'s occurrence scheduled at `t` is launched. -/
def Dev.launch (s : Dev) (e t : Nat) : Dev :=
  let x := s.ent e
  let s := s.perf 0x70000 0 1
  match x.action with
  | 1 => (s.dbValue x.owner 0 (((s.ctx x.owner).sqTail + fldN x.arg 0 16) % 2 ^ 32)).pushTaken e
  | 2 => (s.launchClose e t).pushTaken e
  | 3 => s.launchPpu e t
  | 4 => s.launchClip e
  | 5 => (({ s with tim := { s.tim with pulses := s.tim.pulses ++ [s.ns + fldN x.arg 0 20 * 1000] } } : Dev).syncPin).pushTaken e
  | _ => s

/-- The entry's next occurrence is `n` periods on (R359). -/
def Dev.entAdvance (s : Dev) (e n : Nat) : Dev :=
  let x := s.ent e
  s.setEnt e { x with t := x.t + n * x.per }

/-- The due occurrences of entry `e` are late and are handled as one (R362). -/
def Dev.lateHandle (s : Dev) (e : Nat) : Dev :=
  let x := s.ent e
  let n := x.missed s.now16
  let s := (s.setEnt e { x with down := false, retry := none }).entAdvance e n
  match x.late with
  | 1 => (s.setEnt e { s.ent e with retry := some (x.t, n - 1) }).launch e x.t
  | 2 => (s.lateReport e n x.t).entDone e
  | _ => ((s.lateReport e n x.t).lateFault e).entDone e

/-- An occurrence whose refused push is still being retried counts as missed when the next one falls due (R362). -/
def Dev.retryMissed (s : Dev) (e : Nat) : Dev :=
  let x := s.ent e
  match x.retry with
  | some (t, n) => (s.setEnt e { x with retry := none }).lateReport e (n + 1) t
  | none => s

/-- A clip request of entry `e` is unanswered. -/
def Dev.clipOpen (s : Dev) (e : Nat) : Bool := s.eng.venc.reqs.any fun q => q.by_ == .time e

/-- Entry `e`'s due occurrence is launched, or waits for its target, or is handled as late (R358, R362). -/
def Dev.entRun (s : Dev) (e : Nat) : Dev :=
  let x := s.ent e
  if !x.due s.now16 || s.rb R.timeStat 1 || (x.per == 0 && s.clipOpen e) then s
  else if s.targetDown x then s.setEnt e { x with down := true }
  else if x.down then s.lateHandle e
  else ((s.retryMissed e).entAdvance e 1).launch e x.t

/-- A row of the actions: entry `e`'s occurrence when its ACTION is `act`. -/
def Dev.entRow (s : Dev) (e act : Nat) : Dev := if e < 256 ∧ (s.ent e).action = act then s.entRun e else s

def execSubmit (e : Nat) (s : State) : Host.Outcome State Fault Refusal := .next { s with toDev := s.toDev.entRow e 1 }
def execClose (e : Nat) (s : State) : Host.Outcome State Fault Refusal := .next { s with toDev := s.toDev.entRow e 2 }
def execPpu (e : Nat) (s : State) : Host.Outcome State Fault Refusal := .next { s with toDev := s.toDev.entRow e 3 }
def execClip (e : Nat) (s : State) : Host.Outcome State Fault Refusal := .next { s with toDev := s.toDev.entRow e 4 }
def execSync (e : Nat) (s : State) : Host.Outcome State Fault Refusal := .next { s with toDev := s.toDev.entRow e 5 }

/-- SYNC_PULSE_END: pulses whose time is over end; SYNC_OUT falls with the last (R360). -/
def Dev.pulseEnd (s : Dev) : Dev :=
  ({ s with tim := { s.tim with pulses := s.tim.pulses.filter fun t => decide (s.ns < t) } } : Dev).syncPin

def execSyncPulseEnd (s : State) : Host.Outcome State Fault Refusal := .next { s with toDev := s.toDev.pulseEnd }

/-- LATE_RETRY: the refused push of entry `e` is tried again (R362). -/
def Dev.lateRetry (s : Dev) (e : Nat) : Dev :=
  let x := s.ent e
  match x.retry with
  | none => s
  | some (t, _) => if s.rb R.timeStat 1 || s.clipOpen e || s.targetDown x || x.late != 1 then s else s.launch e t

def execLateRetry (e : Nat) (s : State) : Host.Outcome State Fault Refusal :=
  .next { s with toDev := if e < 256 then s.toDev.lateRetry e else s.toDev }

/-- HELD_REPORT_RELEASE: 100 ms have passed since entry `e`'s last LAUNCH_LATE (R363). -/
def execHeldReportRelease (e : Nat) (s : State) : Host.Outcome State Fault Refusal :=
  .next { s with toDev := if e < 256 then s.toDev.lateRaise e else s.toDev }

/-- Every due occurrence is late: at the return to D0 (R364). -/
def Dev.allLate (s : Dev) : Dev :=
  (s.tim.ents.filter fun x => x.2.due s.now16).foldl (fun (s : Dev) x => (s.setEnt x.1 { s.ent x.1 with down := true }).entRun x.1) s

/-! ### Arming (R356, R357) -/

/-- An entry's illegal contents for its owner on unit `u` (R356, R360, the entry's table). -/
def Dev.entBad (s : Dev) (c u : Nat) (x : Ent) : Bool :=
  decide (6 ≤ x.action) || (x.per != 0 && decide (x.per < 16000)) ||
    (match x.action with
      | 1 => u != 0 || fldN x.arg 0 16 == 0
      | 2 => x.per == 0 || decide (fldN x.arg 14 7 < fldN x.arg 8 6) || decide (x.per ≤ fldN x.arg 8 6 * 16000000)
      | 4 => u != 0
      | 5 => s.ctxVf c != 0 || fldN x.arg 0 20 == 0 || decide (1000000 ≤ fldN x.arg 0 20)
      | _ => false)

/-- The entry that two quads spell. -/
def entOf (t w c : Nat) : Ent := { t := t * 16, w, owner := c }

/-- Occurrences of entry `e` that are due launch under its old contents (R357). -/
def Dev.entFlush (s : Dev) (e fuel : Nat) : Dev :=
  match fuel with
  | 0 => s
  | fuel + 1 => if (s.ent e).due s.now16 ∧ s.targetDown (s.ent e) = false then (s.entRun e).entFlush e fuel else s

/-- How often an entry may launch before its next time is past shop time. -/
def Dev.entFuel (s : Dev) (e : Nat) : Nat := if (s.ent e).due s.now16 then (s.ent e).missed s.now16 else 0

/-- Entry `e` gets new contents; a time that has passed is late (R362). What a held report gathered stays with its owner. -/
def Dev.entPut (s : Dev) (e : Nat) (x : Ent) : Dev :=
  let s := s.entFlush e (s.entFuel e)
  let old := s.ent e
  let x := if old.owner = x.owner then { x with held := old.held, lastRep := old.lastRep } else x
  let s := (s.setEnt e { x with down := x.action != 0 && decide (x.t < s.now16) }).setRf (R.timeEntOwner (e / 4)) (8 * (e % 4)) 8 x.owner
  if (s.ent e).down then s.entRun e else s

/-- The entry is armed by another context. -/
def Dev.entTaken (s : Dev) (c e : Nat) : Bool := (s.ent e).action != 0 && (s.ent e).owner != c

/-- TT_ARM on its unit. -/
def Dev.armHere (s : Dev) (c : Nat) (w : List Word) : Dev :=
  let seq := hSeq w
  let e := hF w 8 8 8
  let q := fun o => (hW w o).toNat + (hW w (o + 4)).toNat * 2 ^ 32
  s.withSlot c seq fun _ s =>
    if s.entTaken c e then s.endCmd c seq ⟨.poolQuota, 0x13⟩ 0 0
    else (s.endCmd c seq .ok e 0).entPut e (entOf (q 0x10) (q 0x18) c)

/-- TT_ARM: the manager checks the entry (R356, R360). -/
def Dev.ttArm (c : Nat) (w : List Word) (s : Dev) : Dev :=
  let u := hF w 8 0 4
  let q := fun o => (hW w o).toNat + (hW w (o + 4)).toNat * 2 ^ 32
  if !s.isMgr then s.armHere c w
  else if 240 ≤ hF w 8 8 8 ∨ s.entBad c u (entOf (q 0x10) (q 0x18) c) = true then s.endCmd c (hSeq w) ⟨.ctxFaultCmd, 8⟩ 0 0x40
  else s.onUnit c u w fun s => s.armHere c w

def execTtArm (c : Nat) (s : State) : Host.Outcome State Fault Refusal :=
  .next { s with toDev := s.toDev.hostCmd c 0x40 (Dev.ttArm c) }

/-- TT_DISARM on its unit. -/
def Dev.disarmHere (s : Dev) (c : Nat) (w : List Word) : Dev :=
  let e := hF w 8 8 8
  if s.entTaken c e then s.endCmd c (hSeq w) ⟨.poolQuota, 0x13⟩ 0 0
  else ((s.entFlush e (s.entFuel e)).disarm e).endCmd c (hSeq w) .ok 0 0

/-- TT_DISARM (R356). -/
def Dev.ttDisarm (c : Nat) (w : List Word) (s : Dev) : Dev :=
  if !s.isMgr then s.disarmHere c w
  else if 240 ≤ hF w 8 8 8 then s.endCmd c (hSeq w) ⟨.ctxFaultCmd, 8⟩ 0 0x41
  else s.onUnit c (hF w 8 0 4) w fun s => s.disarmHere c w

def execTtDisarm (c : Nat) (s : State) : Host.Outcome State Fault Refusal :=
  .next { s with toDev := s.toDev.hostCmd c 0x41 (Dev.ttDisarm c) }

/-! ### The entry array (R356) -/

/-- Dword `d` of the entry array as a read sees it. -/
def Dev.entRead (s : Dev) (d : Nat) : Word :=
  let x := s.ent (d / 4)
  match d % 4 with
  | 0 => Word.ofNat (x.t / 16)
  | 1 => Word.ofNat (x.t / 16 / 2 ^ 32)
  | 2 => Word.ofNat x.w
  | _ => Word.ofNat (x.w / 2 ^ 32)

/-- A write of dword `d` of the entry array: host writes are dropped; management firmware writes entries 240-255, context 0's, and
arms one with its last dword. -/
def Dev.entWrite (s : Dev) (src : Src) (d : Nat) (v : Word) : Dev :=
  let e := d / 4
  match src with
  | .mgmt =>
    if e < 240 ∨ 256 ≤ e then s
    else
      let x := s.ent e
      match d % 4 with
      | 0 => s.setEnt e { x with t := (x.t / 16 / 2 ^ 32 * 2 ^ 32 + v.toNat) * 16, owner := 0 }
      | 1 => s.setEnt e { x with t := (x.t / 16 % 2 ^ 32 + v.toNat * 2 ^ 32) * 16, owner := 0 }
      | 2 => s.setEnt e { x with w := x.w / 2 ^ 32 * 2 ^ 32 + v.toNat, owner := 0 }
      | _ => s.entPut e { x with w := x.w % 2 ^ 32 + v.toNat * 2 ^ 32, owner := 0 }
  | _ => s

/-! ### SYNC_IN, steps, reads (R350, R352, R355) -/

/-- SYNC_IN: a rising edge is captured. -/
def Dev.syncIn (s : Dev) : Dev :=
  if s.rb R.timeCtl 4 then ((s.setRq R.timeSyncinLo s.ns).wrapInc R.timeSyncinCnt 1).irq 0x70000 2 else s

def execSyncIn (s : State) : Host.Outcome State Fault Refusal := .next { s with toDev := s.toDev.syncIn }

/-- Shop time steps by `d` ns at one TCLK edge: occurrences that a forward step passes are late; SYNC pulses keep their lengths. -/
def Dev.timeStep (s : Dev) (d : Int) : Dev :=
  let was := s.now16
  let s : Dev := { s with
    shop := (((s.shop : Int) + d * 2 ^ 48) % 2 ^ 112).toNat
    tim := { s.tim with pulses := s.tim.pulses.map fun (t : Nat) => ((t : Int) + d).toNat } }
  let now := s.now16
  let late := s.tim.ents.filter fun x => x.2.action != 0 && decide (was < x.2.t) && decide (x.2.t < now)
  late.foldl (fun (s : Dev) x => (s.setEnt x.1 { s.ent x.1 with down := true }).entRun x.1) s

/-- TIME_STEP_HI: the write applies the signed step; a host's is ignored unless SRC is SW (R351, R352). -/
def Dev.stepWrite (s : Dev) (src : Src) (v : Word) : Dev :=
  let (ok, s) := s.regWrOk src 0x70000 0x11C
  let host := match src with
    | .host _ => true
    | _ => false
  if !ok || (host && s.timeSrc != 1) then s else s.timeStep (toSigned 64 (s.rn R.timeStepLo + v.toNat * 2 ^ 32))

def execTimeStepHi (src : Src) (v : Word) (s : State) : Host.Outcome State Fault Refusal :=
  .next { s with toDev := (s.toDev.busPosted src).stepWrite src v }

/-- A read of TIME_NOW_LO: the low half of shop time; HI and FRAC latch from the same edge (R350). -/
def Dev.timeNowRead (s : Dev) : Word × Dev :=
  (Word.ofNat s.ns, (s.setReg R.timeNowHi (Word.ofNat (s.ns / 2 ^ 32))).setReg R.timeNowFrac (Word.ofNat (s.shop / 2 ^ 32 % 2 ^ 16)))

/-! ### TIME frames and discipline (R351, R353, R354) -/

/-- What management firmware does with an error of shop time: it steps above `step` ns, and otherwise sets a rate of its choice. -/
def Dev.servo (s : Dev) (e : Int) (step : Nat) : Dev :=
  if !s.mgmtUp then s
  else if step < e.natAbs then s.timeStep (-e)
  else
    let (r, s) := s.draw 86
    s.setReg R.timeRate (Word.ofNat r)

/-- A TIME frame: shop time at its origin, and the correction field. -/
def timeFrame (origin corr hops : Nat) : Frame := { cls := 1, hops, payload := bytesOf 8 origin ++ bytesOf 8 corr }

/-- The port towards the manager: that of the route to it; a unit without a route takes the port of the frame. -/
def Dev.upstream (s : Dev) (p : Nat) : Nat :=
  let r := routeOf (s.rn R.chainRoute) 0
  if r = 1 then 0 else if r = 2 then 1 else p

/-- TIME_FRAME_SEND: a TIME frame on each port towards the units further from the manager (R353): the manager's carry its shop
time, a worker's what it last received, with its residence time, of a free value, added to the correction. -/
def Dev.timeSend (s : Dev) : Dev :=
  if s.isMgr then
    [0, 1].foldl (fun (s : Dev) p => if s.glkSt p = 2 then s.glkSend p (timeFrame s.ns 0 15) else s) s
  else match s.tim.rxAt with
    | none => s
    | some p =>
      let (d, s) := s.draw 87
      if s.glkSt (otherPort p) = 2 then s.glkSend (otherPort p) (timeFrame s.tim.origin (s.tim.corr + d) 15) else s

def execTimeFrameSend (s : State) : Host.Outcome State Fault Refusal := .next { s with toDev := s.toDev.timeSend }

/-- TIME: a frame with origin time and correction arrives on port `p`, whose link delay was measured as `delay` ns: a worker takes
it from its upstream port, measures its error, and its firmware corrects shop time (R353, R354). -/
def Dev.timeRx (s : Dev) (p origin corr delay : Nat) : Dev :=
  let s := if s.glkSt p = 2 then s.perf (glkPage p) 1 1 else s
  if s.isMgr || s.glkSt p != 2 || !s.chain.addressed || s.upstream p != p then s
  else
    let s := s.perf 0x70000 2 1
    let s : Dev := { s with tim := { s.tim with origin, corr, rxAt := some p } }
    let s := (s.setRb R.timeStat 2 (p == 1)).setReg R.timeLinkDelay (Word.ofNat (delay % 2 ^ 24))
    if s.rb R.timeStat 1 then s
    else
      let e : Int := (s.ns : Int) - (origin + corr + delay : Nat)
      (s.measure e 12 20 2).servo e 1000

def execTime (p origin corr delay : Nat) (s : State) : Host.Outcome State Fault Refusal :=
  .next { s with toDev := if p < 2 then s.toDev.timeRx p origin corr delay else s.toDev }

/-- TIME_FRAME_LOSS: 10 ms without a TIME frame clear the lock of a worker (R354). -/
def Dev.timeLoss (s : Dev) : Dev := if s.isMgr then s else (s.setRf R.timeStat 8 8 0).timeLock false 2

def execTimeFrameLoss (s : State) : Host.Outcome State Fault Refusal := .next { s with toDev := s.toDev.timeLoss }

/-- PTM_RESPONSE (R66, R351): the result of the exchange, PTM master time, gives in PTM mode a measurement against it plus
TIME_PTM_OFF. -/
def Dev.ptmResp (s : Dev) (master : Nat) : Dev :=
  if !s.hif.ptmOut then s
  else
    let s : Dev := { s with hif := { s.hif with ptmOut := false }, tim := { s.tim with ptmMiss := 0 } }
    if s.timeSrc ≠ 2 ∨ s.rb R.timeStat 1 = true then s
    else
      let e : Int := (s.ns : Int) - (master : Int) - toSigned 64 (s.rq R.timePtmOffLo)
      (s.measure e 1000 10000 1).servo e 1000000

def execPtmResponse (master : Nat) (s : State) : Host.Outcome State Fault Refusal :=
  .next { s with toDev := s.toDev.ptmResp master }

/-- A write of TIME_CTL: SRC 3 is ignored; in SW mode the lock follows SW_LOCKED, in FREE it is clear (R351). -/
def Dev.timeCtlWrite (s : Dev) (v : Word) : Dev :=
  let src := if v.fld 0 2 = 3 then s.timeSrc else v.fld 0 2
  let was := s.timeSrc
  let s := (s.setReg R.timeCtl (Word.ofNat (src + v.fld 2 3 * 4))).syncPin
  if !s.isMgr then s
  else if src = 0 then s.timeLock false 1
  else if src = 1 then s.timeLock (v.bit 2) 1
  else if was = 2 then s else (s.setRf R.timeStat 8 8 0).timeLock false 1

end Sys2Proof.Machine
end

