-- ==== Sys2Proof/Machine/Power.lean ====
section
/-! DEFINITION. Power: island switches, the governor, the thermal ladder and the trip, Fumarole, D3hot, wake sources, and the sleep of
the chain (R14, R384-R400). -/

namespace Sys2Proof.Machine

/-! ### Island switches (R14) -/

/-- The registers of the pages of island `i` are lost. -/
def Dev.loseRegs (s : Dev) (i : Nat) : Dev :=
  { s with regs := s.regs.filter fun x => !(decide (x.1 < 0x400000) && (pageAt x.1).isSome && islOf x.1 == i) }

/-- Core `k` loses its state; its activation store too unless it is retained. -/
def Dev.loseCore (s : Dev) (k : Nat) (retain : Bool) : Dev :=
  let s := s.setCore k {}
  if retain then s else s.asZero k 0 (2 ^ 23)

/-- The codec island loses its state: the streams bound to engines, the pictures in decode, the clips. -/
def Dev.loseCodec (s : Dev) : Dev :=
  { s with eng := { s.eng with streams := s.eng.streams.filter fun x => (x.2.bind (·.eng)).isNone, vdec := []
                               venc := { s.eng.venc with clips := [], iv := none } } }

/-- The pixel-and-post island loses its state: the job queues. -/
def Dev.losePixel (s : Dev) : Dev := { s with eng := { s.eng with queues := [], jpeg := {}, bundle := none } }

/-- A port's link goes down with its island; its keys stay, and across a sleep its SEQ state does (R14, R400). -/
def Dev.glkOff (s : Dev) (p : Nat) (sleep : Bool) : Dev :=
  let g := s.glk p
  let g : Glk := if sleep then { g with keep := some g.peerSerial, replays := 0 }
                 else { key0 := g.key0, key1 := g.key1, phase := g.phase, ivCount := g.ivCount }
  (s.setGlk p g).setRf (R.glkStat p) 0 5 0

/-- Island `i` is gated: its clock stops, its state is lost but for what RETAIN keeps of a core (R14). -/
def Dev.gate (s : Dev) (i : Nat) : Dev :=
  let retain := s.rb (R.pwrIslCtl i) 1
  let s := s.loseRegs i
  let s := if i < 16 then s.loseCore i retain else if i = 16 then { s with hif := {} }
           else if i = 17 ∨ i = 18 then s.glkOff (i - 17) false else if i = 21 then s.loseCodec
           else if i = 22 then s.losePixel else s
  (s.setRf (R.pwrIslCtl i) 4 2 0).setReg (R.clkIslStat i) 0

/-- Island `i` is switched on: its clock relocks. -/
def Dev.ungate (s : Dev) (i : Nat) : Dev := (s.setRf (R.pwrIslCtl i) 4 2 1).setRb (R.clkIslStat i) 0 false

/-- PWR_ISL_CTL (R14, R387): ON = 0 is ignored for islands that are not D0-gateable; RETAIN; VSEL while GOV_EN is 0 and when it
supports the running frequency. -/
def Dev.islCtlWrite (s : Dev) (i : Nat) (v : Word) : Dev :=
  if 26 ≤ i then s
  else
    let on := v.bit 0 || !gateable i
    let vs := v.fld 2 2
    let vOk := !s.govEn && vs != 3 && (domOf i == 3 || decide (s.rf (R.clkIslStat i) 4 12 ≤ vselMax (domOf i) vs))
    let was := s.rf (R.pwrIslCtl i) 4 2
    let s := (s.setRb (R.pwrIslCtl i) 0 on).setRb (R.pwrIslCtl i) 1 (v.bit 1)
    let s := if vOk then s.setRf (R.pwrIslCtl i) 2 2 vs else s
    if on && was == 0 then s.ungate i else if !on && was != 0 then s.gate i else s

def execPwrIslCtl (isl : Nat) (v : Word) (s : State) : Host.Outcome State Fault Refusal :=
  .next { s with toDev := if s.toDev.inD3 then s.toDev else s.toDev.islCtlWrite isl v }

def execClkIslFreq (isl : Nat) (v : Word) (s : State) : Host.Outcome State Fault Refusal :=
  .next { s with toDev := if s.toDev.inD3 then s.toDev else s.toDev.freqWrite isl v }

/-! ### Measurement and the governor (R384, R386-R390) -/

/-- POWER_CAP, with the ms above level 0 since the last one, and CAP_UNMET. -/
def Dev.capEvent (s : Dev) (unmet : Bool) : Dev :=
  let ms := s.pwr.msAbove
  let s : Dev := { s with pwr := { s.pwr with msAbove := 0, capAt := some s.ns } }
  s.raise { nm := .powerCap, blk := 3, d0 := ms, d3 := bN unmet }

/-- What the governor does with power `p` mW under cap `c` mW (R388): GOV_LEVEL and the evaluations at or below 0.9·C. -/
def govStep (p c lv low : Nat) : Nat × Nat :=
  if 11 * c < 10 * p then (min 15 (lv + 2), 0)
  else if c < p then (min 15 (lv + 1), 0)
  else if 10 * p ≤ 9 * c then (if 20 ≤ low + 1 then (lv - 1, 0) else (lv, low + 1))
  else (lv, 0)

/-- GOVERNOR_EVAL: PWR measured `p` mW over the last ms; while GOV_EN is 1 and management firmware runs, it evaluates the governor. -/
def Dev.governor (s : Dev) (p : Nat) : Dev :=
  let p := p % 2 ^ 18
  let uj := s.pwr.uj + p
  let s := (s.setReg R.pwrPower (Word.ofNat p)).wrapInc R.pwrEnergy (uj / 1000)
  let s : Dev := { s with pwr := { s.pwr with uj := uj % 1000 } }
  if s.inD3 || s.chain.asleep && !s.isMgr then s
  else if !s.govEn then ({ s with pwr := { s.pwr with gov := 0, govLow := 0 } } : Dev).retuneAll.pwrShow
  else if !s.mgmtUp then s.pwrShow
  else
    let was := s.pwr.gov
    let wasUnmet := s.rb R.pwrStat 16
    let (lv, low) := govStep p (s.rf R.pwrCap 0 10 * 250) was s.pwr.govLow
    let s : Dev := { s with pwr := { s.pwr with gov := lv, govLow := low, msAbove := s.pwr.msAbove + bN (lv != 0) } }
    let s := if lv = 0 then s else s.perf 0x2000 0 1
    let s := s.retuneAll.pwrShow
    let s := if was = 0 ∧ lv ≠ 0 then
        (if onceDue s.pwr.capAt s.ns then (s.irq 0x2000 1).capEvent (s.rb R.pwrStat 16) else s.irq 0x2000 1) else s
    if !wasUnmet && s.rb R.pwrStat 16 then ((s.irq 0x2000 1).irq 0x2000 16).capEvent true else s

/-- PWR_CAP: 100 to 600; other values are ignored. PWR_PROFILE reads CUSTOM after it (R390). -/
def Dev.capWrite (s : Dev) (v : Word) : Dev :=
  if 100 ≤ v.fld 0 10 ∧ v.fld 0 10 ≤ 600 then
    ((s.setReg R.pwrCap (Word.ofNat (v.fld 0 10))).setReg R.pwrProfile 0).pwrShow else s

/-- PWR_LVL_MIN. -/
def Dev.lvlWrite (s : Dev) (v : Word) : Dev :=
  ((s.setReg R.pwrLvlMin (Word.ofNat (v.fld 0 4))).setReg R.pwrProfile 0).retuneAll.pwrShow

/-- PWR_PROFILE (R390): FULL 150 W and level 0, QUIET_ROOM 60 W and level 8. -/
def Dev.profileWrite (s : Dev) (v : Word) : Dev :=
  match v.fld 0 2 with
  | 1 => (((s.setReg R.pwrCap 600).setReg R.pwrLvlMin 0).setReg R.pwrProfile 1).retuneAll.pwrShow
  | 2 => (((s.setReg R.pwrCap 240).setReg R.pwrLvlMin 8).setReg R.pwrProfile 2).retuneAll.pwrShow
  | _ => s

def execPwrProfile (v : Word) (s : State) : Host.Outcome State Fault Refusal :=
  .next { s with toDev := if s.toDev.inD3 then s.toDev else s.toDev.profileWrite v }

/-- PWR_CTL: without GOV_EN, GOV_LEVEL reads 0; with it, PWR sets each VSEL (R387, R388). -/
def Dev.pwrCtlWrite (s : Dev) (v : Word) : Dev :=
  let s := s.setReg R.pwrCtl (Word.ofNat (v.fld 0 2))
  let s : Dev := if v.bit 0 then s else { s with pwr := { s.pwr with gov := 0, govLow := 0 } }
  let s := if v.bit 0 then (List.range 26).foldl (fun (s : Dev) i =>
      if domOf i ≠ 3 ∧ s.islRuns i = true then s.setRf (R.pwrIslCtl i) 2 2 (vselFor (domOf i) (s.rf (R.clkIslStat i) 4 12)) else s) s else s
  s.retuneAll.pwrShow

/-! ### Thermal (R391-R393) -/

/-- A legal PWR_THERM_CFG. -/
def thermOk (v : Word) : Bool :=
  let t := fun lo => v.fld lo 8
  decide (60 ≤ t 0) && decide (t 0 ≤ 110) && decide (1 ≤ t 8) && decide (t 8 ≤ 20) && decide (100 ≤ t 24) && decide (t 24 ≤ 115)
    && decide (t 0 < t 16) && decide (t 16 < t 24)

/-- The hottest of 26 readings in 0.25 °C: sensor and reading. -/
def hottest (l : List Int) : Nat × Int :=
  (l.take 26).zipIdx.foldl (fun (b : Nat × Int) x => if b.2 < x.1 then (x.2, x.1) else b) (0, l.headD 0)

/-- What the ladder does with the hottest reading `t` (0.25 °C) under PWR_THERM_CFG `v` (R392). -/
def thermStep (v : Word) (t : Int) (lv low : Nat) : Nat × Nat :=
  if (4 * v.fld 16 8 : Int) ≤ t then (15, 0)
  else if (4 * v.fld 0 8 : Int) ≤ t then (min 15 (lv + 1), 0)
  else if t < 4 * ((v.fld 0 8 : Int) - v.fld 8 8) then (if 50 ≤ low + 1 then (lv - 1, 0) else (lv, low + 1))
  else (lv, 0)

/-- The trip (R393): THERMTRIP_N low, every island but always-on off, the sensor and temperature recorded. -/
def Dev.thermTrip (s : Dev) (i : Nat) (t : Int) : Dev :=
  let s := s.setReg R.pwrTripRec (Word.ofNat (1 + i % 32 * 2 + ofSigned 16 t * 2 ^ 16))
  let s := (({ s with pwr := { s.pwr with tripped := true } } : Dev)).emit (.pin .thermtripN false)
  let s := (List.range 25).foldl (fun (s : Dev) i => (s.setRf (R.pwrIslCtl i) 4 2 0).setReg (R.clkIslStat i) 0) s
  (s.setRf (R.glkStat 0) 0 5 0).setRf (R.glkStat 1) 0 5 0

/-- THERMAL_SAMPLE: the 26 sensors' readings, in 0.25 °C. -/
def Dev.thermSample (s : Dev) (l : List Int) : Dev :=
  if !s.boot.powered || s.pwr.tripped || l = [] then s
  else
    let s := (l.take 26).zipIdx.foldl (fun (s : Dev) x => s.setReg (R.pwrTemp x.2) (Word.ofNat (ofSigned 16 x.1))) s
    let (i, t) := hottest l
    let s := s.setReg R.pwrTempMax (Word.ofNat (ofSigned 16 t + i * 2 ^ 16))
    let v := s.reg R.pwrThermCfg
    match (l.take 26).findIdx? fun x => decide ((4 * v.fld 24 8 : Int) ≤ x) with
    | some j => s.thermTrip j (l.getD j 0)
    | none =>
      let was := s.pwr.therm
      let (lv, low) := thermStep v t was s.pwr.thermLow
      let s : Dev := { s with pwr := { s.pwr with therm := lv, thermLow := low } }
      let s := (if lv = 0 then s else s.perf 0x2000 1 1).retuneAll.pwrShow
      if was = 0 ∧ lv ≠ 0 then
        let s := s.irq 0x2000 2
        if onceDue s.pwr.thrAt s.ns then
          ({ s with pwr := { s.pwr with thrAt := some s.ns } } : Dev).raise
            { nm := .thermalThrottle, blk := 3, d0 := i, d1 := ofSigned 16 t }
        else s
      else s

/-! ### The sleep of the chain (R400) -/

/-- Islands other than HIF, time and always-on freeze; DRAM enters self-refresh; launches are suspended (R397 steps 3, 4). -/
def Dev.freeze (s : Dev) : Dev :=
  let s := (List.range 26).foldl (fun (s : Dev) i =>
    if i = 16 ∨ i = 24 ∨ i = 25 ∨ s.islRuns i = false then s
    else (s.setRf (R.pwrIslCtl i) 4 2 2).setRf (R.clkIslStat i) 4 12 0) s
  let s := (List.range 8).foldl (fun (s : Dev) k => s.setRf (R.memcLpStat k) 0 2 2) s
  s.setRb R.timeStat 1 true

/-- Frozen islands run again, DRAM leaves self-refresh, and launches go on (R398). -/
def Dev.unfreeze (s : Dev) : Dev :=
  let s := (List.range 26).foldl (fun (s : Dev) i =>
    if s.rf (R.pwrIslCtl i) 4 2 = 2 then (s.setRf (R.pwrIslCtl i) 4 2 1).relock i else s) s
  let s := (List.range 8).foldl (fun (s : Dev) k => s.setRf (R.memcLpStat k) 0 2 (bN s.pwr.fum)) s
  s.setRb R.timeStat 1 false

/-- The manager puts the chain to sleep. -/
def Dev.chainSleep (s : Dev) : Dev :=
  if s.chain.asleep then s
  else
    let s := s.workers.foldl (fun (s : Dev) u => s.fwSend u .sleep) s
    ((({ s with chain := { s.chain with asleep := true, wakeWait := [] } } : Dev).glkOff 0 true).glkOff 1 true)

/-- The manager wakes the chain: its links train again, and each worker's report is awaited. -/
def Dev.chainWake (s : Dev) : Dev :=
  if !s.chain.asleep then s
  else (({ s with chain := { s.chain with asleep := false, wakeWait := s.workers } } : Dev).glkTrain 0).glkTrain 1

/-- A worker that drains and whose sent frames are all acknowledged freezes and takes its links down. -/
def Dev.sleepDrained (s : Dev) : Dev :=
  if s.chain.draining && s.glk0.unacked.isEmpty && s.glk1.unacked.isEmpty then
    let s : Dev := { s with chain := { s.chain with draining := false, asleep := true } }
    ((s.freeze.glkOff 0 true).glkOff 1 true).pwrShow
  else s

/-- SLEEP has come to a worker: it sends no new DATA or MGMT frame. -/
def Dev.sleepReq (s : Dev) : Dev :=
  if s.isMgr || s.chain.asleep then s else ({ s with chain := { s.chain with draining := true } } : Dev).sleepDrained

/-- A sleeping worker wakes when a link of it comes up again. -/
def Dev.workerWake (s : Dev) : Dev :=
  if s.isMgr || !s.chain.asleep then s
  else
    let s := (({ s with chain := { s.chain with asleep := false } } : Dev).unfreeze).pwrShow
    ((s.glkTrain 0).glkTrain 1).allLate

/-! ### Fumarole (R394-R396) -/

/-- A core address other than FUM_CORE `c` of unit 0 is mapped by a route or held by a BUNDLE. -/
def Dev.otherCores (s : Dev) (c : Nat) : Bool :=
  s.eng.routes.any (fun x => match x.2 with
    | some r => r.map.any fun a => a != c
    | none => false) ||
  (List.range 16).any fun k => k != c && (s.core k).progs != []

/-- A stream in MODE DECODE or DECODE_RETAIN is attached, or a clip queued or running, on any unit. -/
def Dev.codecUsed (s : Dev) : Bool :=
  s.eng.rings.any (fun x => match x.2 with
    | some r => r.mode != 1
    | none => false) || s.eng.venc.clips != [] || s.eng.venc.taken != [] || s.eng.venc.reqs != []

/-- Why Fumarole is refused, 0 when it is not (R394). -/
def Dev.fumRefuse (s : Dev) (c : Nat) : Nat :=
  if s.otherCores c then 1 else if s.codecUsed then 2 else if s.inD3 then 3 else 0

/-- Entry to Fumarole with core `c`: the chain sleeps, the other cores leave service and are gated with the codec and GLK islands. -/
def Dev.fumEnter (s : Dev) (c : Nat) : Dev :=
  let s := s.chainSleep
  let off := s.rn R.schedCoreOff
  let gone := ((List.range 16).filter (· != c) ++ [17, 18, 21]).filter s.islRuns
  let s : Dev := { s with pwr := { s.pwr with fum := true, fumCore := c, gated := gone, coreOff := off, wakeDet := false } }
  let s := s.setReg R.schedCoreOff (Word.ofNat (2 ^ 16 - 1 - 2 ^ c + (if bitN off c then 2 ^ c else 0)))
  let s := gone.foldl (fun (s : Dev) i =>
    if i < 16 then ((s.setRb (R.pwrIslCtl i) 1 false).gate i)
    else if i = 21 then s.gate i else (s.setRf (R.pwrIslCtl i) 4 2 0).setRf (R.clkIslStat i) 4 12 0) s
  let s := (List.range 8).foldl (fun (s : Dev) k => s.setRf (R.memcLpStat k) 0 2 1) s
  ((s.perf 0x2000 2 1).retuneAll).pwrShow

/-- Exit from Fumarole: the gated islands run, the cores return with zeroised stores, the chain wakes. -/
def Dev.fumExit (s : Dev) : Dev :=
  if !s.pwr.fum || s.inD3 then s
  else
    let gone := s.pwr.gated
    let off := s.pwr.coreOff
    let s : Dev := { s with pwr := { s.pwr with fum := false, gated := [], wakeDet := false } }
    let s := gone.foldl (fun (s : Dev) i => ((if i < 16 then s.asZero i 0 (2 ^ 23) else s).ungate i).relock i) s
    let s := (List.range 8).foldl (fun (s : Dev) k => s.setRf (R.memcLpStat k) 0 2 0) (s.setReg R.schedCoreOff (Word.ofNat off))
    (s.chainWake.retuneAll).pwrShow

/-- A write of PWR_STATE_REQ; on a worker it is ignored (R394, R396). -/
def Dev.stateReq (s : Dev) (v : Word) : Dev :=
  if !s.isMgr then s
  else
    let s := s.setReg R.pwrStateReq (Word.ofNat (v.fld 0 1 + v.fld 4 4 * 16))
    if !v.bit 0 then s.fumExit
    else if s.pwr.fum then s
    else
      let why := s.fumRefuse (v.fld 4 4)
      let s := s.setRf R.pwrStat 17 2 why
      if why = 0 then s.fumEnter (v.fld 4 4) else s.irq 0x2000 17

/-- FUMAROLE: the write of PWR_STATE_REQ that requests it. -/
def execFumarole (v : Word) (s : State) : Host.Outcome State Fault Refusal :=
  .next { s with toDev := if v.bit 0 then s.toDev.stateReq v else s.toDev }

/-- FUMAROLE_EXIT: a write of PWR_STATE_REQ = D0, or an accepted DETECTION record under FUM_WAKE_DET (R396). -/
def execFumaroleExit (req : Option Word) (s : State) : Host.Outcome State Fault Refusal :=
  .next { s with toDev := match req with
    | some v => if v.bit 0 then s.toDev else s.toDev.stateReq v
    | none => if s.toDev.pwr.wakeDet then s.toDev.fumExit else s.toDev }

/-! ### D3hot (R397, R398) -/

/-- D3HOT: PMCSR is written to D3hot. -/
def Dev.d3Enter (s : Dev) : Dev :=
  if !s.isMgr || s.inD3 then s
  else
    let s := (s.setRf R.hifPmStat 0 2 3).setCfg 0 0x11 ((s.cfg 0 0x11).setFld 0 2 3)
    (((s.dropLines fun _ => true).irq 0x6000 2).chainSleep.freeze).pwrShow

def execD3hot (s : State) : Host.Outcome State Fault Refusal := .next { s with toDev := s.toDev.d3Enter }

/-- PMCSR_D0: PMCSR is written to D0: islands run, the chain wakes unless Fumarole holds, launches that fell due are late, and every
queue moves again. -/
def Dev.d3Exit (s : Dev) : Dev :=
  if !s.isMgr || !s.inD3 then s
  else
    let s := (s.setRf R.hifPmStat 0 2 0).setCfg 0 0x11 ((s.cfg 0 0x11).setFld 0 2 0)
    let s := s.unfreeze
    let s := ((if s.pwr.fum then s else s.chainWake).irq 0x6000 2).pwrShow
    let s := (List.range 16).foldl (fun (s : Dev) fn => s.hifRelease fn) s.allLate
    (s.ctxs.map (·.1)).foldl (fun (s : Dev) c => s.kick c) s

/-! ### Wake sources (R70, R399) -/

/-- A wake source fired: its bit in PWR_WAKE_STAT; with PME_En, PM_PME in D3hot, and WAKE_N low in D3cold. -/
def Dev.wake (s : Dev) (bit : Nat) : Dev :=
  let s := s.setRb R.pwrWakeStat bit true
  if !(s.cfg 0 0x11).bit 8 || !s.isMgr then s
  else if !s.boot.powered then
    if s.boot.wakeLow then s else ({ s with boot := { s.boot with wakeLow := true } } : Dev).emit (.pin .wakeN false)
  else if s.inD3 then (s.setCfg 0 0x11 ((s.cfg 0 0x11).setBit 15 true)).emit (.pcie .pme)
  else s

/-- GPIO_WAKE_EDGE: an edge of GPIO `pin`. -/
def Dev.gpioEdge (s : Dev) (pin : Nat) (rising : Bool) : Dev :=
  let b := if rising then pin else 4 + pin
  if pin < 4 ∧ s.rb R.pwrWakeEn b = true ∧ (s.inD3 = true ∨ s.boot.powered = false) then s.wake b else s

def execGpioWakeEdge (pin : Nat) (rising : Bool) (s : State) : Host.Outcome State Fault Refusal :=
  .next { s with toDev := s.toDev.gpioEdge pin rising }

/-- WAKE_TIMER_EXPIRY: PWR_WAKE_TIMER has counted its ticks. -/
def Dev.wakeTimer (s : Dev) : Dev :=
  if s.rn R.pwrWakeTimer = 0 then s
  else
    let s := s.setReg R.pwrWakeTimer 0
    if s.rb R.pwrWakeEn 8 = true ∧ (s.inD3 = true ∨ s.boot.powered = false) then s.wake 8 else s

def execWakeTimerExpiry (s : State) : Host.Outcome State Fault Refusal := .next { s with toDev := s.toDev.wakeTimer }

end Sys2Proof.Machine
end

