-- ==== Sys2Proof/Machine/Units.lean ====
section
/-! DEFINITION. The manager's view of the chain: unit states, routes and epochs, link keys, loss, planned removal and slots
(R377-R383, R412). -/

namespace Sys2Proof.Machine

/-! ### Units and links -/

/-- Address `u` in the manager's view. -/
def Dev.unit (s : Dev) (u : Nat) : UnitInfo := Tab.get (fun _ => {}) s.chain.units u

/-- Set address `u`. -/
def Dev.setUnit (s : Dev) (u : Nat) (x : UnitInfo) : Dev :=
  { s with chain := { s.chain with units := Tab.set (fun _ => {}) s.chain.units u x } }

/-- Unit `u` is JOINED; the manager counts as such. -/
def Dev.isJoined (s : Dev) (u : Nat) : Bool := u == 0 || (s.unit u).st == .joined

/-- Unit `u` is in QUARANTINE or JOINED. -/
def Dev.isHere (s : Dev) (u : Nat) : Bool := s.isJoined u || (s.unit u).st == .quarantine

/-- UNIT_QUARANTINED (R377): address, serial number, reason. -/
def Dev.quarantined (s : Dev) (a serial reason : Nat) : Dev :=
  (s.irq 0x7A000 17).raise
    { nm := .unitQuarantined, blk := 0x15, d0 := a, d1 := serial % 2 ^ 32, d2 := serial / 2 ^ 32 % 2 ^ 32, d3 := reason }

/-- The transaction streams with unit `u` begin anew. -/
def Dev.clearStreams (s : Dev) (u : Nat) : Dev :=
  { s with chain := { s.chain with
    txNext := s.chain.txNext.filter fun x => x.1 / 4 != u
    rxNext := s.chain.rxNext.filter fun x => x.1 / 4 != u
    applied := s.chain.applied.filter (·.src != u), early := s.chain.early.filter (·.src != u)
    out := s.chain.out.filter (·.dst != u), wait := s.chain.wait.filter (·.dst != u) } }

/-- A unit has taken address `u`: it enters QUARANTINE and is sent the running bundle (R377, R426). -/
def Dev.enterQuar (s : Dev) (u serial slot : Nat) : Dev :=
  let x := s.unit u
  if u = 0 ∨ 16 ≤ u ∨ (x.serial = serial ∧ (x.st = .quarantine ∨ x.st = .joined)) then s
  else
    let s := (s.clearStreams u).setUnit u { st := .quarantine, serial, slot }
    let s : Dev := { s with chain := { s.chain with res := Tab.set (fun _ => 0) s.chain.res u serial, change := true } }
    (s.quarantined u serial 1).fwSend u .image

/-- The unit with a serial number. -/
def Dev.bySerial (s : Dev) (serial : Nat) : Option Nat :=
  (List.range 16).find? fun u => if u = 0 then s.sec.serial == serial else (s.unit u).serial == serial && s.isHere u

/-- The peer over link end (`u`, `p`) when the link is up. -/
def Dev.linkTo (s : Dev) (u p : Nat) : Option Nat :=
  if (u, p) ∈ s.chain.downLinks then none
  else (s.chain.cables.find? fun c => c.1 == u && c.2.1 == p).bind fun c => s.bySerial c.2.2

/-! ### Routes (R378) -/

/-- One round of the shortest-path computation among the units `m`. -/
def relax (peer : Nat → Nat → Option Nat) (m : Nat → Bool) (l : List Nat) : List Nat :=
  l.zipIdx.map fun x =>
    if m x.2 then
      [0, 1].foldl (fun (b : Nat) p => match peer x.2 p with
        | some v => if m v then min b (l.getD v 99 + 1) else b
        | none => b) x.1
    else x.1

/-- Hops from each unit to unit `d` over the links between units `m`; 99 for none. -/
def hopsTo (peer : Nat → Nat → Option Nat) (m : Nat → Bool) (d : Nat) : List Nat :=
  (List.range 16).foldl (fun (l : List Nat) _ => relax peer m l)
    ((List.range 16).map fun u => if u = d ∧ m d = true then 0 else 99)

/-- The route of unit `u` over a table of hops: GLK0 wins a tie. -/
def routeBy (peer : Nat → Nat → Option Nat) (m : Nat → Bool) (l : List Nat) (u : Nat) : Nat :=
  let n := l.getD u 99
  if n = 0 then 0
  else if 99 ≤ n then 3
  else match peer u 0 with
    | some v => if m v = true ∧ l.getD v 99 + 1 = n then 1 else 2
    | none => 2

/-- The route tables of all units: DATA routes among the units `m`, and what they leave out among the units `q`. -/
def Dev.tables (s : Dev) (m q : Nat → Bool) : List Nat :=
  let hm := (List.range 16).map (hopsTo s.linkTo m)
  let hq := (List.range 16).map (hopsTo s.linkTo q)
  (List.range 16).map fun u => ((List.range 16).map fun d =>
    let a := if m u && m d then routeBy s.linkTo m (hm.getD d []) u else 3
    (if a = 3 ∧ q u = true ∧ q d = true then routeBy s.linkTo q (hq.getD d []) u else a) * 4 ^ d).sum

/-! ### Link keys (R412) -/

/-- Ends of links that are to hold keys: the peer answers, one of the two is JOINED, and the other JOINED or attested. -/
def Dev.keyEnds (s : Dev) : List (Nat × Nat) :=
  ((List.range 16).flatMap fun u => [(u, 0), (u, 1)]).filter fun e => match s.linkTo e.1 e.2 with
    | some v =>
      let may := fun w => s.isJoined w || ((s.unit w).st == .quarantine && (s.unit w).attested)
      (s.isJoined e.1 || s.isJoined v) && may e.1 && may v
    | none => false

/-- The ends of the links between the units of a link end. -/
def Dev.linkPair (s : Dev) (e : Nat × Nat) : List (Nat × Nat) :=
  match s.linkTo e.1 e.2 with
  | none => [e]
  | some v => ([(e.1, 0), (e.1, 1)].filter fun x => s.linkTo x.1 x.2 == some v) ++
      ([(v, 0), (v, 1)].filter fun x => s.linkTo x.1 x.2 == some e.1)

/-- SEC installs a key's salt in the idle phase of a port. -/
def Dev.installKey (s : Dev) (p salt : Nat) : Dev :=
  let g := s.glk p
  s.setGlk p (if g.phase then { g with key0 := some salt } else { g with key1 := some salt })

/-- The sender of a port switches to the key of the idle phase. -/
def Dev.useKey (s : Dev) (p : Nat) : Dev :=
  let g := s.glk p
  let g : Glk := { g with phase := !g.phase, ivCount := 0 }
  ((s.setGlk p g).setRb (R.glkStat p) 5 g.key.isSome).setRb (R.glkStat p) 6 g.phase

/-- The manager draws a key and a salt for each end and delivers them; its own ends hold theirs at once. -/
def Dev.deliverKeys (s : Dev) (l : List (Nat × Nat)) : Dev :=
  l.foldl (fun (s : Dev) e =>
    let (salt, s) := s.draw 89
    let keyed := s.chain.keyed.filter (· != e)
    let s : Dev := { s with chain := { s.chain with keyed } }
    if e.1 = 0 then
      let s := s.installKey e.2 salt
      { s with chain := { s.chain with keyNew := e :: s.chain.keyNew.filter (· != e) } }
    else
      let s : Dev := { s with chain := { s.chain with keyWait := e :: s.chain.keyWait.filter (· != e)
                                                      keyNew := s.chain.keyNew.filter (· != e) } }
      s.fwSend e.1 (.key e.2 salt)) s

/-- Links that are to hold keys and do not get them. -/
def Dev.keyAll (s : Dev) : Dev :=
  if !s.mgmtUp then s
  else s.deliverKeys (s.keyEnds.filter fun e => !s.chain.keyed.contains e && !s.chain.keyNew.contains e && !s.chain.keyWait.contains e)

/-- Links whose both ends hold new keys switch to them. -/
def Dev.keysReady (s : Dev) : Dev :=
  s.chain.keyNew.foldl (fun (s : Dev) e =>
    if s.chain.keyNew.contains e && (s.linkPair e).all s.chain.keyNew.contains then
      let l := s.linkPair e
      let s := l.foldl (fun (s : Dev) x => if x.1 = 0 then s.useKey x.2 else s.fwSend x.1 (.keyUse x.2)) s
      { s with chain := { s.chain with keyNew := s.chain.keyNew.filter fun x => !l.contains x
                                       keyed := l ++ s.chain.keyed.filter fun x => !l.contains x } }
    else s) s

/-- Unit `u`'s link keys are installed on every up link to a JOINED unit. -/
def Dev.unitKeyed (s : Dev) (u : Nat) : Bool :=
  s.keyEnds.all fun e => !(e.1 == u || s.linkTo e.1 e.2 == some u) || s.chain.keyed.contains e

/-! ### Epochs (R377, R379) -/

/-- A quarantined unit meets the conditions for joining. -/
def Dev.mayJoin (s : Dev) (u : Nat) : Bool :=
  let x := s.unit u
  x.st == .quarantine && x.attested && x.timeLocked && s.unitKeyed u && (s.rb R.chainCtl 1 || x.admitted)

/-- The manager sends SWITCH with a shop time at least 200 µs ahead; how far beyond is not stated. -/
def Dev.switchSend (s : Dev) : Dev :=
  match s.chain.next with
  | none => s
  | some (e, _) =>
    let (n, s) := s.draw 88
    let t := s.ns + 200000 + n
    let s := (s.chain.sent.filter s.isHere).foldl (fun (s : Dev) u => s.fwSend u (.switch e t)) s
    { s with chain := { s.chain with switchAt := some t } }

/-- The number that stands for a next epoch's table: the unit's CHAIN_ROUTE, and above it the mask of JOINED units. -/
def nextTable (table mask : Nat) : Nat := table % 2 ^ 32 + mask * 2 ^ 32

/-- The manager begins the next epoch when a change waits and the previous one has drained: units that may join are in its
tables, units that leave are not. -/
def Dev.epochBegin (s : Dev) : Dev :=
  if !s.isMgr || !s.mgmtUp || !s.chain.change || s.chain.next.isSome || s.chain.drainWait != [] || s.chain.asleep then s
  else
    let s := (List.range 16).foldl (fun (s : Dev) u => if s.mayJoin u then s.setUnit u { s.unit u with joining := true } else s) s
    let m := fun u => (s.isJoined u && !(s.unit u).offReq) || (s.unit u).joining
    let q := fun u => m u || ((s.unit u).st == .quarantine)
    let tabs := s.tables m q
    let mask := ((List.range 16).map fun u => if m u then 2 ^ u else 0).sum
    let e := (s.rf R.chainStat 6 8 + 1) % 256
    let us := s.workers.filter q
    let s : Dev := { s with chain := { s.chain with
      next := some (e, nextTable (tabs.getD 0 0) mask), ackWait := us, sent := us, change := false } }
    let s := us.foldl (fun (s : Dev) u => s.fwSend u (.routes e (tabs ++ [mask]))) s
    if us = [] then s.switchSend else s

/-- A change of the chain waits for the next epoch. -/
def Dev.epochChange (s : Dev) : Dev :=
  ({ s with chain := { s.chain with change := true } } : Dev).epochBegin

/-- Units that meet the conditions for joining start an epoch. -/
def Dev.checkJoin (s : Dev) : Dev :=
  if s.isMgr && s.mgmtUp then
    let s := s.keyAll.keysReady
    if (List.range 16).any s.mayJoin then s.epochChange else s.epochBegin
  else s

/-- A unit has acknowledged the next epoch's tables. -/
def Dev.routesAck (s : Dev) (u e : Nat) : Dev :=
  match s.chain.next with
  | none => s
  | some (n, _) =>
    if n ≠ e ∨ s.chain.switchAt.isSome then s
    else
      let l := s.chain.ackWait.filter (· != u)
      let s : Dev := { s with chain := { s.chain with ackWait := l } }
      if l = [] then s.switchSend else s

/-- A unit has reported DRAINED: with the last one the epoch is done, and changes that waited begin the next. -/
def Dev.drained (s : Dev) (u : Nat) : Dev :=
  if !s.chain.drainWait.contains u then s
  else
    let l := s.chain.drainWait.filter (· != u)
    let s : Dev := { s with chain := { s.chain with drainWait := l } }
    if l = [] then (s.irq 0x7A000 2).checkJoin else s

/-- The previous table is dropped once no queued frame carries its epoch, and DRAINED is reported. -/
def Dev.drainCheck (s : Dev) : Dev :=
  match s.chain.prev with
  | none => s
  | some (e, _) =>
    if (s.glk0.queue ++ s.glk1.queue).any fun f => seqClass f.cls && f.epoch == e then s
    else
      let s := ({ s with chain := { s.chain with prev := none } } : Dev).setRb R.chainStat 14 false
      if s.isMgr then s.drained 0 else s.fwSend 0 (.drained (s.rf R.chainStat 6 8))

/-! ### Lost transactions (R40, R217, R381) -/

/-- REMOTE_LOST for offset `a` of unit `u` (R40). -/
def Dev.remoteLost (s : Dev) (u a : Nat) : Dev := s.accErr 0x7A000 .remoteLost (0x800000 + u * 0x400000 + a)

/-- A transaction to a lost unit completes with UNIT_LOST. -/
def Dev.txLost (s : Dev) (t : Txn) : Dev :=
  match t.what with
  | .regRead req => (s.remoteLost t.dst (natOf (t.frame.payload.take 4))).emit (.cpl req (bytesOf 4 0) false)
  | .regWrite => s.remoteLost t.dst (natOf (t.frame.payload.take 4))
  | .bpm tag => s.answer tag ⟨.unitLost, 0x15⟩ 0
  | .msg core _ => if core < 16 then s.coreFault core 0x24 ⟨.unitLost, t.dst⟩ else s
  | .data _ => s
  | .record _ => s

/-- Every transaction to unit `u` completes with UNIT_LOST. -/
def Dev.txAllLost (s : Dev) (u : Nat) : Dev :=
  let l := (s.chain.out ++ s.chain.wait).filter (·.dst == u)
  l.foldl (fun (s : Dev) t => s.txLost t) (s.clearStreams u)

/-! ### Slots (R382, R383) -/

/-- The slot of a unit, when it has one. -/
def Dev.slotNo (s : Dev) (u : Nat) : Option Nat :=
  let k := (s.unit u).slot
  if 1 ≤ k ∧ k ≤ 15 then some k else none

/-- The unit in slot `k`. -/
def Dev.unitInSlot (s : Dev) (k : Nat) : Option Nat :=
  (List.range 16).find? fun u => u != 0 && (s.unit u).slot == k && (s.unit u).st != .absent

/-- With AUTO_POWER the slot of a removed unit loses power. -/
def Dev.slotOff (s : Dev) (u : Nat) : Dev :=
  if !s.rb R.chainCtl 0 then s
  else match s.slotNo u with
    | some k => s.setRb (R.chainSlotCtl (k - 1)) 0 false
    | none => s

/-! ### Loss (R381, R347) -/

/-- Contexts with a route core on unit `u`. -/
def Dev.ctxsOn (s : Dev) (u : Nat) : List Nat :=
  ((s.eng.routes.filterMap (·.2)).filter fun x => x.map.any fun a => a / 16 == u).map (·.ctx) |>.eraseDups

/-- Parts of commands awaited from unit `u` end with UNIT_LOST. -/
def Dev.partsLost (s : Dev) (u : Nat) : Dev :=
  s.ctxs.foldl (fun (s : Dev) x =>
    (x.2.run.filter fun e => e.await.contains u).foldl (fun (s : Dev) e => s.partDone x.1 e.seq u ⟨.unitLost, 8⟩ 0 u []) s) s

/-- The manager declares unit `u` LOST (R381), in its order. -/
def Dev.unitLost (s : Dev) (u reason : Nat) : Dev :=
  if !s.isMgr || u == 0 || !s.isHere u || s.chain.asleep then s
  else
    let x := s.unit u
    let s := (s.setRb R.chainLost u true).setUnit u { x with st := .lost, attested := false, timeLocked := false, joining := false
                                                             admitted := false, offReq := false }
    let c := s.chain
    let drop := fun (l : List (Nat × Nat)) => l.filter (·.1 != u)
    let s : Dev := { s with chain := { c with
      ackWait := c.ackWait.filter (· != u), drainWait := c.drainWait.filter (· != u), wakeWait := c.wakeWait.filter (· != u)
      keyed := drop c.keyed, keyNew := drop c.keyNew, keyWait := drop c.keyWait, held := drop c.held
      cables := c.cables.filter (·.1 != u), downLinks := drop c.downLinks, dead := drop c.dead } }
    let s : Dev := { s with boot := { s.boot with chainWait := s.boot.chainWait.filter (· != u) } }
    let s := s.txAllLost u
    let s : Dev := { s with ctxs := s.ctxs.map fun y => (y.1, { y.2 with mqWait := y.2.mqWait.filter (·.unit != u) }) }
    let s := s.clipsLost u
    let s := (s.ctxsOn u).foldl (fun (s : Dev) c => s.ctxFault c ⟨.unitLost, 8⟩ 0 u 0xFFFF) s
    let s := s.partsLost u
    let s := (s.eng.rings.filter fun y => (y.2.map (·.unit)) == some u).foldl (fun (s : Dev) y => s.setInRing y.1 none) s
    let s := (s.slotOff u).epochChange
    let s := if s.chain.next.isSome ∧ s.chain.ackWait = [] ∧ s.chain.switchAt = none then s.switchSend else s
    (s.irq 0x7A000 16).raise
      { nm := .unitLost, blk := 0x15, d0 := u, d1 := x.serial % 2 ^ 32, d2 := x.serial / 2 ^ 32 % 2 ^ 32, d3 := reason }

/-- Units reached from the manager over links that are not dead. -/
def Dev.reached (s : Dev) : List Nat :=
  let peer := fun u p => if (u, p) ∈ s.chain.dead then none
    else (s.chain.cables.find? fun c => c.1 == u && c.2.1 == p).bind fun c => s.bySerial c.2.2
  let l := hopsTo peer s.isHere 0
  let l' := (List.range 16).filter fun u => decide (l.getD u 99 < 99)
  l'

/-- Links to unit `u` that are known. -/
def Dev.linksOf (s : Dev) (u : Nat) : List (Nat × Nat) :=
  (s.chain.cables.filter fun c => c.1 == u || s.bySerial c.2.2 == some u).map fun c => (c.1, c.2.1)

/-- The first unit whose every link, or whose way to the manager, is dead, with the reason. -/
def Dev.cutOff (s : Dev) : Option (Nat × Nat) :=
  let r := s.reached
  ((List.range 16).find? fun u => u != 0 && s.isHere u && s.linksOf u != [] && !r.contains u).map fun u =>
    (u, if (s.linksOf u).all s.chain.dead.contains then 2 else 4)

/-- Units cut off by dead links or lost units are declared LOST. -/
def Dev.lossCheck (s : Dev) : Nat → Dev
  | 0 => s
  | n + 1 => match s.cutOff with
    | none => s
    | some (u, why) => (s.unitLost u why).lossCheck n

/-- UNIT_LOST (R381): the manager declares a worker LOST; in an open line the units beyond it follow. -/
def execUnitLost (u reason : Nat) (s : State) : Host.Outcome State Fault Refusal :=
  .next { s with toDev := if s.toDev.isMgr then (s.toDev.unitLost u reason).lossCheck 16 else s.toDev }

/-- A worker's neighbours disable their ports towards it. -/
def Dev.shunUnit (s : Dev) (u : Nat) : Dev :=
  ((List.range 16).flatMap fun v => [(v, 0), (v, 1)]).foldl (fun (s : Dev) e =>
    if s.linkTo e.1 e.2 = some u then
      (if e.1 = 0 then (s.setRb (R.glkCtl e.2) 0 false).glkOff e.2 false else s.fwSend e.1 (.disablePort e.2))
    else s) s

/-- KEEPALIVE_TIMEOUT (R381): worker `u` has answered no KEEPALIVE for 5 ms while a route to it exists. -/
def Dev.aliveTimeout (s : Dev) (u : Nat) : Dev :=
  if !s.isMgr || u == 0 || !s.isHere u || s.chain.asleep || routeOf (s.rn R.chainRoute) u == 3 then s
  else ((s.shunUnit u).unitLost u 3).lossCheck 16

def execKeepaliveTimeout (u : Nat) (s : State) : Host.Outcome State Fault Refusal :=
  .next { s with toDev := s.toDev.aliveTimeout u }

/-- WAKE_REPORT_TIMEOUT (R400): a worker whose awake report is missing is LOST. -/
def Dev.wakeTimeout (s : Dev) (u : Nat) : Dev :=
  if s.chain.wakeWait.contains u then (s.unitLost u 3).lossCheck 16 else s

def execWakeReportTimeout (u : Nat) (s : State) : Host.Outcome State Fault Refusal :=
  .next { s with toDev := s.toDev.wakeTimeout u }

/-- QUARANTINE_TIMEOUT (R377): the conditions for joining are unmet 10 s after entry. -/
def Dev.quarTimeout (s : Dev) (u : Nat) : Dev :=
  let x := s.unit u
  if s.isMgr && x.st == .quarantine && !x.timedOut && u != 0 then
    (s.setUnit u { x with timedOut := true }).quarantined u x.serial 3
  else s

def execQuarantineTimeout (u : Nat) (s : State) : Host.Outcome State Fault Refusal :=
  .next { s with toDev := s.toDev.quarTimeout u }

/-! ### The switch (R379) -/

/-- At the switch the manager's units change state. -/
def Dev.epochUnits (s : Dev) : Dev :=
  (List.range 16).foldl (fun (s : Dev) u =>
    let x := s.unit u
    if u = 0 then s
    else if x.offReq then ((s.txAllLost u).setUnit u { x with st := .offline, offReq := false }).slotOff u
    else if x.joining then
      ((s.setUnit u { x with st := .joined, joining := false }).irq 0x7A000 1).raise
        { nm := .unitJoined, blk := 0x15, d0 := u, d1 := x.serial % 2 ^ 32, d2 := x.serial / 2 ^ 32 % 2 ^ 32, d3 := x.slot }
    else s) s

/-- A worker's own state by the mask of JOINED units; it shows the time to JOINED in TOP_BOOT_MS. -/
def Dev.ownState (s : Dev) (mask : Nat) : Dev :=
  let joined := bitN mask s.addr
  let fresh := joined && s.chain.own != .joined
  let s : Dev := { s with chain := { s.chain with own := if joined then .joined else .quarantine } }
  let s := s.setRf R.chainUnits 0 16 mask
  if fresh then s.setReg R.topBootMs (Word.ofNat ((s.ns - s.boot.startNs) / 1000000)) else s

/-- Unanswered transactions are issued again on the new routes, in TXID order (R374). -/
def Dev.reissue (s : Dev) : Dev :=
  let l := s.chain.out
  l.foldl (fun (s : Dev) t => s.chainSend t.frame) (s.perf 0x7A000 1 l.length)

/-- EPOCH_SWITCH (R379): at the switch time new frames carry the next epoch, and the previous table is kept while frames use it. -/
def Dev.epochSwitch (s : Dev) : Dev :=
  match s.chain.next, s.chain.switchAt with
  | some (e, t), some _ =>
    let old := (s.rf R.chainStat 6 8, s.rn R.chainRoute)
    let s : Dev := { s with chain := { s.chain with prev := some old, next := none, switchAt := none } }
    let s := ((s.setReg R.chainRoute (Word.ofNat t)).setRf R.chainStat 6 8 e).setRb R.chainStat 14 true
    let s := s.perf 0x7A000 0 1
    let s :=
      if s.isMgr then
        let s := s.epochUnits
        { s with chain := { s.chain with drainWait := 0 :: s.chain.sent.filter s.isHere } }
      else
        let gone := (List.range 16).filter fun d => routeOf t d == 3 && s.chain.out.any (·.dst == d)
        gone.foldl (fun (s : Dev) d => s.txAllLost d) (s.ownState (t / 2 ^ 32))
    s.reissue.drainCheck.checkJoin
  | _, _ => s

def execEpochSwitch (s : State) : Host.Outcome State Fault Refusal := .next { s with toDev := s.toDev.epochSwitch }

/-! ### Planned removal, admission, reservations (R375, R377, R382) -/

/-- A context other than 0 holds, or may be getting, a context slot on unit `u`. -/
def Dev.slotHeld (s : Dev) (u : Nat) : Bool :=
  s.chain.held.any (fun x => x.1 == u && x.2 != 0) || s.ctxs.any fun x => x.1 != 0 && x.2.run.any fun e => e.await.contains u

/-- A write of CHAIN_SLOT_CTL of slot `k`; OFFLINE_REQ removes the unit in it at the next epoch, or is refused. -/
def Dev.slotCtlWrite (s : Dev) (k : Nat) (v : Word) : Dev :=
  if !s.isMgr || k == 0 || decide (15 < k) then s
  else
    let s := s.setReg (R.chainSlotCtl (k - 1)) (Word.ofNat (v.fld 0 5 + v.fld 6 2 * 64))
    if !v.bit 5 then s
    else match s.unitInSlot k with
      | none => s
      | some u =>
        if !s.isHere u then s
        else if s.slotHeld u then s.setRb (R.chainSlotStat (k - 1)) 12 true
        else (s.setUnit u { s.unit u with offReq := true }).epochChange

/-- OFFLINE_REQ (R382). -/
def execOfflineReq (slot : Nat) (v : Word) (s : State) : Host.Outcome State Fault Refusal :=
  .next { s with toDev := s.toDev.slotCtlWrite slot (v.setBit 5 true) }

/-- CHAIN_ADMIT (R377). -/
def Dev.admitWrite (s : Dev) (v : Word) : Dev :=
  if !s.isMgr then s
  else ((List.range 16).foldl (fun (s : Dev) u =>
    if v.bit u && (s.unit u).st == .quarantine then s.setUnit u { s.unit u with admitted := true } else s) s).checkJoin

def execChainAdmit (v : Word) (s : State) : Host.Outcome State Fault Refusal :=
  .next { s with toDev := s.toDev.admitWrite v }

/-- CHAIN_RES_SER_HI (R375): the reservation of the selected address, unless that address is in QUARANTINE or JOINED. -/
def Dev.resWrite (s : Dev) (v : Word) : Dev :=
  let a := s.rf R.chainResSel 0 4
  let s := s.setReg R.chainResSerHi v
  if !s.isMgr || a == 0 || s.isHere a then s
  else { s with chain := { s.chain with res := Tab.set (fun _ => 0) s.chain.res a (s.rq R.chainResSerLo) } }

def execChainResSerHi (v : Word) (s : State) : Host.Outcome State Fault Refusal :=
  .next { s with toDev := s.toDev.resWrite v }

/-! ### I²C polls (R383) -/

/-- The manager's poll of slot `k` (1 to 15). -/
def Dev.pollSlot (s : Dev) (k : Nat) (x : SlotPoll) : Dev :=
  let st := R.chainSlotStat (k - 1)
  let ctl := R.chainSlotCtl (k - 1)
  let was := s.rb st 0
  let now := x.answers && x.present
  let btn := x.answers && x.button
  let s := (((s.setRb st 0 now).setRb st 1 (x.answers && x.powerGood)).setRb st 4 (!x.answers))
  let s := if x.answers then s.setRf ctl 0 5 x.control else s
  let s := if was != now then
      let s := (s.setRb st 3 true).raise { nm := .slotPresence, blk := 0x15, d0 := k, d1 := bN now }
      let s := if s.rb ctl 7 then s.irq 0x7A000 0 else s
      if now && s.rb R.chainCtl 0 then s.setRb ctl 0 true else s
    else s
  let s := if btn && !s.rb st 2 then
      let s := (s.setRb st 2 true).raise { nm := .slotAttention, blk := 0x15, d0 := k }
      if s.rb ctl 6 then s.irq 0x7A000 0 else s
    else s
  match s.unitInSlot k with
  | some u => if !now && (was || s.chain.wakeWait.contains u) then (s.unitLost u 1).lossCheck 16 else s
  | none => s

/-- I2C_POLL (R383): the slot controllers of slots 1 to 15, in order. A poll while the chain sleeps declares no loss. -/
def execI2cPoll (polls : List SlotPoll) (s : State) : Host.Outcome State Fault Refusal :=
  .next { s with toDev :=
    if s.toDev.isMgr then (polls.take 15).zipIdx.foldl (fun (d : Dev) x => d.pollSlot (x.2 + 1) x.1) s.toDev else s.toDev }

end Sys2Proof.Machine
end

