-- ==== Sys2Proof/Machine/Enum.lean ====
section
/-! DEFINITION. Links coming up and down, roles and conflicts, the enumeration walk, JOIN and directed waybills, keepalives
(R365-R367, R371, R375, R376, R381, R400, R412). -/

namespace Sys2Proof.Machine

/-! ### Waybills (the WAYBILL payload) -/

/-- NEXT. -/
def wayNext (b : List Byte) : Nat := natOf (b.take 1) % 32

/-- RETURN. -/
def wayReturn (b : List Byte) : Bool := bitN (natOf (b.take 1)) 5

/-- DIRECTED. -/
def wayDirected (b : List Byte) : Bool := bitN (natOf (b.take 1)) 6

/-- SERIAL. -/
def waySerial (b : List Byte) : Nat := natOf ((b.drop 8).take 8)

/-- SER[0] to SER[15]. -/
def waySers (b : List Byte) : List Nat := (List.range 16).map fun a => natOf ((b.drop (16 + 8 * a)).take 8)

/-- SLOT[0] to SLOT[15]. -/
def waySlots (b : List Byte) : List Nat := (List.range 16).map fun a => natOf ((b.drop (0x90 + a)).take 1)

/-- The lowest address with SER 0, 16 when there is none. -/
def wayLow (sers : List Nat) : Nat := ((List.range 16).find? fun a => sers.getD a 0 == 0).getD 16

/-- The payload of a waybill. -/
def wayBytes (ret dir : Bool) (serial : Nat) (sers slots : List Nat) : List Byte :=
  bytesOf 8 (wayLow sers + bN ret * 32 + bN dir * 64) ++ bytesOf 8 serial ++ sers.flatMap (bytesOf 8) ++ slots.flatMap (bytesOf 1)

/-- The waybill with RETURN set. -/
def wayBack (b : List Byte) : List Byte :=
  match b with
  | [] => []
  | x :: r => (if bitN x.toNat 5 then x else BitVec.ofNat 8 (x.toNat + 32)) :: r

/-- The link of port `p` is UP. -/
def Dev.linkOk (s : Dev) (p : Nat) : Bool := s.glkSt p == 2

/-- Send a waybill on port `p`; its header carries the manager's epoch `e`. -/
def Dev.waySend (s : Dev) (p e : Nat) (b : List Byte) : Dev :=
  if s.linkOk p then s.glkSend p { cls := 3, epoch := e, payload := b } else s

/-- The unit's route epoch. -/
def Dev.epoch (s : Dev) : Nat := s.rf R.chainStat 6 8

/-- The peer of port `p` reports no address. -/
def Dev.peerBare (s : Dev) (p : Nat) : Bool := s.linkOk p && !s.rb (R.glkStat p) 11

/-- This unit's slot number: its SLOT_ID strap. -/
def Dev.slotId (s : Dev) : Nat := s.rf R.topStrap 3 4

/-! ### Roles (R366) -/

/-- A port whose two ends are both managers, or addressed under different managers, goes into CONFLICT; each side reports it to its
own manager. -/
def Dev.checkRoles (s : Dev) (p : Nat) : Dev :=
  let g := s.glk p
  let both := s.isMgr && g.peerMgr
  let other := s.chain.addressed && s.rb (R.glkStat p) 11 && g.peerMgrSerial != s.chain.mgrSerial
  if s.linkOk p && (both || other) then
    let s := s.setRf (R.glkStat p) 0 2 3
    if s.isMgr then s.quarantined 0xF g.peerSerial 5
    else if s.chain.addressed then s.fwSend 0 (.conflict g.peerSerial) else s
  else s

/-! ### Addresses (R375, R376) -/

/-- JOIN for the peer of port `p`. -/
def Dev.sendJoin (s : Dev) (p slot : Nat) : Dev :=
  s.chainSend { cls := 2, dst := 0, sub := 4, payload := bytesOf 8 (s.glk p).peerSerial ++ bytesOf 1 (slot % 16) }

/-- The route table of a unit that knows only the way to the manager. -/
def homeRoute (a p : Nat) : Nat :=
  ((List.range 16).map fun d => (if d = a then 0 else if d = 0 then p + 1 else 3) * 4 ^ d).sum

/-- Report port `p`'s link to the manager. -/
def Dev.reportLink (s : Dev) (p : Nat) : Dev :=
  if s.linkOk p then s.fwSend 0 (.linkReport p true (s.glk p).peerSerial) else s

/-- The unit takes address `a` from a waybill of epoch `e` that arrived on port `p` (R375, R377). -/
def Dev.takeAddr (s : Dev) (p e a : Nat) (sers : List Nat) : Dev :=
  let s := ((s.setRf R.chainStat 0 4 a).setRf R.chainStat 6 8 e).setReg R.chainRoute (Word.ofNat (homeRoute a p))
  let s : Dev := { s with chain := { s.chain with addressed := true, mgrSerial := sers.getD 0 0, own := .quarantine } }
  let s := (s.checkRoles 0).checkRoles 1
  (((s.fwSend 0 (.addressed s.sec.serial s.slotId)).reportLink 0).reportLink 1)

/-- A waybill goes on: on the other port, or back with RETURN when that port is down (R375). A peer there that finds no free address is
named to the manager by a JOIN. -/
def Dev.wayOn (s : Dev) (p e : Nat) (b : List Byte) : Dev :=
  let q := otherPort p
  if s.linkOk q then
    let s := s.waySend q e b
    if wayNext b = 16 ∧ s.peerBare q = true ∧ wayReturn b = false ∧ wayDirected b = false ∧ (s.glk q).peerSerial ∉ waySers b then
      s.sendJoin q 0 else s
  else if wayReturn b then s
  else s.waySend p e (wayBack b)

/-- An undirected waybill reaches a unit without an address. -/
def Dev.wayFresh (s : Dev) (p e : Nat) (b : List Byte) : Dev :=
  let sers := waySers b
  let own := s.sec.serial
  match (List.range 16).find? fun a => a != 0 && sers.getD a 0 == own with
  | some a =>
    let slots := (waySlots b).set a s.slotId
    (s.takeAddr p e a sers).wayOn p e (wayBytes false false (waySerial b) sers slots)
  | none =>
    let a := wayNext b
    if a = 0 ∨ 16 ≤ a then s
    else
      let sers := sers.set a own
      let slots := (waySlots b).set a s.slotId
      (s.takeAddr p e a sers).wayOn p e (wayBytes false false (waySerial b) sers slots)

/-- A directed waybill reaches a unit without an address: it is taken only when SERIAL matches (R376). -/
def Dev.wayMine (s : Dev) (p e : Nat) (b : List Byte) : Dev :=
  let sers := waySers b
  if waySerial b ≠ s.sec.serial then s
  else match (List.range 16).find? fun a => a != 0 && sers.getD a 0 == s.sec.serial with
    | some a =>
      let s := s.takeAddr p e a sers
      if s.peerBare (otherPort p) then s.sendJoin (otherPort p) 0 else s
    | none => s

/-- WAYBILL at a worker. -/
def Dev.wayWorker (s : Dev) (p e : Nat) (b : List Byte) : Dev :=
  if s.chain.addressed then
    let s := if wayReturn b || wayDirected b || (waySers b).getD 0 0 != s.chain.mgrSerial then s
      else
        let s := ((s.setRf R.chainStat 6 9 e)).setReg R.chainRoute (Word.ofNat (homeRoute s.addr p))
        let s : Dev := { s with chain := { s.chain with own := .quarantine, prev := none, next := none, switchAt := none } }
        ((s.fwSend 0 (.addressed s.sec.serial s.slotId)).reportLink 0).reportLink 1
    s.wayOn p e b
  else if s.chain.mgrSerial ≠ 0 ∧ s.chain.mgrSerial ≠ (waySers b).getD 0 0 then s
  else if wayReturn b then s.wayOn p e b
  else if wayDirected b then s.wayMine p e b
  else s.wayFresh p e b

/-- The SER list with which the manager walks: its own serial number and the reservation table. -/
def Dev.resList (s : Dev) : List Nat :=
  (List.range 16).map fun a => if a = 0 then s.sec.serial else Tab.get (fun _ => 0) s.chain.res a

/-- The manager walks port `p` with a SER list. -/
def Dev.walkOn (s : Dev) (p : Nat) (sers slots : List Nat) : Dev :=
  ({ s with chain := { s.chain with walk := p + 1 } } : Dev).waySend p s.epoch (wayBytes false false 0 sers slots)

/-- The walk ends: the serial numbers received enter the reservation table, and units that named their slots enter QUARANTINE. -/
def Dev.walkEnd (s : Dev) (b : List Byte) : Dev :=
  let sers := waySers b
  let slots := waySlots b
  (List.range 16).foldl (fun (s : Dev) a =>
    let x := sers.getD a 0
    if a = 0 ∨ x = 0 then s
    else
      let s : Dev := { s with chain := { s.chain with res := Tab.set (fun _ => 0) s.chain.res a x } }
      if slots.getD a 0 = 0 then s else (s.enterQuar a x (slots.getD a 0)).epochBegin)
    ({ s with chain := { s.chain with walk := 3 } } : Dev)

/-- WAYBILL at the manager: one that RETURNs from GLK0 is followed by a walk of GLK1; one that arrives on the other port closes the
ring. -/
def Dev.wayMgr (s : Dev) (p : Nat) (b : List Byte) : Dev :=
  if wayDirected b || (waySers b).getD 0 0 != s.sec.serial then s
  else if s.chain.walk = 1 ∧ p = 0 ∧ wayReturn b = true then
    if s.linkOk 1 then s.walkOn 1 (waySers b) (waySlots b) else s.walkEnd b
  else if s.chain.walk = 2 ∧ p = 1 ∧ wayReturn b = true then s.walkEnd b
  else if (s.chain.walk = 1 ∧ p = 1 ∨ s.chain.walk = 2 ∧ p = 0) ∧ wayReturn b = false then
    (s.setRb R.chainStat 5 true).walkEnd b
  else s

/-- A waybill received on port `p` (R375, R376). -/
def Dev.waybill (s : Dev) (p : Nat) (f : Frame) : Dev :=
  if s.isMgr then s.wayMgr p f.payload else s.wayWorker p f.epoch f.payload

/-- The manager's address for a new peer: the one reserved for it, or the lowest that is neither reserved nor in use. -/
def Dev.chooseAddr (s : Dev) (serial : Nat) : Option Nat :=
  match (List.range 16).find? fun a => a != 0 && Tab.get (fun _ => 0) s.chain.res a == serial with
  | some a => some a
  | none => (List.range 16).find? fun a => a != 0 && Tab.get (fun _ => 0) s.chain.res a == 0 && !s.isHere a

/-- The manager gives a new peer an address: a directed waybill on port `p`. -/
def Dev.joinPeer (s : Dev) (p serial : Nat) : Dev :=
  match s.chooseAddr serial with
  | none => s.quarantined 0xF serial 4
  | some a =>
    let s : Dev := { s with chain := { s.chain with res := Tab.set (fun _ => 0) s.chain.res a serial } }
    s.waySend p s.epoch (wayBytes false true serial s.resList (List.replicate 16 0))

/-- JOIN from unit `u` (R376): the waybill goes the way the unit is reached. -/
def Dev.joinFrom (s : Dev) (u : Nat) (b : List Byte) : Dev :=
  if !s.isMgr then s
  else match s.portFor { cls := 2, dst := u } with
    | some p => s.joinPeer (if s.linkOk p then p else otherPort p) (natOf (b.take 8))
    | none => s

/-! ### Links up (R366, R367, R371) -/

/-- What a peer reports is held. -/
def Dev.peerSet (s : Dev) (p : Nat) (r : PeerRep) : Dev :=
  let s := s.setGlk p { s.glk p with peerSerial := r.serial, peerMgr := r.mgr, peerMgrSerial := if r.mgr then r.serial else r.mgrSerial }
  let s := s.setRf (R.glkStat p) 7 6 (r.addr % 16 + bN (r.addressed || r.mgr) * 16 + bN r.quar * 32)
  s.setRq (R.glkPeerSerLo p) r.serial

/-- A port has trained: with the peer it had, SEQ state and the replay buffer go on; otherwise they start anew. Every class has 32
credits. -/
def Dev.linkTrained (s : Dev) (p : Nat) (r : PeerRep) : Dev :=
  let g := s.glk p
  let g : Glk :=
    if g.keep = some r.serial then
      { g with cr0 := 32, cr1 := 32, cr2 := 32, cr3 := 32, fr0 := 0, fr1 := 0, fr2 := 0, fr3 := 0, replays := 0, keep := none }
    else { key0 := g.key0, key1 := g.key1, phase := g.phase, ivCount := g.ivCount, queue := g.queue, replayAt := g.replayAt }
  let s := (s.setGlk p g).peerSet p r
  let s := s.setRf (R.glkStat p) 0 7 (2 + r.lanes % 8 * 4 + bN g.key.isSome * 32 + bN g.phase * 64)
  let s := s.irq (glkPage p) 0
  let s := g.unacked.foldl (fun (s : Dev) f => s.wire p f) s
  s.glkPump p (s.glk p).queue.length

/-- The manager learns of a link end that is up. -/
def Dev.linkKnown (s : Dev) (u p serial : Nat) : Dev :=
  let e := (u, p)
  let c := s.chain
  let old := c.cables.contains (u, p, serial) && !c.dead.contains e
  let s : Dev := { s with chain := { c with
    downLinks := c.downLinks.filter (· != e), dead := c.dead.filter (· != e)
    cables := (u, p, serial) :: c.cables.filter fun x => !(x.1 == u && x.2.1 == p) } }
  if old then s else match s.bySerial serial with
    | some v => if s.isJoined u && s.isJoined v then s.keyAll.epochChange else s.checkJoin
    | none => s

/-- What follows a link that came up: the manager walks or gives the peer an address; an addressed worker reports the link, and names a
peer without an address. -/
def Dev.linkFollow (s : Dev) (p : Nat) (r : PeerRep) : Dev :=
  if s.isMgr then
    let s := s.linkKnown 0 p r.serial
    if p = 0 ∧ s.chain.walk = 0 then s.walkOn 0 s.resList (List.replicate 16 0)
    else if r.addressed then s else s.joinPeer p r.serial
  else if s.chain.addressed then
    let s := s.reportLink p
    if r.addressed || r.mgr then s else s.sendJoin p r.slot
  else s

/-- GLK_LINK_UP: a port has finished training with the peer's reports; on a link that is up already, the peer reports anew. -/
def Dev.linkUp (s : Dev) (p : Nat) (r : PeerRep) : Dev :=
  if 2 ≤ p then s
  else
    let slept := !s.isMgr && s.chain.asleep
    let s := s.workerWake
    if s.glkSt p = 1 then
      let s := (s.linkTrained p r).checkRoles p
      if s.linkOk p then
        let s := if slept then s.fwSend 0 .awake else s
        s.linkFollow p r
      else s
    else if s.linkOk p then (s.peerSet p r).checkRoles p
    else s

def execGlkLinkUp (p : Nat) (r : PeerRep) (s : State) : Host.Outcome State Fault Refusal :=
  .next { s with toDev := s.toDev.linkUp p r }

/-! ### Links down -/

/-- The link of port `p` is no longer there: the manager marks it, a worker reports it. -/
def Dev.linkGone (s : Dev) (p : Nat) : Dev :=
  if s.isMgr then
    if s.chain.downLinks.contains (0, p) then s
    else { s with chain := { s.chain with downLinks := s.chain.downLinks ++ [(0, p)] } }
  else if s.chain.addressed then s.fwSend 0 (.linkReport p false (s.glk p).peerSerial) else s

/-- A write of GLK_CTL: EN, and RETRAIN, which trains again with what R371 keeps for the same peer. -/
def Dev.glkCtlWrite (s : Dev) (p : Nat) (v : Word) : Dev :=
  let was := s.rb (R.glkCtl p) 0
  let up := s.linkOk p
  let s := s.setReg (R.glkCtl p) (Word.ofNat (v.fld 0 1))
  if !v.bit 0 then
    if was then (let s := s.glkOff p false; if up then s.linkGone p else s) else s
  else if !was then s.glkTrain p
  else if !v.bit 1 then s
  else
    let g := s.glk p
    let s := s.setGlk p { g with keep := if 2 ≤ s.glkSt p then some g.peerSerial else g.keep, replays := 0 }
    let s := (s.setRf (R.glkStat p) 0 2 1).setRf (R.glkStat p) 2 3 0
    if up then s.linkGone p else s

/-- GLK_CTL_RETRAIN: the write of GLK_CTL whose RETRAIN is 1. -/
def execGlkCtlRetrain (p : Nat) (v : Word) (s : State) : Host.Outcome State Fault Refusal :=
  .next { s with toDev := if 2 ≤ p then s.toDev else s.toDev.glkCtlWrite p (v.setBit 1 true) }

/-- Port `p` of this unit has been down for CHAIN_LOSS_HOLD: SEQ state, replay buffer, what waits and the keys go (R371, R412). -/
def Dev.holdOwn (s : Dev) (p : Nat) : Dev :=
  if 2 ≤ s.glkSt p then s else (s.setGlk p {}).setRf (R.glkStat p) 5 2 0

/-- At the manager, link end (`u`, `p`) has been down for CHAIN_LOSS_HOLD (R381, R412). -/
def Dev.holdMgr (s : Dev) (u p : Nat) : Dev :=
  let e := (u, p)
  if !s.chain.downLinks.contains e || s.chain.dead.contains e then s
  else
    let c := s.chain
    let no := fun (l : List (Nat × Nat)) => l.filter (· != e)
    (({ s with chain := { c with dead := e :: c.dead, keyed := no c.keyed, keyNew := no c.keyNew, keyWait := no c.keyWait } } : Dev).lossCheck
      16).epochChange

/-- LOSS_HOLD_EXPIRY: link end (`u`, `p`) of the chain has stayed down for CHAIN_LOSS_HOLD. While the chain sleeps no hold runs. -/
def Dev.lossHold (s : Dev) (u p : Nat) : Dev :=
  if 2 ≤ p ∨ s.chain.asleep = true then s
  else
    let s := if u = s.addr ∧ s.chain.addressed = true then s.holdOwn p else s
    if s.isMgr then s.holdMgr u p else s

def execLossHoldExpiry (u p : Nat) (s : State) : Host.Outcome State Fault Refusal :=
  .next { s with toDev := s.toDev.lossHold u p }

/-! ### Keepalives and key rollover (R381, R412) -/

/-- KEEPALIVE_TICK: every 1 ms the manager sends KEEPALIVE to each worker while the chain is awake. -/
def Dev.aliveTick (s : Dev) : Dev :=
  if s.isMgr && !s.chain.asleep then
    s.workers.foldl (fun (s : Dev) u => s.chainSend { cls := 2, dst := u, sub := 3 }) s
  else s

def execKeepaliveTick (s : State) : Host.Outcome State Fault Refusal := .next { s with toDev := s.toDev.aliveTick }

/-- LINK_KEY_ROLLOVER: after 2^40 frames or 24 h the manager renews the keys of the link of end (`u`, `p`). -/
def Dev.keyRollover (s : Dev) (u p : Nat) : Dev :=
  if s.isMgr && s.mgmtUp && s.chain.keyed.contains (u, p) then (s.deliverKeys (s.linkPair (u, p))).keysReady else s

def execLinkKeyRollover (u p : Nat) (s : State) : Host.Outcome State Fault Refusal :=
  .next { s with toDev := s.toDev.keyRollover u p }

end Sys2Proof.Machine
end

