-- ==== Sys2Proof/Machine/Sec.lean ====
section
/-! DEFINITION. Lifecycle, commitment of floors, the debug unlock, DBG memory reads, and the SPDM responder (R401-R417). -/

namespace Sys2Proof.Machine

/-! ### Lifecycle (R401) -/

/-- The number of a lifecycle state. -/
def Lc.num : Lc → Nat
  | .blank => 0 | .provisioned => 1 | .sealed => 2 | .decommissioned => 3

/-- A lifecycle request is refused: 1 order, 2 authorisation, 3 session open, 4 pending. -/
def Dev.lcRefuse (s : Dev) (why : Nat) : Dev := { s with sec := { s.sec with refuse := why } }

/-- Why a lifecycle request is refused before its order is looked at: a session, or a seal that is pending. -/
def Dev.lcBlock (s : Dev) : Nat := if s.sec.dbgLevel ≠ 0 then 3 else if s.sec.sealPending then 4 else 0

/-- A lifecycle change is logged and reported. -/
def Dev.lcDone (s : Dev) : Dev :=
  (({ s with sec := { s.sec with refuse := 0, audit := s.sec.audit + 1 } } : Dev)).irq 0x3000 0

/-- SEC_LC_REQ_PROVISIONED: `auth`: the blob decrypts; what it provisions: owner fields, DBG_MAX, evidence slots, the KEK. -/
def Dev.lcProvision (s : Dev) (auth : Bool) (owner dbgMax ev : Nat) (kek : Bool) : Dev :=
  if s.lcBlock ≠ 0 then s.lcRefuse s.lcBlock
  else if s.sec.lc ≠ .blank then s.lcRefuse 1
  else if !auth then s.lcRefuse 2
  else ({ s with sec := { s.sec with
    lc := .provisioned, owner := owner % 128, dbgMax := dbgMax % 4, evFused := ev % 16, kekFused := kek
    evLoaded := ev % 16, kekLoaded := kek } } : Dev).lcDone

def execSecLcReqProvisioned (auth : Bool) (owner dbgMax ev : Nat) (kek : Bool) (s : State) : Host.Outcome State Fault Refusal :=
  .next { s with toDev := s.toDev.lcProvision auth owner dbgMax ev kek }

/-- SEC_LC_REQ_SEALED: takes effect at the next power-on reset; `auth`: the token is signed by the owner root key. -/
def Dev.lcSeal (s : Dev) (auth : Bool) : Dev :=
  if s.lcBlock ≠ 0 then s.lcRefuse s.lcBlock
  else if s.sec.lc ≠ .provisioned then s.lcRefuse 1
  else if !auth then s.lcRefuse 2
  else { s with sec := { s.sec with sealPending := true, refuse := 0 } }

def execSecLcReqSealed (auth : Bool) (s : State) : Host.Outcome State Fault Refusal :=
  .next { s with toDev := s.toDev.lcSeal auth }

/-- Reset every context that has a slot on this unit (R90): the manager begins it, a worker asks the manager for it. `zero`: context 0
too. -/
def Dev.resetSlots (s : Dev) (zero : Bool) : Dev :=
  (s.slots.map (·.2)).foldl (fun (s : Dev) c =>
    if c = 0 then (if zero then s.dropWork 0 else s)
    else if s.isMgr then s.ctxCtlWrite .mgmt c 2 else s.fwSend 0 (.ctxReset c)) s

/-- Every core's AS is zeroised. -/
def Dev.zeroAs (s : Dev) : Dev := { s with as := [], asMarks := [] }

/-- SEC_LC_REQ_DECOMMISSIONED: at once; owner hashes and keys are fused to zero, contexts reset, memory zeroised. -/
def Dev.lcDecom (s : Dev) (auth : Bool) : Dev :=
  if s.lcBlock ≠ 0 then s.lcRefuse s.lcBlock
  else if s.sec.lc = .decommissioned then s.lcRefuse 1
  else if !auth then s.lcRefuse 2
  else
    let s : Dev := { s with sec := { s.sec with
      lc := .decommissioned, owner := 0, evFused := 0, kekFused := false, evLoaded := 0, kekLoaded := false } }
    let s := (s.resetSlots true).zeroAs
    let s : Dev := { s with boot := { s.boot with zero := [allDram] } }
    (s.setRb R.topStat 4 true).lcDone

def execSecLcReqDecommissioned (auth : Bool) (s : State) : Host.Outcome State Fault Refusal :=
  .next { s with toDev := s.toDev.lcDecom auth }

/-- SEC_COMMIT (R404): after an image has booted, the floors rise to the running image's and its REVOKE mask is carried out. -/
def Dev.secCommit (s : Dev) : Dev :=
  if !s.boot.started then s
  else
    let c := s.sec
    let keep := c.revokeMask % 16 - (if bitN c.revokeMask c.signSlot then 2 ^ c.signSlot else 0)
    { s with sec := { c with
      floorM := max c.floorM c.runM, floorC := if s.boot.codecOk then max c.floorC c.runC else c.floorC
      revoked := c.revoked ||| keep, audit := c.audit + 1 } }

def execSecCommit (v : Word) (s : State) : Host.Outcome State Fault Refusal :=
  .next { s with toDev := if v.bit 0 then s.toDev.secCommit else s.toDev }

/-! ### Debug (R413-R416) -/

/-- A read of DBG_CHAL0 draws a fresh nonce of eight words; its first one. -/
def Dev.chalRead (s : Dev) : Word × Dev :=
  let r := (List.range 8).foldl (fun (b : List Nat × Dev) _ =>
    let (x, s) := b.2.draw 90
    (b.1 ++ [x % 2 ^ 32], s)) (([], s) : List Nat × Dev)
  (Word.ofNat (r.1.headD 0), { r.2 with sec := { r.2.sec with nonce := r.1 } })

/-- DBG_CHAL0. -/
def execDbgChal0 (req : Nat) (s : State) : Host.Outcome State Fault Refusal :=
  .next { s with toDev := s.toDev.chalRead.2.emit (.cpl req (bytesOf 4 s.toDev.chalRead.1.toNat) false) }

/-- An unlock is refused with a reason. -/
def Dev.dbgRefuse (s : Dev) (why : Nat) : Dev :=
  let s := (s.satFld R.dbgRefuse 0 8 1).setRf R.dbgRefuse 8 4 why
  (({ s with sec := { s.sec with audit := s.sec.audit + 1 } } : Dev)).irq 0x4000 16

/-- The levels the matrix of R415 allows in a state. -/
def lcAllows (lc : Lc) (lv : Nat) : Bool := decide (1 ≤ lv) && (decide (lv ≤ 2) || (lv == 3 && lc == .blank))

/-- Why a token is refused, 0 when it is not (R414). `sig`: the carried key's hash is the debug key hash of the state, and the
signature verifies. -/
def Dev.dbgWhy (s : Dev) (tok : List Byte) (sig : Bool) : Nat :=
  let w := fun i => natOf ((tok.drop i).take 4)
  let lv := w 4 % 4
  let owner := s.sec.lc == .provisioned || s.sec.lc == .sealed
  if !sig || w 0 != 0x4B4C4E55 || bitN (w 4) 4 != owner then 1
  else if natOf ((tok.drop 8).take 8) ≠ s.sec.serial then 2
  else if s.sec.nonce = [] ∨ ((List.range 8).map fun i => w (0x10 + 4 * i)) ≠ s.sec.nonce then 3
  else if !lcAllows s.sec.lc lv then 4
  else if s.sec.lc = .sealed ∧ s.sec.dbgMax < lv then 5
  else if s.inD3 || !s.boot.powered then 6
  else 0

/-- DBG_UNLOCK (R414 steps 2 to 4): the token of DBG_TOKEN in this unit's DRAM, or as `tok` gives it for the TAP and on a worker. -/
def Dev.dbgUnlock (s : Dev) (tap : Bool) (tok : List Byte) (sig : Bool) : Dev :=
  if s.sec.unlocking.isSome then s
  else
    let tok := if s.isMgr && !tap then s.bytes (s.rq R.dbgTokenLo) 256 else tok
    let why := s.dbgWhy tok sig
    if why ≠ 0 then s.dbgRefuse why
    else
      let lv := natOf ((tok.drop 4).take 1) % 4
      let s : Dev := { s with sec := { s.sec with unlocking := some lv, nonce := [], tap := s.sec.tap || tap } }
      if lv < 2 then s else s.resetSlots false

def execDbgUnlock (tap : Bool) (tok : List Byte) (sig : Bool) (s : State) : Host.Outcome State Fault Refusal :=
  .next { s with toDev := s.toDev.dbgUnlock tap tok sig }

/-- What the matrix of R415 zeroises before level `lv` opens. -/
def Dev.dbgZero (s : Dev) (lv : Nat) : Dev :=
  if lv < 2 then s
  else
    let s := s.zeroAs
    let ext := if s.sec.lc = .decommissioned then [allDram]
      else if s.sec.lc = .sealed then s.guardedExtents.filter fun e => e.cls != 3
      else if s.sec.lc = .blank ∧ lv = 3 then s.guardedExtents
      else []
    let s := ext.foldl (fun (s : Dev) e => s.memZero e.base e.len) s
    if s.sec.lc = .provisioned ∨ s.sec.lc = .sealed then
      { s with sec := { s.sec with evLoaded := 0, kekLoaded := false, keysLocked := true } }
    else s

/-- DEBUG_UNLOCKED (R414 steps 5 and 6): once the contexts are reset, memory is zeroised and the level opens. -/
def Dev.dbgOpened (s : Dev) : Dev :=
  match s.sec.unlocking with
  | none => s
  | some lv =>
    if 2 ≤ lv ∧ s.slots.any (fun x => x.2 != 0) = true then s
    else
      let s := s.dbgZero lv
      let force := s.pwr.fum && decide (2 ≤ lv)
      let s : Dev := { s with sec := { s.sec with
        unlocking := none, dbgLevel := lv, fumForce := s.sec.fumForce || force, unlocks := satAdd 255 s.sec.unlocks 1
        audit := s.sec.audit + 1 } }
      (s.irq 0x4000 0).raise { nm := .debugUnlocked, blk := 5, d0 := lv, d1 := s.sec.unlocks, d3 := bN force }

def execDebugUnlocked (s : State) : Host.Outcome State Fault Refusal := .next { s with toDev := s.toDev.dbgOpened }

/-- DBG_LOCK (R413): a lower level; at CLOSED the session ends. -/
def Dev.dbgLock (s : Dev) (v : Word) : Dev :=
  let lv := v.fld 0 2
  if s.sec.dbgLevel ≤ lv then s
  else { s with sec := { s.sec with
    dbgLevel := lv, fumForce := s.sec.fumForce && decide (2 ≤ lv), tap := s.sec.tap && lv != 0
    audit := s.sec.audit + (if lv = 0 then 1 else 0) } }

def execDbgLock (v : Word) (s : State) : Host.Outcome State Fault Refusal := .next { s with toDev := s.toDev.dbgLock v }

/-- In Fumarole a core that the session addresses is powered and clocked; its AS is zeroised (R416). -/
def Dev.dbgCore (s : Dev) (k : Nat) : Dev :=
  if s.pwr.fum && s.pwr.gated.contains k then
    let s := ((s.asZero k 0 (2 ^ 23)).ungate k).relock k
    { s with pwr := { s.pwr with gated := s.pwr.gated.filter (· != k) }, sec := { s.sec with fumForce := true } }
  else s

/-- Bytes with those that `cut` names replaced by zeros. -/
def maskBytes (cut : Nat → Bool) (bs : List Byte) : List Byte := bs.zipIdx.map fun x => if cut x.2 then 0 else x.1

/-- DBG_MEMORY_READ (R406, R407, R413): at AUTH_DEBUG or above, `len` bytes from a usable address, or from an AS; blocked bytes read as
zeros. -/
def Dev.dbgRead (s : Dev) (req : Nat) (core : Option Nat) (a len : Nat) : Dev :=
  if s.sec.dbgLevel < 2 then s
  else if s.inD3 then s.emit (.tapBusy req)
  else match core with
    | some k =>
      let k := k % 16
      let s := s.dbgCore k
      let (open_, s) := s.drawBytes 107 (if 2 ^ 23 < a + len then len else 0)
      let bs := (s.asBytes k a len).zipIdx.map fun x => if a + x.2 < 2 ^ 23 then x.1 else open_.getD x.2 0
      if s.dbgOpen || len == 0 then s.emit (.cpl req bs false)
      else (s.ventBlock .dbg a 1 none 0 0).emit (.cpl req (List.replicate len 0) false)
    | none =>
      let (open_, s) := s.drawBytes 107 (if s.usable < a + len then len else 0)
      let raw := (s.bytes a len).zipIdx.map fun x => if a + x.2 < s.usable then x.1 else open_.getD x.2 0
      let bs := maskBytes (fun i => (s.dbgByte (a + i)).2) raw
      match (List.range len).find? fun i => (s.dbgByte (a + i)).2 with
      | some i => (s.ventBlock .dbg (a + i) (s.dbgByte (a + i)).1 (s.ctxOfAddr (a + i)) 0 0).emit (.cpl req bs false)
      | none => s.emit (.cpl req bs false)

def execDbgMemoryRead (req : Nat) (core : Option Nat) (a len : Nat) (s : State) : Host.Outcome State Fault Refusal :=
  .next { s with toDev := s.toDev.dbgRead req core a len }

/-! ### The SPDM responder (R409, R410) -/

/-- ZERO_ON_FREE as it takes effect (R408). -/
def Dev.zeroOnFree (s : Dev) : Bool := s.enforcing || s.rb R.secCtl 0

/-- A measurement block (R410). Digests are free. Block 6's content is what the workers' blocks give: free. -/
def Dev.measureBlk (s : Dev) (k : Nat) : List Nat :=
  match k with
  | 1 => [Config.freeNat 94 0]
  | 2 => [Config.freeNat 95 (s.rn R.mgmtFwVer), s.sec.runM, s.sec.floorM]
  | 3 => [Config.freeNat 96 (s.rn R.mgmtFwVer), s.sec.runC, s.sec.floorC]
  | 4 => [s.sec.lc.num, s.sec.dbgLevel, bN s.sec.fumForce, bN s.sec.keysLocked, s.sec.unlocks, s.sec.audit]
  | 5 => [bN s.enforcing, 1, bN s.zeroOnFree, bN s.sec.sealPending, s.sec.ventBlocks]
  | 6 => [Config.freeNat 97 s.draws]
  | 7 => [s.sec.revoked, s.sec.owner, s.sec.dbgMax]
  | _ => []

/-- The certificate slots that hold a chain: 0, and 1 once the unit is provisioned (R409). -/
def Dev.certSlot (s : Dev) (k : Nat) : Bool := k == 0 || (k == 1 && s.sec.lc != .blank)

/-- The answer to an SPDM request: its code and fields; status 0, or 1 for an invalid request. Chains, digests and signatures are
free. -/
def Dev.spdmAnswer (s : Dev) (code : Nat) (x : List Nat) : Dev :=
  let a := x.getD 0 0
  let say := fun (s : Dev) (st : Nat) (d : List Nat) => s.emit (.mgmtMsg { proto := 0, code, status := st, data := d })
  match code with
  | 0x84 => say s 0 [0x12]
  | 0xE1 => say s 0 [20, 0x16]
  | 0xE3 => say s 0 [1, 0x80, 2, 4]
  | 0x81 => say s 0 ((if s.certSlot 1 then 3 else 1) :: ([0, 1].filter s.certSlot).map (Config.freeNat 91))
  | 0x82 => if s.certSlot a then say s 0 [a, x.getD 1 0, x.getD 2 0, Config.freeNat 92 a] else say s 1 []
  | 0x83 => if s.certSlot a then (let r := s.draw 93; say r.2 0 [a, r.1]) else say s 1 []
  | _ =>
    let l := if a = 0 then [7] else if a = 0xFF then (List.range 7).flatMap fun k => s.measureBlk (k + 1) else s.measureBlk a
    if l = [] then say s 1 [] else if x.getD 1 0 = 1 then (let r := s.draw 93; say r.2 0 (l ++ [r.1])) else say s 0 l

/-- DOE holds requests: in D3hot, and while management firmware is down (R409, R428). -/
def Dev.doeHolds (s : Dev) : Bool := s.inD3 || !s.mgmtUp

/-- An SPDM request arrives in the PF's DOE mailbox; while one is held, DOE is Busy and takes no other. -/
def Dev.spdm (s : Dev) (code : Nat) (x : List Nat) : Dev :=
  if !s.isMgr || s.mctp.doe.isSome then s
  else if s.doeHolds then { s with mctp := { s.mctp with doe := some (code, x) } }
  else s.spdmAnswer code x

/-- A held request is answered. -/
def Dev.doeRelease (s : Dev) : Dev :=
  match s.mctp.doe with
  | some (code, x) =>
    if s.doeHolds then s else ({ s with mctp := { s.mctp with doe := none } } : Dev).spdmAnswer code x
  | none => s

def execGetVersion (s : State) : Host.Outcome State Fault Refusal := .next { s with toDev := s.toDev.spdm 0x84 [] }

def execGetCapabilities (s : State) : Host.Outcome State Fault Refusal := .next { s with toDev := s.toDev.spdm 0xE1 [] }

def execNegotiateAlgorithms (s : State) : Host.Outcome State Fault Refusal := .next { s with toDev := s.toDev.spdm 0xE3 [] }

def execGetDigests (s : State) : Host.Outcome State Fault Refusal := .next { s with toDev := s.toDev.spdm 0x81 [] }

def execGetCertificate (slot off len : Nat) (s : State) : Host.Outcome State Fault Refusal :=
  .next { s with toDev := s.toDev.spdm 0x82 [slot, off, len] }

def execChallenge (slot : Nat) (s : State) : Host.Outcome State Fault Refusal :=
  .next { s with toDev := s.toDev.spdm 0x83 [slot] }

def execGetMeasurements (index : Nat) (sign : Bool) (s : State) : Host.Outcome State Fault Refusal :=
  .next { s with toDev := s.toDev.spdm 0xE0 [index, bN sign] }

/-- PMCSR_D0: the return to D0 (R398); a request that DOE held is answered. -/
def execPmcsrD0 (s : State) : Host.Outcome State Fault Refusal := .next { s with toDev := s.toDev.d3Exit.doeRelease }

end Sys2Proof.Machine
end

