-- ==== Sys2Proof/Machine/Mgmt.lean ====
section
/-! DEFINITION. The management processor: images, the watchdog, firmware update; the SMBus target, MCTP and PLDM (R423-R432,
R455). -/

namespace Sys2Proof.Machine

/-! ### PLDM sensors (R432) -/

/-- A sensor of this unit: its reading and its upper warning, critical and fatal thresholds. -/
def Dev.sensor (s : Dev) (k : Nat) : Int × List Int :=
  let th := s.reg R.pwrThermCfg
  match k with
  | 1 => (toSigned 16 (s.rf R.pwrTempMax 0 16), [4 * (th.fld 0 8 : Int), 4 * (th.fld 16 8 : Int), 4 * (th.fld 24 8 : Int)])
  | 2 => (s.rn R.pwrPower, [(s.rf R.pwrCap 0 10 * 250 : Nat)])
  | 3 => (s.rf R.pwrStat 4 4, [8])
  | _ => ((s.ras.ceLog.filter fun x => s.ns < x.1 + s.rf R.rasCeWindow 0 16 * 1000000000).length, [(s.rn R.rasCeThresh : Nat)])

/-- How many of a sensor's thresholds its reading has reached. -/
def Dev.sensorState (s : Dev) (k : Nat) : Nat :=
  let x := s.sensor k
  (x.2.filter fun t => t ≤ x.1).length

/-- MCTP is served: management firmware runs, in D0 or Fumarole (R428, R431). -/
def Dev.mctpUp (s : Dev) : Bool := s.boot.powered && s.mgmtUp && !s.inD3 && !(s.chain.asleep && !s.isMgr)

/-- A PlatformEventMessage goes to the receiver for each sensor whose reading has crossed a threshold (R431, R455). -/
def Dev.sensorCheck (s : Dev) : Dev :=
  [1, 2, 3, 4].foldl (fun (s : Dev) k =>
    let now := s.sensorState k
    let was := Tab.get (fun _ => 0) s.mctp.sensors k
    if now = was ∨ s.mctpUp = false then s
    else
      let s : Dev := { s with mctp := { s.mctp with sensors := Tab.set (fun _ => 0) s.mctp.sensors k now } }
      match s.mctp.receiver with
      | some _ => s.emit (.mgmtMsg { proto := 2, code := 0x0A, status := 0, data := [0x100 * s.addr + k, was, now] })
      | none => s) s

def execGovernorEval (mw : Nat) (s : State) : Host.Outcome State Fault Refusal :=
  .next { s with toDev := (s.toDev.governor mw).sensorCheck }

def execThermalSample (readings : List Int) (s : State) : Host.Outcome State Fault Refusal :=
  .next { s with toDev := (s.toDev.thermSample readings).sensorCheck }

/-! ### The watchdog (R427, R428) -/

/-- Watchdog expiries of the last 10 minutes. -/
def Dev.wdtRecent (s : Dev) : List Nat := s.mgmt.wdtAt.filter fun t => s.ns < t + 600 * 1000000000

/-- An update that runs ends FAILED with a reason; the slots are unchanged (R424). -/
def Dev.updFail (s : Dev) (why : Nat) : Dev :=
  ((s.setRf R.mgmtUpdStat 0 2 3).setRf R.mgmtUpdStat 4 4 why).irq 0x5000 16

/-- WATCHDOG_EXPIRY: MGMT restarts, or with the third expiry within 10 minutes halts. -/
def Dev.watchdog (s : Dev) : Dev :=
  if !s.mgmtUp then s
  else
    let l := s.ns :: s.wdtRecent
    let halt := decide (3 ≤ l.length)
    let s : Dev := { s with mgmt := { s.mgmt with wdtAt := l } }
    let s := ((s.setRb R.mgmtStat 2 false).setRf R.mgmtStat 0 2 (if halt then 2 else 1)).satInc R.mgmtWdtCnt 1
    let s := if s.mgmt.updBusy then ({ s with mgmt := { s.mgmt with updBusy := false } } : Dev).updFail 6 else s
    (s.irq 0x5000 17).raise { nm := .heartbeatMissed, blk := 6, d0 := s.addr, d1 := l.length, d3 := bN halt }

def execWatchdogExpiry (s : State) : Host.Outcome State Fault Refusal := .next { s with toDev := s.toDev.watchdog }

/-- After a watchdog reset the running image boots again when it verifies; codec firmware keeps running (R427, R428). -/
def Dev.restarted (s : Dev) (img : ImageCheck) : Dev :=
  if !s.imageOk img then s.authFail 0 (bN (s.rb R.topStat 6)) (if img.ok then 2 else img.reason)
  else if img.runs then (s.setRb R.mgmtStat 2 true).setRf R.mgmtStat 0 2 0 else s

/-- IMAGE_VERIFIED: in boot, or after a watchdog reset; what waited for management firmware goes on (R428). A worker has received the
manager's bundle before (R426). -/
def Dev.imageIn (s : Dev) (img : ImageCheck) : Dev :=
  if s.rf R.mgmtStat 0 2 = 2 ∨ (s.isMgr = false ∧ s.boot.trying = none) then s
  else
    let s := if s.rf R.mgmtStat 0 2 = 1 then s.restarted img else s.imageVerified img
    s.doeRelease.checkJoin

def execImageVerified (img : ImageCheck) (s : State) : Host.Outcome State Fault Refusal :=
  .next { s with toDev := s.toDev.imageIn img }

/-! ### Firmware update (R424) -/

/-- The slot that is not ACTIVE. -/
def Mgmt.spare (m : Mgmt) : Nat := if m.slotA.st = .active then 1 else 0

/-- MGMT_UPD_CTL.START. -/
def Dev.updStart (s : Dev) : Dev :=
  let n := s.rn R.mgmtUpdLen
  if !s.isMgr then s
  else if s.mgmt.updBusy then s.updFail 7
  else if s.rf R.mgmtStat 0 2 ≠ 0 then s.updFail 6
  else if n = 0 ∨ 16777216 < n then s.updFail 4
  else
    ({ s with mgmt := { s.mgmt with updBusy := true } } : Dev).setReg R.mgmtUpdStat (Word.ofNat (1 + s.mgmt.spare * 256))

/-- MGMT_UPD_CTL. -/
def execMgmtUpdCtl (v : Word) (s : State) : Host.Outcome State Fault Refusal :=
  .next { s with toDev := if v.bit 0 then s.toDev.updStart else s.toDev }

/-- UPD_DONE: both images verified under R403 and the floors, and the bundle written; or FAILED, with the slots unchanged. -/
def Dev.updDone (s : Dev) (img : ImageCheck) (flashOk : Bool) : Dev :=
  if !s.mgmt.updBusy then s
  else
    let k := s.mgmt.spare
    let s : Dev := { s with mgmt := { s.mgmt with updBusy := false } }
    if !img.ok || !img.codec then s.updFail img.reason
    else if img.mgmtSvn < s.sec.floorM ∨ img.codecSvn < s.sec.floorC then s.updFail 2
    else if !flashOk then s.updFail 5
    else
      let f : Flash := { st := .pending, svn := img.mgmtSvn, csvn := img.codecSvn, version := img.version }
      let s : Dev := { s with mgmt := s.mgmt.setSlot k f }
      (s.setReg R.mgmtUpdStat (Word.ofNat (2 + k * 256))).irq 0x5000 0

def execUpdDone (img : ImageCheck) (flashOk : Bool) (s : State) : Host.Outcome State Fault Refusal :=
  .next { s with toDev := s.toDev.updDone img flashOk }

/-! ### The SMBus target (R429, R430) -/

/-- One step of the SMBus PEC, a CRC-8 with polynomial x^8 + x^2 + x + 1. -/
def pecByte (c : Nat) (b : Nat) : Nat :=
  (List.range 8).foldl (fun (c : Nat) _ => if 128 ≤ c then (c * 2 % 256).xor 7 else c * 2) (c.xor b)

/-- The PEC of bytes. -/
def pec (l : List Nat) : Nat := l.foldl pecByte 0

/-- The unit's SMBus address. -/
def Dev.smbAddr (s : Dev) : Nat := 0x60 + s.rf R.topStrap 1 2

/-- The always-on hardware has power: main power or standby. -/
def Dev.aonUp (s : Dev) : Bool := s.boot.powered || s.boot.aonKept

/-- A block read of device-specific command `code`: the byte count, the data, and the PEC when the host asks for it. -/
def Dev.smbRead (s : Dev) (code : Nat) (data : List Byte) (withPec : Bool) : Dev :=
  if !s.aonUp then s
  else
    let bs := BitVec.ofNat 8 data.length :: data
    let a := s.smbAddr * 2
    let p : List Byte := if withPec then [BitVec.ofNat 8 (pec ([a, code, a + 1] ++ bs.map (·.toNat)))] else []
    s.emit (.smbus (bs ++ p))

/-- The data of STATUS. -/
def Dev.smbStatus (s : Dev) : List Byte :=
  let cold := !s.boot.powered
  let lo := s.sec.lc.num + (if cold then 4 else s.rf R.pwrStat 0 3) * 4 + s.rf R.mgmtStat 0 2 * 32 + s.rf R.topStat 0 3 * 256
    + s.rf R.pwrStat 4 4 * 2 ^ 12 + (if cold then 0x8000 else s.rf R.pwrTempMax 0 16) * 2 ^ 16
  bytesOf 4 lo ++ bytesOf 4 (s.rn R.pwrPower)

/-- STATUS. -/
def execStatus (withPec : Bool) (s : State) : Host.Outcome State Fault Refusal :=
  .next { s with toDev := s.toDev.smbRead 1 s.toDev.smbStatus withPec }

/-- ALERT. -/
def execAlert (withPec : Bool) (s : State) : Host.Outcome State Fault Refusal :=
  .next { s with toDev := s.toDev.smbRead 2 (bytesOf 4 (s.toDev.rn R.topAlertStat)) withPec }

/-- Clear alert bits. -/
def Dev.alertClear (s : Dev) (v : Word) : Dev := (s.setReg R.topAlertStat (s.reg R.topAlertStat &&& ~~~v)).alertPin false

/-- ALERT_CLEAR: a block write of 4 bytes with an optional PEC; a bad PEC is NACKed. -/
def Dev.smbClear (s : Dev) (v : Word) (p : Option Byte) : Dev :=
  if !s.aonUp then s
  else
    let ok : Bool := match p with
      | none => true
      | some b => pec ([s.smbAddr * 2, 2, 4] ++ (bytesOf 4 v.toNat).map (·.toNat)) == b.toNat
    if ok = true then s.alertClear v else s.emit .smbusNack

def execAlertClear (v : Word) (p : Option Byte) (s : State) : Host.Outcome State Fault Refusal :=
  .next { s with toDev := s.toDev.smbClear v p }

/-- SERIAL. -/
def execSerial (withPec : Bool) (s : State) : Host.Outcome State Fault Refusal :=
  .next { s with toDev := s.toDev.smbRead 3 (bytesOf 8 s.toDev.sec.serial) withPec }

/-- TRIP. -/
def execTrip (withPec : Bool) (s : State) : Host.Outcome State Fault Refusal :=
  .next { s with toDev := s.toDev.smbRead 4 (bytesOf 4 (s.toDev.rn R.pwrTripRec)) withPec }

/-- ALERT_RESPONSE_ADDRESS (R430): a unit that drives ALERT_N answers with its address and releases the pin. -/
def Dev.alertResponse (s : Dev) : Dev :=
  if !s.aonUp then s
  else if (s.reg R.topAlertStat &&& s.reg R.topAlertEn) = 0 ∨ s.mctp.alertHeld = true then s.emit .smbusNack
  else
    let s := (s.emit (.smbus [BitVec.ofNat 8 (s.smbAddr * 2)])).emit (.pin .alertN true)
    { s with mctp := { s.mctp with alertHeld := true } }

def execAlertResponseAddress (s : State) : Host.Outcome State Fault Refusal := .next { s with toDev := s.toDev.alertResponse }

/-! ### MCTP and PLDM (R431, R432) -/

/-- Answer a management message; while MCTP is not served the SMBus target NACKs it, and before an EID is set only Set Endpoint ID is
answered. `first`: it is Set Endpoint ID. -/
def Dev.mctpSay (s : Dev) (first : Bool) (r : MgmtReply) : Dev :=
  if !s.aonUp then s
  else if !s.mctpUp then s.emit .smbusNack
  else if s.mctp.eid = 0 ∧ first = false then s
  else s.emit (.mgmtMsg r)

/-- SET_ENDPOINT_ID: 0 and 0xFF are no endpoint IDs (PRESUMED, notes/assumptions/31). -/
def Dev.setEid (s : Dev) (eid : Nat) : Dev :=
  let eid := eid % 256
  if eid = 0 ∨ eid = 255 then s.mctpSay true { proto := 1, code := 1, status := 2, data := [s.mctp.eid] }
  else
    let s : Dev := if s.aonUp && s.mctpUp then { s with mctp := { s.mctp with eid } } else s
    s.mctpSay true { proto := 1, code := 1, status := 0, data := [s.mctp.eid] }

def execSetEndpointId (eid : Nat) (s : State) : Host.Outcome State Fault Refusal := .next { s with toDev := s.toDev.setEid eid }

def execGetEndpointId (s : State) : Host.Outcome State Fault Refusal :=
  .next { s with toDev := s.toDev.mctpSay false { proto := 1, code := 2, status := 0, data := [s.toDev.mctp.eid] } }

def execGetMctpVersionSupport (s : State) : Host.Outcome State Fault Refusal :=
  .next { s with toDev := s.toDev.mctpSay false { proto := 1, code := 4, status := 0, data := [Config.freeNat 98 0] } }

def execGetMessageTypeSupport (s : State) : Host.Outcome State Fault Refusal :=
  .next { s with toDev := s.toDev.mctpSay false { proto := 1, code := 5, status := 0, data := [0, 1] } }

def execGettid (s : State) : Host.Outcome State Fault Refusal :=
  .next { s with toDev := s.toDev.mctpSay false { proto := 2, code := 2, status := 0, data := [Config.freeNat 98 1] } }

def execGetpldmversion (s : State) : Host.Outcome State Fault Refusal :=
  .next { s with toDev := s.toDev.mctpSay false { proto := 2, code := 3, status := 0, data := [Config.freeNat 98 2] } }

def execGetpldmtypes (s : State) : Host.Outcome State Fault Refusal :=
  .next { s with toDev := s.toDev.mctpSay false { proto := 2, code := 4, status := 0, data := [0, 2] } }

/-- GETPLDMCOMMANDS: the commands served of a PLDM type. -/
def execGetpldmcommands (type : Nat) (s : State) : Host.Outcome State Fault Refusal :=
  let l := if type = 0 then [2, 3, 4, 5] else if type = 2 then [4, 0x11, 0x50, 0x51] else []
  .next { s with toDev := s.toDev.mctpSay false { proto := 2, code := 5, status := bN l.isEmpty, data := l } }

/-- The sensors presented: of the manager and of each JOINED worker; a worker presents none. -/
def Dev.sensorIds (s : Dev) : List Nat :=
  if !s.isMgr then []
  else ((List.range 16).filter s.isJoined).flatMap fun u => [1, 2, 3, 4].map fun k => 0x100 * u + k

/-- GETSENSORREADING: operational state 0 enabled, with the event state and the reading in the sensor's resolution; 2 unavailable for a unit
that is not JOINED. A worker's reading is free: firmware reads it through the remote window. -/
def Dev.sensorRead (s : Dev) (id : Nat) : Dev :=
  let u := id / 256
  let k := id % 256
  if !s.isMgr || k == 0 || decide (4 < k) || decide (16 ≤ u) then s.mctpSay false { proto := 2, code := 0x11, status := 0x80, data := [] }
  else if !s.isJoined u then s.mctpSay false { proto := 2, code := 0x11, status := 0, data := [2] }
  else if u = 0 then
    s.mctpSay false { proto := 2, code := 0x11, status := 0, data := [0, s.sensorState k, ofSigned 32 (s.sensor k).1] }
  else
    let (v, s) := s.draw 99
    s.mctpSay false { proto := 2, code := 0x11, status := 0, data := [0, v] }

def execGetsensorreading (id : Nat) (s : State) : Host.Outcome State Fault Refusal :=
  .next { s with toDev := s.toDev.sensorRead id }

/-- GETPDRREPOSITORYINFO: the number of records, one per sensor. -/
def execGetpdrrepositoryinfo (s : State) : Host.Outcome State Fault Refusal :=
  .next { s with toDev := s.toDev.mctpSay false { proto := 2, code := 0x50, status := 0, data := [s.toDev.sensorIds.length] } }

/-- GETPDR: the record with a handle, 0 the first: the next handle, the sensor's ID, and for this unit's sensors their thresholds. -/
def Dev.pdr (s : Dev) (h : Nat) : Dev :=
  match s.sensorIds.drop (h - 1) with
  | [] => s.mctpSay false { proto := 2, code := 0x51, status := 0x82, data := [] }
  | id :: r =>
    let next := if r = [] then 0 else max h 1 + 1
    let th := if id < 256 then (s.sensor id).2.map (ofSigned 32) else []
    s.mctpSay false { proto := 2, code := 0x51, status := 0, data := [next, id] ++ th }

def execGetpdr (h : Nat) (s : State) : Host.Outcome State Fault Refusal := .next { s with toDev := s.toDev.pdr h }

/-- SETEVENTRECEIVER. -/
def Dev.setReceiver (s : Dev) (eid : Nat) : Dev :=
  let s : Dev := if s.aonUp && s.mctpUp && s.mctp.eid != 0 then { s with mctp := { s.mctp with receiver := some (eid % 256) } } else s
  s.mctpSay false { proto := 2, code := 4, status := 0, data := [] }

def execSeteventreceiver (eid : Nat) (s : State) : Host.Outcome State Fault Refusal :=
  .next { s with toDev := s.toDev.setReceiver eid }

end Sys2Proof.Machine
end

