-- ==== Sys2Proof/Machine/RegRead.lean ====
section
/-! DEFINITION. Reads of register pages: the common header (R26-R28), the shadow of a gated block (R37), a block in soft reset (R38),
and every register whose value follows from state that is held elsewhere. -/

namespace Sys2Proof.Machine

/-! ### Pages -/

/-- The page that holds the common header of the block at an offset: the pages of one block share it (R26). -/
def hdrPage (off : Nat) : Nat :=
  let p := pageBase off
  if 0x400000 ≤ p then p / 0x4000 * 0x4000
  else if 0x10000 ≤ p ∧ p < 0x14000 then 0x10000 else p

/-- The pages that a soft reset reaches with a page: its group (R38). -/
def groupPages (page : Nat) : List Nat :=
  if 0x100000 ≤ page ∧ page < 0x200000 then (List.range 6).map fun i => page / 0x10000 * 0x10000 + 0x1000 * i
  else if 0x10000 ≤ page ∧ page < 0x14000 then (List.range 4).map fun i => 0x10000 + 0x1000 * i
  else [page]

/-- The index of a core from an offset of its pages. -/
def coreOf (off : Nat) : Nat := (off - 0x100000) / 0x10000

/-- A command with opcode `op` is begun and not done on core `k`'s program. -/
def Prog.begunOp (p : Prog) (op : Nat) : Bool := p.ops.any fun o => cOp o.w == op && o.begun && !o.done

/-- A command of queue `q` is held by a program. -/
def Prog.queued (p : Prog) (q : Nat) : Bool := p.ops.any fun o => o.q == q && !o.done

/-- A job of queue `q` runs. -/
def Dev.jobRuns (s : Dev) (q : Nat) : Bool := (s.jq q).jobs.any fun j => decide (1 ≤ j.phase)

/-- BLK_STAT.BUSY: work is in progress in the block of a page. -/
def Dev.blkBusy (s : Dev) (page : Nat) : Bool :=
  let p := page / 0x1000
  if 0x100 ≤ p ∧ p < 0x200 then
    match s.prog (coreOf page) with
    | none => false
    | some g =>
      match p % 16 with
      | 0 => g.st != .ended
      | 1 => g.queued 0
      | 2 => g.queued 1 || g.bank0.on || g.bank1.on
      | 3 => g.begunOp 2 || g.begunOp 3
      | 4 => g.queued 3
      | _ => g.queued 4
  else if 0x40 ≤ p ∧ p < 0x44 then (s.vdec (p - 0x40)).job.isSome
  else if p = 0x48 then s.eng.venc.clips.any (·.run)
  else if p = 0x50 then s.jobRuns 0
  else if p = 0x51 then s.jobRuns 1
  else if p = 0x52 then s.jobRuns 2
  else if p = 0x60 then s.jobRuns 3
  else if p = 0x68 then s.jobRuns 4 || s.jobRuns 5
  else if p = 6 then s.hif.reads != []
  else if p = 7 then s.ctxs.any fun x => x.2.run != []
  else if p = 0x10 then s.bpm.waiters != []
  else if p = 0x78 ∨ p = 0x79 then (s.glk (p - 0x78)).unacked != []
  else if p = 0x7A then s.chain.out != []
  else false

/-- A transfer of the block is outstanding (R25). A core's blocks transfer within their steps; what stays open is a message in flight
and a joined multicast. -/
def Dev.outstanding (s : Dev) (page : Nat) : Bool :=
  let p := page / 0x1000
  if 0x100 ≤ p ∧ p < 0x200 then
    match s.prog (coreOf page) with
    | none => false
    | some g =>
      match p % 16 with
      | 4 => g.ops.any fun o => o.flight != 0
      | 5 => g.begunOp 6
      | _ => false
  else if p = 7 ∨ p = 0x10 then false
  else s.blkBusy page

/-- BLK_STAT.QUIESCED (R25): under QUIESCE_REQ once the block has reported it, else while nothing is outstanding. -/
def Dev.quiesced (s : Dev) (page : Nat) : Bool :=
  if s.rb (page + R.ctl) 2 then s.rb (page + R.stat) 0 else !s.outstanding page

/-- BLK_STAT of the block with header page `page`. -/
def Dev.statVal (s : Dev) (page : Nat) : Word :=
  if s.rb (page + R.ctl) 1 then 0x11
  else Word.ofNat (bN (s.quiesced page) + bN (s.blkBusy page) * 2 + bN (s.rf (page + R.irqStat) 16 16 != 0) * 4)

/-- BLK_ID (R27): type, unit and instance or the context ID, layout version 1. -/
def Dev.blkId (s : Dev) (p : PageInfo) : Word :=
  Word.ofNat (p.typ + (if p.typ = 0x30 then p.inst else s.addr * 16 + p.inst) * 2 ^ 16 + 2 ^ 24)

/-- BLK_VER: page index, page count, stepping B0; the revision of a block is open. -/
def blkVer (p : PageInfo) : Word :=
  Word.ofNat (p.idx + p.pages * 2 ^ 8 + Config.freeNat 100 p.typ % 256 * 2 ^ 16 + 0xB0 * 2 ^ 24)

/-- A register of the common header: offset `o` in a page whose header is at `page` (R28). -/
def Dev.hdrRead (s : Dev) (page : Nat) (p : PageInfo) (o : Nat) : Word :=
  if o = 0 then s.blkId p
  else if o = 4 then blkVer p
  else if o = 8 then Word.ofNat p.cap
  else if o = 0xC then 0
  else if o = R.stat then s.statVal page
  else if o = R.irqSet then s.reg (page + R.irqStat)
  else if o < 0x80 then s.reg (page + o)
  else 0

/-! ### Registers whose value is held elsewhere -/

/-- SEC and DBG registers (R401-R414). -/
def Dev.secVal (s : Dev) (off : Nat) : Option Word :=
  let c := s.sec
  if off = R.secLcStat then
    some (Word.ofNat (c.lc.num + bN c.sealPending * 4 + c.refuse * 16 + c.owner * 2 ^ 8 + c.dbgMax * 2 ^ 16))
  else if off = R.secSerialLo then some (Word.ofNat c.serial)
  else if off = R.secSerialHi then some (Word.ofNat (c.serial / 2 ^ 32))
  else if off = R.secSvn then
    some (Word.ofNat (c.floorM % 64 + c.floorC % 64 * 2 ^ 8 + c.runM % 64 * 2 ^ 16 + c.runC % 64 * 2 ^ 24))
  else if off = R.secKeys then
    some (Word.ofNat (c.revoked % 16 + c.evLoaded % 16 * 16 + bN c.kekLoaded * 2 ^ 8 + bN c.keysLocked * 2 ^ 9))
  else if off = R.secCtl then some (Word.ofNat (bN s.zeroOnFree))
  else if off = R.secAuditCnt then some (Word.ofNat c.audit)
  else if off = R.dbgStat then
    some (Word.ofNat (c.dbgLevel + bN c.unlocking.isSome * 4 + bN c.fumForce * 8 + bN c.tap * 16 + min 255 c.unlocks * 2 ^ 8))
  else if R.dbgChal 0 < off ∧ off ≤ R.dbgChal 7 then some (Word.ofNat (c.nonce.getD ((off - R.dbgChal 0) / 4) 0))
  else none

/-- The state code of an image slot; the code of a slot that holds a fallback image is open. -/
def SlotSt.code : SlotSt → Nat
  | .empty => 0 | .active => 1 | .pending => 2 | .failed => 3 | .fallback => Config.freeNat 101 0 % 4

/-- MGMT registers (R424, R427): a worker has no update registers. -/
def Dev.mgmtVal (s : Dev) (off : Nat) : Option Word :=
  if off = R.mgmtStat then some ((s.reg off).setFld 3 2 (min 3 s.wdtRecent.length))
  else if off = R.mgmtUpdStat ∧ s.isMgr = true ∧ s.rf R.mgmtStat 0 2 ≠ 0 then some (Word.ofNat (3 + 6 * 16 + s.rf off 8 1 * 256))
  else if R.mgmtUpdAddrLo ≤ off ∧ off ≤ R.mgmtUpdStat then (if s.isMgr then none else some 0)
  else if s.isMgr && (off == R.mgmtSlot 0 || off == R.mgmtSlot 1) then
    let f := s.mgmt.slot ((off - R.mgmtSlot 0) / 4)
    some (Word.ofNat (f.st.code + f.svn % 64 * 4 + f.version % 2 ^ 24 * 2 ^ 8))
  else none

/-- HIF registers (R54, R59, R60). -/
def Dev.hifVal (s : Dev) (off : Nat) : Option Word :=
  if off = R.hifTagStat then some ((s.reg off).setFld 20 1 (bN ((s.cfg 0 0x22).bit 12)))
  else if off = R.hifCplToUs then some (Word.ofNat (cplTimeout ((s.cfg 0 0x22).fld 0 4)))
  else if off = R.hifBar2Usable then some (Word.ofNat (s.usable / 2 ^ 30))
  else none

/-- SCHED's route status (ch18): the route that SCHED_RT_SEL selects. -/
def Dev.schedVal (s : Dev) (off : Nat) : Option Word :=
  let r := s.route (s.rf R.schedRtSel 0 8)
  if off = R.schedRtStat then
    some (match r with
      | none => 0
      | some x =>
        let seats := ((x.steps.find? (·.started)).map (·.seats.length)).getD 0
        Word.ofNat ((if x.stopping then 2 else 1) + ((x.coach.map (·.kind)).getD 0) * 4 + x.ctx * 16 + x.map.headD 0 / 16 * 2 ^ 12
          + seats % 128 * 2 ^ 16))
  else if off = R.schedRtSteps then some (Word.ofNat ((r.map (·.ended)).getD 0))
  else if off = R.schedRtDrops then some (Word.ofNat (min 0xFFFFFFFF ((r.map (·.drops)).getD 0)))
  else if off = R.schedRtSkipped then some (Word.ofNat (min 0xFFFFFFFF ((r.map (·.skipped)).getD 0)))
  else none

/-- BPM registers (R122-R136). -/
def Dev.bpmVal (s : Dev) (off : Nat) : Option Word :=
  let k := (off - 0x11100) / 0x20
  if off = R.bpmStat then some (Word.ofNat (bN s.ledgerFull + min 255 s.bpm.waiters.length * 2 ^ 8))
  else if off = R.bpmLedgerUsed then some (Word.ofNat s.bpm.ledger.length)
  else if off = R.bpmRqQuota then
    some (match s.rqSel with | some (p, r) => Word.ofNat (s.quota p r) | none => 0)
  else if off = R.bpmRqReserve then
    some (match s.rqSel with | some (p, r) => Word.ofNat (s.reserve p r) | none => 0)
  else if off = R.bpmRqUsed then
    some (match s.rqSel with | some (p, r) => Word.ofNat (s.used p r) | none => 0)
  else if 0x11100 ≤ off ∧ off = R.bpmPoolStat k then some ((s.reg off).setFld 5 1 (bN (s.allocN k != 0)))
  else if 0x11100 ≤ off ∧ off = R.bpmPoolFree k then some (Word.ofNat (s.freeN k))
  else none

/-- RAS's window on the retirement table (R151). -/
def Dev.rasVal (s : Dev) (off : Nat) : Option Word :=
  if off = R.rasRetirePage then
    let e := Tab.get (fun _ => 0) s.ras.table (s.rf R.rasRetireIdx 0 10)
    some (if e = 0 then 0 else Word.ofNat ((e - 1) % 2 ^ 25 + 2 ^ 31))
  else none

/-- Engine registers: the stream that VDEC_SEL selects, the keys that VENC holds, the DPP's outbox. -/
def Dev.engVal (s : Dev) (off : Nat) : Option Word :=
  let n := (off / 0x1000) % 16
  let x := (s.strm (s.rf (R.vdecSel n) 0 12)).filter fun x => x.eng == some n
  if off / 0x1000 < 0x44 then
    if off = R.vdecStrmStat n then
      some (match x with
        | none => 0
        | some x =>
          let st := match x.st with | .waitStart => 0 | .recovering => 1 | .decoding => 2 | .refused => 3
          Word.ofNat (1 + st * 2 + fldN x.opts 2 1 * 8 + min 31 x.dpb.length * 16 + min 255 x.queue.length * 2 ^ 9))
    else if off = R.vdecStrmPics n then some (Word.ofNat ((x.map (·.pics)).getD 0))
    else if off = R.vdecStrmErrs n then
      some (Word.ofNat (min 0xFFFF ((x.map (·.conc)).getD 0) + min 0xFFFF ((x.map (·.disc)).getD 0) * 2 ^ 16))
    else none
  else if off = R.vencKeyStat then some (Word.ofNat s.sec.evLoaded)
  else if off = R.dppOutboxUsed then some (Word.ofNat s.outbox.length)
  else none

/-- CHAIN registers (R375-R383): the manager's unit states, slots and reservations; a worker has none. -/
def Dev.chainVal (s : Dev) (off : Nat) : Option Word :=
  if off = R.chainUnits ∧ s.isMgr = true then
    let mask := fun (f : Nat → Bool) => ((List.range 16).map fun u => bN (f u) * 2 ^ u).sum
    some (Word.ofNat (mask s.isJoined + mask (fun u => (s.unit u).st == .quarantine) * 2 ^ 16))
  else if R.chainSlotCtl 0 ≤ off ∧ off ≤ R.chainSlotStat 14 then
    if !s.isMgr then some 0
    else if off % 8 = 0 then none
    else
      let st := match s.unitInSlot ((off - R.chainSlotStat 0) / 8 + 1) with
        | none => 0
        | some u => u * 2 ^ 5 + (match (s.unit u).st with
          | .absent => 0 | .quarantine => 1 | .joined => 2 | .offline => 3 | .lost => 4) * 2 ^ 9
      some (Word.ofNat ((s.rn off) + st))
  else if off = R.chainResSel then (if s.isMgr then none else some 0)
  else if off = R.chainResSerLo ∨ off = R.chainResSerHi then
    let v := Tab.get (fun _ => 0) s.chain.res (s.rf R.chainResSel 0 4)
    some (if !s.isMgr then 0 else Word.ofNat (if off = R.chainResSerLo then v else v / 2 ^ 32))
  else none

/-- Core registers (R197, R219, R221, R235, R248, R272). -/
def Dev.coreVal (s : Dev) (off : Nat) : Option Word :=
  let k := coreOf off
  let g := s.prog k
  let has := fun (f : Prog → Bool) => (g.map f).getD false
  if off = R.seqStat k then
    some (match g with
      | none => s.reg off &&& 0x20000
      | some p =>
        let st := if p.st == .ended then 0 else if p.st != .run then 3 else if p.wait.isSome then 2 else 1
        Word.ofNat (st + min 127 p.slots * 4 + p.ctx % 256 * 2 ^ 9 + s.rf off 17 1 * 2 ^ 17))
  else if off = R.seqPc k then some (Word.ofNat ((g.map (·.pc)).getD 0))
  else if R.seqSig k 0 ≤ off ∧ off ≤ R.seqSig k 15 then
    some (match g with | none => 0 | some p => Word.ofNat (s.sig k p.bank ((off - R.seqSig k 0) / 4)))
  else if R.seqLc k 0 ≤ off ∧ off ≤ R.seqLc k 3 then
    some (match g with | none => 0 | some p => Word.ofNat (p.lc ((off - R.seqLc k 0) / 4)))
  else if off = R.seqMapData k then
    some (match g.bind fun p => s.physCore p.route (s.rf (R.seqMapSel k) 0 8) with
      | none => 0
      | some a => Word.ofNat (a % 256 + 256))
  else if off = R.mxuStat k then
    some (Word.ofNat (s.rf off 0 2 + bN (has (·.queued 0)) * 4 + bN (has fun p => p.halt && p.queued 0) * 8))
  else if off = R.mxuSubBusy k then some 0
  else if off = R.vecStat k then
    some (Word.ofNat (bN (has (·.bank0.on)) + bN (has (·.bank1.on)) * 2 + bN (has (·.begunOp 3)) * 4 + bN (s.core k).epi.isSome * 8))
  else if off = R.vecPc k then
    some (Word.ofNat ((g.map (·.bank0.pc)).getD 0 % 4096 + (g.map (·.bank1.pc)).getD 0 % 4096 * 2 ^ 16))
  else if off = R.adgStat k then
    let paused := (s.core k).progs.any fun p => p.st == .parked && (p.begunOp 2 || p.begunOp 3)
    some (Word.ofNat ((if has (·.begunOp 2) then 1 else if has (·.begunOp 3) then 2 else 0) + bN paused * 4))
  else none

/-- A register of the unit-local layout or of a context page whose value is not the one that is held under its offset. -/
def Dev.regVal (s : Dev) (off : Nat) : Option Word :=
  let p := off / 0x1000
  if p = 1 then (if R.clkIslFreq 0 ≤ off ∧ off ≤ R.clkIslFreq 25 ∧ domOf ((off - R.clkIslFreq 0) / 4) = 3 then
    some (Word.ofNat (s.fixedMhz ((off - R.clkIslFreq 0) / 4))) else none)
  else if p = 3 ∨ p = 4 then s.secVal off
  else if p = 5 then s.mgmtVal off
  else if p = 6 then s.hifVal off
  else if p = 7 then s.schedVal off
  else if 0x10 ≤ p ∧ p < 0x14 then s.bpmVal off
  else if p = 0x18 then s.rasVal off
  else if p = 0x30 then (if off = R.nocGeom then some 0x00400605 else none)
  else if 0x40 ≤ p ∧ p < 0x68 then s.engVal off
  else if p = 0x7A then s.chainVal off
  else if p = 0x7C then (if off = R.ventStat then some (Word.ofNat (bN s.enforcing + bN s.dbgOpen * 2)) else none)
  else if 0x100 ≤ p ∧ p < 0x200 then s.coreVal off
  else if 0x400 ≤ p then
    let c := (off - 0x400000) / 0x4000
    if off = R.ctxStat c then some ((s.reg off).setFld 3 5 (bN (s.ctxVf c != 0) + s.ctxVf c % 16 * 2)) else none
  else none

/-- A register whose value is open: the memory's refresh-rate code, and the image slots of a worker. -/
def Dev.openReg (s : Dev) (off : Nat) : Option (Word × Dev) :=
  if 0x20 ≤ off / 0x1000 ∧ off / 0x1000 < 0x28 ∧ off = R.memcTemp (off / 0x1000 - 0x20) then
    let (v, s) := s.draw 103; some (Word.ofNat (v % 8), s)
  else if !s.isMgr && (off == R.mgmtSlot 0 || off == R.mgmtSlot 1) then
    let (v, s) := s.draw 102; some (Word.ofNat v, s)
  else none

/-- What a read of an RC register clears. -/
def Dev.regClear (s : Dev) (off : Nat) : Dev :=
  let r := s.rf R.schedRtSel 0 8
  if off = R.schedRtDrops then (match s.route r with | some x => s.setRoute r (some { x with drops := 0 }) | none => s)
  else if off = R.schedRtSkipped then (match s.route r with | some x => s.setRoute r (some { x with skipped := 0 }) | none => s)
  else s.setReg off 0

/-- A read of one register of the unit-local layout or of a context page (R26-R38). -/
def Dev.regRead (s : Dev) (off : Nat) : Word × Dev :=
  if 0x71000 ≤ off ∧ off < 0x72000 then (s.entRead ((off - 0x71000) / 4), s)
  else if 0x400000 ≤ off ∧ s.isMgr = false then (0, s.accErr 0 .unmapped off)
  else match pageAt off with
    | none => (0, s.accErr 0 .unmapped off)
    | some p =>
      let o := off % 0x1000
      let page := hdrPage off
      if !s.islOn p.isl then
        (if o < 0x10 then s.hdrRead page p o else if o = R.stat then 9 else 0, s)
      else if o < 0x100 then
        let s := s.perfCatchUp page ((timedPerf page).filter fun i => R.perf i == o)
        (s.hdrRead page p o, s)
      else match findReg p.regs o with
        | none => (0, s.accErr 0 .unmapped off)
        | some d =>
          if s.rb (page + R.ctl) 1 then (Word.ofNat d.reset, s)
          else if off = R.timeNowLo then s.timeNowRead
          else if off = R.ventLastAddrLo then (Word.ofNat s.ventLastRead.1, s.ventLastRead.2)
          else if off = R.dbgChal 0 then s.chalRead
          else match s.openReg off with
            | some r => r
            | none =>
              let v := (s.regVal off).getD (s.reg off)
              (v, if d.rc then s.regClear off else s)

end Sys2Proof.Machine
end

