-- ==== Sys2Proof/Machine/Regs.lean ====
section
/-! DEFINITION. Writes of register pages: the common header with its interrupt, capture and counter registers (R29-R33), quiesce and
soft reset (R25, R38), isolation (R25), and what a write of each register does (R36, R37). -/

namespace Sys2Proof.Machine

/-! ### Interrupts, capture (R29-R32) -/

/-- The assigned bits of BLK_IRQ_STAT of the page at an offset. -/
def irqMask (off : Nat) : Word := Word.ofNat (((pageAt off).map (·.irq)).getD 0)

/-- A write to BLK_IRQ_STAT, BLK_IRQ_EN or BLK_IRQ_SET has left a register as `v`: one message while the request is asserted. -/
def Dev.irqWritten (s : Dev) (page o : Nat) (v : Word) : Dev :=
  let s := s.setReg (page + o) v
  if s.irqOn page then s.irqMsg page else s

/-- A write of BLK_IRQ_STAT: W1C. -/
def Dev.irqStatWrite (s : Dev) (page : Nat) (v : Word) : Dev :=
  s.irqWritten page R.irqStat (s.reg (page + R.irqStat) &&& ~~~v)

/-- A write of BLK_IRQ_EN. -/
def Dev.irqEnWrite (s : Dev) (page : Nat) (v : Word) : Dev := s.irqWritten page R.irqEn (v &&& irqMask page)

/-- A write of BLK_IRQ_SET: W1S on the assigned bits. -/
def Dev.irqSetWrite (s : Dev) (page : Nat) (v : Word) : Dev :=
  s.irqWritten page R.irqStat (s.reg (page + R.irqStat) ||| (v &&& irqMask page))

/-- A write of BLK_ERR_CAPT0: a 1 in VALID re-arms the capture and clears MORE. -/
def Dev.captWrite (s : Dev) (page : Nat) (v : Word) : Dev :=
  if v.bit 31 then (s.setRb (page + R.capt 0) 31 false).setRf (page + R.capt 5) 0 16 0 else s

/-! ### Soft reset and quiesce (R12, R25, R38) -/

/-- Registers that show what a soft reset of their block does not change: straps, boot state, link and power state, versions, the own
address, isolation. -/
def srstShows (off : Nat) : Bool :=
  showsHw off || off == R.topStat || off == R.topBootMs || off == R.hifLinkStat || off == R.hifPmStat || off == R.hifFlrStat
    || off == R.mgmtFwVer || off == R.mgmtStat || off == R.vencFwVer || off == R.chainStat || off == R.nocPortIso
    || off == R.rasRetireCnt || (List.range 4).any (fun k => off == R.vdecFwVer k)
    || (decide (R.clkIslStat 0 ≤ off) && decide (off ≤ R.clkIslStat 25))
    || (List.range 8).any fun k => off == R.memcLpStat k

/-- A soft reset keeps the register: BLK_IRQ_EN, BLK_IRQ_ROUTE, the capture and sticky registers (R39), and what it does not change. -/
def srstKeeps (off : Nat) : Bool :=
  let o := off % 0x1000
  isSticky off || isAon off || (o == R.irqEn) || (o == R.irqRoute) || srstShows off

/-- The registers of a page group after a soft reset. -/
def Dev.srstRegs (s : Dev) (page : Nat) : Dev :=
  let l := groupPages page
  { s with regs := s.regs.filter fun x => !l.contains (pageBase x.1) || srstKeeps x.1 }

/-- Contexts whose work a soft reset ends fault with CTX_FAULT_CMD of the block. -/
def Dev.failCtxs (s : Dev) (l : List Nat) (blk core : Nat) : Dev :=
  l.eraseDups.foldl (fun (s : Dev) c => s.ctxFault c ⟨.ctxFaultCmd, blk⟩ 0 0 core) s

/-- The soft reset of VDEC engine `n`: streams with work fail, its picture stops. -/
def Dev.srstVdec (s : Dev) (n : Nat) : Dev :=
  let cur := (s.vdec n).job.map (·.stream)
  let l := s.eng.streams.filterMap fun x => match x.2 with
    | some y => if y.eng == some n && (y.queue != [] || cur == some x.1) then some y.ctx else none
    | none => none
  let s := (s.failCtxs l 0xD 0xFFFF).stopDecode n
  (s.setVdec n {}).vdecCount n

/-- The soft reset of VENC: its clips and clip requests fail. -/
def Dev.srstVenc (s : Dev) : Dev :=
  let v := s.eng.venc
  let s := s.failCtxs (v.clips.map (·.ctx) ++ v.reqs.map (·.ctx)) 0xE 0xFFFF
  let s := s.eng.venc.clips.foldl (fun (s : Dev) q => s.dropClip q) s
  (s.setVenc { s.eng.venc with clips := [], reqs := [], iv := none }).vencStat

/-- The soft reset of a job engine: its accepted jobs fail. -/
def Dev.srstJobs (s : Dev) (q : Nat) : Dev :=
  let s := s.failCtxs ((s.jq q).jobs.map (·.ctx)) (jqBlk q) 0xFFFF
  let left := (s.jq q).jobs
  let s := left.foldl (fun (s : Dev) j => s.dropJob q j) s
  let s := if q = 0 then (match left with | j :: _ => s.dropJpeg j.ctx | [] => s) else s
  let s : Dev := if q = 5 then { s with eng := { s.eng with bundle := none } } else s
  (s.setJq q { s.jq q with jobs := [] }).jqStat q

/-- The soft reset of core `k`: the contexts whose routes it runs fail. -/
def Dev.srstCore (s : Dev) (k : Nat) : Dev :=
  let s := s.failCtxs ((s.core k).progs.map (·.ctx)) 0x20 (s.addr * 16 + k)
  s.setCore k {}

/-- The soft reset of SCHED: the commands that run fail. -/
def Dev.srstSched (s : Dev) : Dev := s.failCtxs ((s.ctxs.filter fun x => x.2.run != []).map (·.1)) 8 0xFFFF

/-- The soft reset of the HIF: contexts with reads outstanding fail; configuration space and MSI-X tables are no registers of the
page. -/
def Dev.srstHif (s : Dev) : Dev :=
  let l := (s.hif.reads ++ s.hif.tagQ).filterMap fun r => match r.for_ with
    | .sq c _ => some c
    | .operand c => some c
    | .masks c _ => some c
    | .dead => none
  let s := s.failCtxs l 7 0xFFFF
  { s with hif := { s.hif.orphan with ahead := [] } }

/-- The soft reset of CHAIN: transactions outstanding fail their contexts; the own address stays, and what the manager knows of the
chain goes. -/
def Dev.srstChain (s : Dev) : Dev :=
  let ctxOf := fun (t : Txn) => match t.what with
    | .data tag => (s.eng.rings.find? fun x => match x.2 with
        | some r => (match r.xfer with | .data _ _ u => u == tag | _ => false)
        | none => false).bind fun x => x.2.map (·.ctx)
    | .msg k _ => if k < 16 then (s.prog k).map (·.ctx) else none
    | .record (r :: _) => some r.ctx
    | _ => none
  let s := s.failCtxs ((s.chain.out ++ s.chain.wait).filterMap ctxOf) 0x15 0xFFFF
  let c := s.chain.afterReset 7 false
  { s with chain := { c with own := if s.isMgr then .joined else c.own } }

/-- The soft reset of PWR: D0, no governor or thermal level, islands switched on. -/
def Dev.srstPwr (s : Dev) : Dev :=
  let s := s.fumExit
  let modes := (List.range 26).map fun i => s.rf (R.pwrIslCtl i) 4 2
  let s : Dev := { s with pwr := { s.pwr with gov := 0, therm := 0, govLow := 0, thermLow := 0, msAbove := 0 } }
  let s := s.srstRegs 0x2000
  let s := modes.zipIdx.foldl (fun (s : Dev) x =>
    if x.2 = 16 ∧ s.isMgr = false then (s.setRb (R.pwrIslCtl x.2) 0 false).setRf (R.pwrIslCtl x.2) 4 2 x.1
    else if x.1 = 0 then s.ungate x.2 else s.setRf (R.pwrIslCtl x.2) 4 2 x.1) s
  s.retuneAll.pwrShow

/-- What a soft reset of the block at `page` ends and clears behind its registers (R38). -/
def Dev.srstWork (s : Dev) (page : Nat) : Dev :=
  let p := page / 0x1000
  if 0x100 ≤ p ∧ p < 0x200 then s.srstCore (coreOf page)
  else if 0x40 ≤ p ∧ p < 0x44 then s.srstVdec (p - 0x40)
  else if p = 0x48 then s.srstVenc
  else if p = 0x50 then s.srstJobs 0
  else if p = 0x51 then s.srstJobs 1
  else if p = 0x52 then s.srstJobs 2
  else if p = 0x60 then s.srstJobs 3
  else if p = 0x68 then (s.srstJobs 4).srstJobs 5
  else if p = 4 then
    { s with sec := { s.sec with dbgLevel := 0, nonce := [], unlocking := none, fumForce := false, tap := false
                                 audit := s.sec.audit + (if s.sec.dbgLevel = 0 then 0 else 1) } }
  else if p = 6 then s.srstHif
  else if p = 7 then s.srstSched
  else if p = 0x10 then
    let b := s.bpm
    { s with bpm := { b.afterReset 7 with waiters := b.waiters, held := b.held, answers := b.answers } }
  else if p = 0x18 then { s with ras := { table := s.ras.table, held := s.ras.held, passStart := s.ns } }
  else if p = 0x70 then
    let s : Dev := if s.tim.high then s.emit (.pin .syncOut false) else s
    { s with tim := {} }
  else if p = 0x78 ∨ p = 0x79 then s.glkOff (p - 0x78) false
  else if p = 0x7A then s.srstChain
  else if p = 0x7C then { s with vent := {} }
  else s

/-- A block soft reset begins: the group is quiesced and reset; SRST reads 1 on its pages until SRST_DONE. -/
def Dev.srstStart (s : Dev) (page : Nat) : Dev :=
  let p := page / 0x1000
  let s := if p = 2 then s.srstPwr else (s.srstWork page).srstRegs page
  let s := if p = 1 then s.retuneAll
    else if p = 5 then (s.setRb R.mgmtStat 2 false).setRf R.mgmtStat 0 2 1
    else s
  ((groupPages page).filter fun g => hdrPage g == g).foldl (fun (s : Dev) g => s.setReg (g + R.ctl) 2) s

/-- A block is back from quiesce or a soft reset (R12). -/
def Dev.blkBack (s : Dev) (page : Nat) : Dev :=
  let p := page / 0x1000
  if p = 7 then s.schedResetEnd
  else if p = 0x10 then s.bpmReturn
  else if 0x100 ≤ p ∧ p < 0x200 then s.pumpAll
  else s

/-- BLK_CTL takes the fields EN, QUIESCE_REQ and PERF_FREEZE. -/
def Dev.ctlStore (s : Dev) (page w : Nat) : Dev :=
  let was := s.rb (page + R.ctl) 2
  let s := s.perfCatchUp page (if bitN w 3 then timedPerf page else [])
  let s := s.setReg (page + R.ctl) (Word.ofNat w)
  if was == bitN w 2 then s
  else
    let s := s.setRb (page + R.stat) 0 false
    if was then s.blkBack page else s

/-- A write of BLK_CTL of the header at `page`. -/
def Dev.ctlWrite (s : Dev) (page : Nat) (v : Word) : Dev :=
  let w := (v &&& 0xD).toNat
  if 0x400000 ≤ page then s.ctlStore page w
  else if s.rb (page + R.ctl) 1 then s.setReg (page + R.ctl) (Word.ofNat (w + 2))
  else if v.bit 1 then s.srstStart page
  else s.ctlStore page w

/-- A soft reset ends: SRST reads 0; a GLK port trains again, and the manager's CHAIN walks the chain again. -/
def Dev.srstEnd (s : Dev) (page : Nat) : Dev :=
  let p := page / 0x1000
  if 0x400000 ≤ page ∨ s.rb (page + R.ctl) 1 = false then s
  else
    let s := ((groupPages page).filter fun g => hdrPage g == g).foldl (fun (s : Dev) g => s.setRb (g + R.ctl) 1 false) s
    let s := s.blkBack page
    if p = 0x78 ∨ p = 0x79 then s.glkTrain (p - 0x78)
    else if p = 0x7A ∧ s.isMgr = true ∧ s.linkOk 0 = true then s.walkOn 0 s.resList (List.replicate 16 0)
    else s

/-- The block reports quiesced: QUIESCE_REQ is set and nothing is outstanding. -/
def Dev.quiesceEnd (s : Dev) (page : Nat) : Dev :=
  if s.rb (page + R.ctl) 2 && !s.rb (page + R.ctl) 1 && !s.outstanding page then s.setRb (page + R.stat) 0 true else s

/-- A write of the common header at page offset `o` (R28-R33). -/
def Dev.hdrWrite (s : Dev) (off : Nat) (v : Word) : Dev :=
  let page := hdrPage off
  let o := off % 0x1000
  if o = R.ctl then s.ctlWrite page v
  else if s.rb (page + R.ctl) 1 then s
  else if o = R.irqStat then s.irqStatWrite page v
  else if o = R.irqEn then s.irqEnWrite page v
  else if o = R.irqSet then s.irqSetWrite page v
  else if o = R.irqRoute then s.setReg (page + o) (v &&& 0xFF03)
  else if o = R.capt 0 then s.captWrite page v
  else if R.perf 0 ≤ o ∧ o ≤ R.perf 15 then s.setReg (page + o) v
  else s

/-! ### Isolation (R25) -/

/-- The pages of the blocks of island `i`. -/
def islPages (i : Nat) : List Nat :=
  if i < 16 then groupPages (0x100000 + 0x10000 * i)
  else if i = 16 then [0x6000]
  else if i = 17 then [0x78000]
  else if i = 18 then [0x79000]
  else if i = 21 then [0x40000, 0x41000, 0x42000, 0x43000, 0x48000]
  else if i = 22 then [0x50000, 0x51000, 0x52000, 0x60000, 0x68000]
  else []

/-- The islands that NOC_PORT_ISO_SET and NOC_PORT_ISO_CLR act on. -/
def isoIsl : List Nat := (List.range 26).filter fun i => !(i == 19 || i == 20 || i == 23 || i == 24 || i == 25)

/-- NOC_PORT_ISO_SET: an island whose blocks are not all quiesced is refused; a gated one reads quiesced (R37). -/
def Dev.isoSet (s : Dev) (v : Word) : Dev :=
  (isoIsl.filter fun i => v.bit i).foldl (fun (s : Dev) i =>
    if !s.islOn i || (islPages i).all s.quiesced then s.setRb R.nocPortIso i true else s.setRb R.nocErrStat 0 true) s

/-- NOC_PORT_ISO_CLR; a worker's HIF stays isolated. -/
def Dev.isoClr (s : Dev) (v : Word) : Dev :=
  (isoIsl.filter fun i => v.bit i && (i != 16 || s.isMgr)).foldl (fun (s : Dev) i => s.setRb R.nocPortIso i false) s

/-! ### Registers with effects -/

/-- A register takes a write by its access codes (R5): RW bits are stored, W1C bits cleared, others stay. -/
def Dev.regStore (s : Dev) (off : Nat) (d : RegDesc) (v : Word) : Dev :=
  let old := s.reg off
  let rw := Word.ofNat d.rw
  let w1c := Word.ofNat d.w1c
  s.setReg off ((old &&& ~~~(rw ||| w1c)) ||| (v &&& rw) ||| (old &&& w1c &&& ~~~v))

/-- `none`: the register has no effect of its own. Pages TOP, CLK and PWR. -/
def Dev.wrUnit (s : Dev) (off : Nat) (v : Word) : Option Dev :=
  if off = R.topCtl then
    some (if v.bit 0 then s.unitSrst else if v.bit 1 && s.isMgr then s.sendChainReset else s)
  else if off = R.topAlertStat then some (s.alertClear v)
  else if off = R.topAlertEn then
    let fresh := (s.reg R.topAlertStat &&& v &&& ~~~(s.reg R.topAlertEn)) != 0
    some ((s.setReg off (v &&& 0x7F)).alertPin fresh)
  else if R.clkIslFreq 0 ≤ off ∧ off ≤ R.clkIslFreq 25 then some (s.freqWrite ((off - R.clkIslFreq 0) / 4) v)
  else if off = R.pwrStateReq then some (s.stateReq v)
  else if off = R.pwrCap then some (s.capWrite v)
  else if off = R.pwrLvlMin then some (s.lvlWrite v)
  else if off = R.pwrProfile then some (s.profileWrite v)
  else if off = R.pwrThermCfg then some (if thermOk v then s.setReg off v else s)
  else if off = R.pwrCtl then some (s.pwrCtlWrite v)
  else if R.pwrIslCtl 0 ≤ off ∧ off ≤ R.pwrIslCtl 25 then some (s.islCtlWrite ((off - R.pwrIslCtl 0) / 4) v)
  else none

/-- A write of SEC_LC_REQ: whether the blob or token is good, and what it provisions, is no part of the model. -/
def Dev.lcReqWrite (s : Dev) (v : Word) : Dev :=
  let (x, s) := s.draw 104
  let auth := bitN x 0
  match v.fld 0 2 with
  | 1 => s.lcProvision auth (fldN x 1 7) (fldN x 8 2) (fldN x 10 4) (bitN x 14)
  | 2 => s.lcSeal auth
  | 3 => s.lcDecom auth
  | _ => s.lcRefuse (if s.lcBlock ≠ 0 then s.lcBlock else 1)

/-- A write of DBG_UNLOCK: on a worker the token comes from outside, as the verdict on its signature does. -/
def Dev.unlockWrite (s : Dev) (v : Word) : Dev :=
  if !v.bit 0 then s
  else
    let (bs, s) := s.drawBytes 105 256
    let (x, s) := s.draw 105
    s.dbgUnlock false bs (bitN x 0)

/-- Pages SEC, DBG, MGMT, HIF and SCHED. -/
def Dev.wrMgr (s : Dev) (src : Src) (off : Nat) (v : Word) : Option Dev :=
  if off = R.secLcReq then some (s.lcReqWrite v)
  else if off = R.secCommit then some (if v.bit 0 then s.secCommit else s)
  else if off = R.dbgUnlock then some (s.unlockWrite v)
  else if off = R.dbgLock then some (s.dbgLock v)
  else if R.mgmtUpdAddrLo ≤ off ∧ off ≤ R.mgmtUpdLen then (if s.isMgr then none else some s)
  else if off = R.mgmtUpdCtl then some (if v.bit 0 then s.updStart else s)
  else if off = R.hifLinkCtl then
    let s := if 1 ≤ v.fld 0 4 ∧ v.fld 0 4 ≤ 5 then s.setRf off 0 4 (v.fld 0 4) else s
    let s := if v.fld 4 6 ∈ [1, 2, 4, 8] then s.setRf off 4 6 (v.fld 4 6) else s
    some (if v.bit 10 then s.emit (.pcie (.retrain (s.rf off 0 4) (s.rf off 4 6))) else s)
  else if R.hifVfSlice 0 ≤ off ∧ off ≤ R.hifVfSlice 14 then
    if s.vfEn || v.fld 0 8 % 4 != 0 then some s else none
  else if R.hifVfCtx 0 ≤ off ∧ off ≤ R.hifVfCtx 59 then (if s.vfEn then some s else none)
  else if off = R.schedCoreOff then some (s.coreOffWrite src v)
  else none

/-- BPM, RAS and NOC. -/
def Dev.wrMem (s : Dev) (src : Src) (off : Nat) (v : Word) : Option Dev :=
  let p := (off - 0x11100) / 0x20
  if 0x11100 ≤ off ∧ off < 0x11300 then
    let o := (off - 0x11100) % 0x20
    if o = 8 then some (s.poolEnable p v) else if s.poolEn p then some s else none
  else if off = R.bpmRqQuota then some (s.rqQuotaWrite v)
  else if off = R.bpmRqReserve then some (s.rqReserveWrite v)
  else if off = R.bpmOwnAddrHi then some (s.ownLookup v)
  else if off = R.rasScrubPeriod then (if 1 ≤ v.fld 0 8 ∧ v.fld 0 8 ≤ 168 then none else some s)
  else if off = R.rasCeWindow then (if v.fld 0 16 = 0 then some s else none)
  else if off = R.rasRetirePage then some (s.rasRetireWrite src v)
  else if off = R.rasInjCtl then some (s.rasInjWrite v)
  else if off = R.nocPortIsoSet then some (s.isoSet v)
  else if off = R.nocPortIsoClr then some (s.isoClr v)
  else none

/-- Job engines, TIME, GLK and CHAIN. -/
def Dev.wrEng (s : Dev) (src : Src) (off : Nat) (v : Word) : Option Dev :=
  let host := match src with
    | .host _ => true
    | _ => false
  let p := (off - 0x78000) / 0x1000
  if off = 0x50104 then some (s.pushWrite 0 src v)
  else if off = 0x51104 then some (s.pushWrite 1 src v)
  else if off = 0x52104 then some (s.pushWrite 2 src v)
  else if off = 0x60104 then some (s.pushWrite 3 src v)
  else if off = 0x68104 then some (s.pushWrite 4 src v)
  else if off = R.timeCtl then some (s.timeCtlWrite v)
  else if off = R.timeStepHi then some (s.stepWrite src v)
  else if off = R.timeRate then (if host && s.timeSrc != 1 then some s else none)
  else if off = R.timePtmInterval then (if 1 ≤ v.fld 0 10 ∧ v.fld 0 10 ≤ 1000 then none else some s)
  else if 0x78000 ≤ off ∧ off < 0x7A000 then
    if off = R.glkCtl p then some (s.glkCtlWrite p v)
    else if off = R.glkReplayTmo p then (if 500 ≤ v.fld 0 16 then none else some s)
    else none
  else if off = R.chainAdmit then some (s.admitWrite v)
  else if off = R.chainResSerHi then some (s.resWrite v)
  else if off = R.chainResSel ∨ off = R.chainResSerLo then (if s.isMgr then none else some s)
  else if R.chainSlotCtl 0 ≤ off ∧ off ≤ R.chainSlotStat 14 then
    if off % 8 = 0 then some (s.slotCtlWrite ((off - R.chainSlotCtl 0) / 8 + 1) v) else if s.isMgr then none else some s
  else if off = R.chainLossHold ∨ off = R.chainI2cPeriod then (if v.fld 0 8 = 0 then some s else none)
  else none

/-- Core pages: an enabled channel keeps its configuration (R211); the multicast masks are one table per unit. -/
def Dev.wrCore (s : Dev) (off : Nat) (v : Word) : Option Dev :=
  let k := coreOf off
  let o := off % 0x10000
  if 0x4100 ≤ o ∧ o < 0x4300 then
    if s.rb (R.mbxChCfg0 k ((o - 0x4100) / 0x10)) 31 then some s else none
  else if 0x5110 ≤ o ∧ o < 0x5130 then
    some ((List.range 16).foldl (fun (s : Dev) k => s.setReg (R.wsuMcastMask k ((o - 0x5110) / 4)) (v &&& 0x1FFFF)) s)
  else none

/-- Context `c` has a route or a BUNDLE on some unit that the manager knows of. -/
def Dev.ctxMapped (s : Dev) (c : Nat) : Bool :=
  s.eng.routes.any (fun x => (x.2.map (·.ctx)) == some c) || (s.eng.bundle.map (·.ctx)) == some c

/-- Context pages (R77, R78, R90, R112, R332). -/
def Dev.wrCtx (s : Dev) (src : Src) (off : Nat) (v : Word) : Option Dev :=
  let c := (off - 0x400000) / 0x4000
  let o := off % 0x4000
  if o = 0x100 then some (if v.bit 1 then s.ctxCtlWrite src c v else s.devEventsWrite src c v)
  else if (0x110 ≤ o ∧ o < 0x154) ∨ (0x160 ≤ o ∧ o < 0x170) then (if s.ctxSt c = 0 then none else some s)
  else if o = 0x170 then some (s.inDb src c v 15)
  else if o = 0x1104 then
    let b := v.fld 0 8
    let n := v.fld 8 8
    if s.ctxMapped c || n == 0 || decide (128 < b + n) then some s else none
  else if 0x1140 ≤ o ∧ o < 0x1180 then (if s.ctxMapped c then some s else none)
  else if o = 0x2100 then some (s.pfCtlWrite c v)
  else if 0x2110 ≤ o ∧ o < 0x2210 then (if s.pfOn c ((o - 0x2110) / 0x10) then some s else none)
  else none

/-- The effect of a write of a block-specific register, if it is more than its access codes say. -/
def Dev.wrSpecial (s : Dev) (src : Src) (off : Nat) (v : Word) : Option Dev :=
  if off < 0x3000 then s.wrUnit off v
  else if off < 0x8000 then s.wrMgr src off v
  else if off < 0x31000 then s.wrMem src off v
  else if off < 0x100000 then s.wrEng src off v
  else if off < 0x400000 then s.wrCore off v
  else s.wrCtx src off v

/-- A 4-byte write with all byte enables of one register of the unit-local layout or of a context page (R26-R38). -/
def Dev.regWrite (s : Dev) (src : Src) (off : Nat) (v : Word) : Dev :=
  if 0x71000 ≤ off ∧ off < 0x72000 then s.entWrite src ((off - 0x71000) / 4) v
  else if 0x400000 ≤ off ∧ s.isMgr = false then s.accErr 0 .unmapped off
  else match pageAt off with
    | none => s.accErr 0 .unmapped off
    | some p =>
      let o := off % 0x1000
      if !s.islOn p.isl then s.accErr 0 .gated off
      else if 0x400000 ≤ off ∧ s.pageMay src ((off - 0x400000) / 0x4000) = false then s
      else if o < 0x100 then s.hdrWrite off v
      else match findReg p.regs o with
        | none => s.accErr 0 .unmapped off
        | some d =>
          if s.rb (hdrPage off + R.ctl) 1 then s
          else (s.wrSpecial src off v).getD (s.regStore off d v)

/-! ### Commands on one page; they carry no source and stand for writes by the PF driver -/

/-- A write by the PF driver reaches the register: not in D3hot or FLR (R69, R73). -/
def Dev.pfWrite (s : Dev) (off : Nat) (v : Word) : Dev :=
  if s.inD3 || s.rb R.hifFlrStat 0 then s else (s.busPosted (.host 0)).regWrite (.host 0) off v

def execBlkIrqStatWrite (page : Nat) (v : Word) (s : State) : Host.Outcome State Fault Refusal :=
  .next { s with toDev := s.toDev.pfWrite (pageBase page + R.irqStat) v }

def execBlkIrqEnWrite (page : Nat) (v : Word) (s : State) : Host.Outcome State Fault Refusal :=
  .next { s with toDev := s.toDev.pfWrite (pageBase page + R.irqEn) v }

def execBlkIrqSet (page : Nat) (v : Word) (s : State) : Host.Outcome State Fault Refusal :=
  .next { s with toDev := s.toDev.pfWrite (pageBase page + R.irqSet) v }

def execBlkErrCaptValid (page : Nat) (v : Word) (s : State) : Host.Outcome State Fault Refusal :=
  .next { s with toDev := s.toDev.pfWrite (pageBase page + R.capt 0) v }

/-- SRST: the write of BLK_CTL that sets SRST. -/
def execSrst (page : Nat) (v : Word) (s : State) : Host.Outcome State Fault Refusal :=
  .next { s with toDev := s.toDev.pfWrite (pageBase page + R.ctl) (v.setBit 1 true) }

/-- SRST_DONE: at most 20 µs after the block reports quiesced. -/
def execSrstDone (page : Nat) (s : State) : Host.Outcome State Fault Refusal :=
  .next { s with toDev := s.toDev.srstEnd (hdrPage page) }

/-- QUIESCE_REQ: the write of BLK_CTL that requests or releases quiesce. -/
def execQuiesceReq (page : Nat) (v : Word) (s : State) : Host.Outcome State Fault Refusal :=
  .next { s with toDev := s.toDev.pfWrite (pageBase page + R.ctl) (v.setBit 1 false) }

/-- QUIESCED (R25). -/
def execQuiesced (page : Nat) (s : State) : Host.Outcome State Fault Refusal :=
  .next { s with toDev := s.toDev.quiesceEnd (hdrPage page) }

/-- PERF_FREEZE: the write of BLK_CTL that holds or releases the counters. -/
def execPerfFreeze (page : Nat) (v : Word) (s : State) : Host.Outcome State Fault Refusal :=
  .next { s with toDev := s.toDev.pfWrite (pageBase page + R.ctl) (v.setBit 1 false) }

def execNocPortIsoSet (v : Word) (s : State) : Host.Outcome State Fault Refusal :=
  .next { s with toDev := s.toDev.pfWrite R.nocPortIsoSet v }

def execNocPortIsoClr (v : Word) (s : State) : Host.Outcome State Fault Refusal :=
  .next { s with toDev := s.toDev.pfWrite R.nocPortIsoClr v }

end Sys2Proof.Machine
end

