-- ==== Sys2Proof/Machine/Bars.lean ====
section
/-! DEFINITION. Accesses to BAR 0, BAR 4 and the VF BARs and through the remote windows: REGISTER_WRITE, ACQUIRE_READ, REMOTE_READ,
REMOTE_WRITE, REMOTE_READ_TIMEOUT (R34-R36, R40-R44, R53, R69, R73, R108). -/

namespace Sys2Proof.Machine

/-! ### Remote windows (R40-R43) -/

/-- The number under which a read by `src` is answered when it comes with no requester ID of its own. -/
def Src.req : Src → Nat
  | .host n => n
  | .mgmt => 0x10000
  | .sched => 0x10001
  | .time => 0x10002

/-- A unit that a remote access can reach: in QUARANTINE or JOINED (R40). -/
def Dev.remoteUnit (s : Dev) (u : Nat) : Bool := s.isMgr && decide (u < 16) && s.isHere u

/-- A remote write: the frame carries the offset and the value; for an absent or lost unit it is dropped (R40). -/
def Dev.remoteWrite (s : Dev) (src : Src) (u a : Nat) (v : Word) (be : Nat) : Dev :=
  if be ≠ 15 then s.accErr 0 .partialWrite (0x800000 + u * 0x400000 + a)
  else if u = 0 then s.regWrite src a v
  else if s.remoteUnit u then s.issue { cls := 2, dst := u, sub := 1, payload := bytesOf 4 a ++ bytesOf 4 v.toNat } .regWrite
  else s.remoteLost u a

/-- A remote read for requester `req`: of an absent or lost unit it returns 0 (R40). -/
def Dev.remoteRead (s : Dev) (req u a : Nat) : Dev :=
  if u = 0 then (s.regRead a).2.tlp (.cpl req (bytesOf 4 (s.regRead a).1.toNat) false)
  else if s.remoteUnit u then s.issue { cls := 2, dst := u, sub := 0, payload := bytesOf 4 a } (.regRead req)
  else (s.remoteLost u a).tlp (.cpl req (bytesOf 4 0) false)

/-- REMOTE_READ: dword `off` of unit `unit`'s layout. -/
def execRemoteRead (src : Src) (unit off : Nat) (s : State) : Host.Outcome State Fault Refusal :=
  .next { s with toDev := if s.isMgr then s.toDev.remoteRead src.req (unit % 16) (off % 0x400000 / 4 * 4) else s.toDev }

/-- REMOTE_WRITE. -/
def execRemoteWrite (src : Src) (unit off : Nat) (v : Word) (be : Nat) (s : State) : Host.Outcome State Fault Refusal :=
  .next { s with toDev :=
    if s.isMgr then (s.toDev.busPosted src).remoteWrite src (unit % 16) (off % 0x400000 / 4 * 4) v be else s.toDev }

/-- A remote read unanswered for 50 µs returns 0 and is recorded; a late answer finds nobody that waits (R43). -/
def Dev.remoteTimeout (s : Dev) (txid : Nat) : Dev :=
  let hit := fun (t : Txn) => t.vc == 3 && t.txid == txid && (match t.what with | .regRead _ => true | _ => false)
  match s.chain.out.find? hit with
  | some t =>
    let req := match t.what with | .regRead r => r | _ => 0
    let out := s.chain.out.map fun x => if hit x && x.dst == t.dst then { x with what := .regWrite } else x
    let s : Dev := { s with chain := { s.chain with out } }
    (s.remoteLost t.dst (natOf (t.frame.payload.take 4))).tlp (.cpl req (bytesOf 4 0) false)
  | none => s

def execRemoteReadTimeout (txid : Nat) (s : State) : Host.Outcome State Fault Refusal :=
  .next { s with toDev := s.toDev.remoteTimeout txid }

/-! ### BARs (R34-R36, R53) -/

/-- A function's registers may be accessed through its BARs: Memory Space Enable, not in D3hot or FLR, an enabled VF (R69, R73). -/
def Dev.barMay (s : Dev) (src : Src) : Bool :=
  match src with
  | .host n => s.isMgr && !s.inD3 && s.mse n && !s.inFlr n && (n == 0 || s.vfOn n)
  | _ => true

/-- A dword of function `fn`'s MSI-X table is written: a vector that is no longer masked sends its pending message (R56). -/
def Dev.msixWrite (s : Dev) (fn d : Nat) (v : Word) : Dev :=
  let vec := d / 4
  let v := if d % 4 = 3 then v &&& 1 else if d % 4 = 0 then v &&& ~~~3 else v
  let s : Dev := { s with hif := { s.hif with msixTab := Tab.set msixReset s.hif.msixTab (fn * 1024 + d) v } }
  if s.hif.pba.contains (fn, vec) then
    ({ s with hif := { s.hif with pba := s.hif.pba.filter (· != (fn, vec)) } } : Dev).msixOut fn vec
  else s

/-- A 32-bit write to BAR 0 of the PF, or by another source to the map of the unit. -/
def Dev.bar0Write (s : Dev) (src : Src) (off : Nat) (v : Word) (be : Nat) : Dev :=
  if off < 0x800000 ∨ s.isMgr = false then
    if be = 15 then s.regWrite src off v else s.accErr 0 .partialWrite off
  else if off < 0x4800000 then s.remoteWrite src ((off - 0x800000) / 0x400000) (off % 0x400000) v be
  else s.accErr 0 .unmapped off

/-- Context page `k` of a VF's BARs. -/
def Dev.vfCtxAt (s : Dev) (n k : Nat) : Option Nat := (s.vfCtxs n)[k]?.filter (· != 0)

/-- The address in the map of an offset of a VF's BAR 0. -/
def Dev.vfBar0 (s : Dev) (n off : Nat) : Option Nat := (s.vfCtxAt n (off / 0x4000)).map fun c => 0x400000 + c * 0x4000 + off % 0x4000

/-- The context of a doorbell page, and the doorbell of an offset in it. -/
def Dev.bar4Ctx (s : Dev) (n off : Nat) : Option Nat :=
  if n = 0 then (if 0x1000 ≤ off ∧ off < 0x100000 then some (off / 0x1000) else none) else s.vfCtxAt n (off / 0x1000)

/-- The MSI-X table dword of an offset of function `n`'s BAR 4. -/
def bar4Msix (n off : Nat) : Option Nat :=
  if n = 0 then (if off < 0x1000 then some (off / 4) else none)
  else if 0x800 ≤ off ∧ off < 0x8F0 then some ((off - 0x800) / 4) else none

/-- A 32-bit write to BAR 4 of function `n`. -/
def Dev.bar4Write (s : Dev) (n off : Nat) (v : Word) (be : Nat) : Dev :=
  match bar4Msix n off with
  | some d => if be = 15 then s.msixWrite n d v else s.accErr 0 .partialWrite off
  | none => match s.bar4Ctx n off with
    | some c => if off % 0x1000 < 0x10 then s.doorbell (.host n) c (off % 0x1000 / 4) v be else s
    | none => s

/-- One 32-bit write of a REGISTER_WRITE. -/
def Dev.wordWrite (s : Dev) (src : Src) (bar off : Nat) (v : Word) (be : Nat) : Dev :=
  match src with
  | .host n =>
    if bar = 4 then s.bar4Write n off v be
    else if bar ≠ 0 then s
    else if n = 0 then s.bar0Write src off v be
    else match s.vfBar0 n off with
      | some a => if be = 15 then s.regWrite src a v else s.accErr 0 .partialWrite a
      | none => s.accErr 0 .unmapped off
  | _ => if bar = 0 then s.bar0Write src off v be else s

/-- REGISTER_WRITE: consecutive 32-bit writes in increasing order, each with its byte enables (R36). A write that the function does
not take is an unsupported request; one whose ECRC fails is dropped (R63), and so is a poisoned one, logged as such (R64). -/
def Dev.barWrite (s : Dev) (src : Src) (bar off : Nat) (ws : List (Word × Nat)) (poisoned ecrcBad : Bool) : Dev :=
  let bus := match src with | .host _ => true | _ => false
  let s := s.busPosted src
  if bus && ecrcBad && s.ecrcOn then s.ecrcDrop
  else if !s.barMay src then (if s.isMgr then s.urLog else s)
  else if bus && poisoned then (s.aerAdvisory .poisonedTlp).irq 0x6000 19
  else ws.zipIdx.foldl (fun (s : Dev) x => s.wordWrite src bar (off / 4 * 4 + 4 * x.2) x.1.1 x.1.2) s

def execRegisterWrite (src : Src) (bar off : Nat) (ws : List (Word × Nat)) (poisoned ecrcBad : Bool) (s : State) :
    Host.Outcome State Fault Refusal :=
  .next { s with toDev := s.toDev.barWrite src bar off ws poisoned ecrcBad }

/-- A dword of BAR 4 of function `n` as read: its MSI-X table and pending bits; doorbells read 0. -/
def Dev.bar4Read (s : Dev) (n off : Nat) : Word :=
  match bar4Msix n off with
  | some d => Tab.get msixReset s.hif.msixTab (n * 1024 + d)
  | none =>
    let pba := if n = 0 then 0x1800 else 0xC00
    if pba ≤ off ∧ off < pba + 32 then
      Word.ofNat ((List.range 32).map fun i => bN (s.hif.pba.contains (n, (off - pba) * 8 + i)) * 2 ^ i).sum
    else 0

/-- A 32-bit read of a BAR of function `n`; `none`: it is forwarded to another unit and answered later. -/
def Dev.wordRead (s : Dev) (req n bar off : Nat) : Option Word × Dev :=
  if bar = 4 then (some (s.bar4Read n off), s)
  else if n ≠ 0 then
    match s.vfBar0 n off with
    | some a => (some (s.regRead a).1, (s.regRead a).2)
    | none => (some 0, s.accErr 0 .unmapped off)
  else if off < 0x800000 then (some (s.regRead off).1, (s.regRead off).2)
  else if off < 0x4800000 then
    let u := (off - 0x800000) / 0x400000
    let a := off % 0x400000
    if u = 0 then (some (s.regRead a).1, (s.regRead a).2)
    else if s.remoteUnit u then (none, s.remoteRead req u a)
    else (some 0, s.remoteLost u a)
  else (some 0, s.accErr 0 .unmapped off)

/-- The 32-bit reads of an access, in increasing order. -/
def Dev.wordsRead (s : Dev) (req n bar : Nat) : List Nat → List Word × Dev
  | [] => ([], s)
  | o :: r =>
    let (w, s) := s.wordRead req n bar o
    let (l, s) := s.wordsRead req n bar r
    ((match w with | some w => w :: l | none => l), s)

/-- ACQUIRE_READ (R36, R108): a read of BAR 0 or BAR 4 discards its requester's lines; one of BAR 2 is a BAR 2 read, which discards
them when its page is not PREFETCH_OK. The words read here complete together; each word of another unit completes when it answers. -/
def Dev.acquireRead (s : Dev) (req n bar off len : Nat) (ecrcBad : Bool) : Dev :=
  if bar = 2 then s.bar2Read req n off len ecrcBad
  else if !s.isMgr then s
  else
  let s := s.perf 0x6000 1 1
  if ecrcBad && s.ecrcOn then s.ecrcDrop
  else if !s.barMay (.host n) then s.urLog.tlp (.cplUr req)
  else
    let s := s.acquire req
    let a := off / 4 * 4
    let (ws, s) := s.wordsRead req n bar ((List.range ((off + len + 3) / 4 - off / 4)).map fun i => a + 4 * i)
    if ws = [] then s else s.tlp (.cpl req (((bytesOfWords ws).drop (off % 4)).take len) false)

def execAcquireRead (req fn bar off len : Nat) (ecrcBad : Bool) (s : State) : Host.Outcome State Fault Refusal :=
  .next { s with toDev := s.toDev.acquireRead req fn bar off len ecrcBad }

/-- TIME_NOW_LO: a read by requester `req` (R350). -/
def execTimeNowLo (req : Nat) (s : State) : Host.Outcome State Fault Refusal :=
  .next { s with toDev := (s.toDev.regRead R.timeNowLo).2.emit (.cpl req (bytesOf 4 (s.toDev.regRead R.timeNowLo).1.toNat) false) }

/-- VENT_LAST_ADDR_LO: a read by requester `req` (R407). -/
def execVentLastAddrLo (req : Nat) (s : State) : Host.Outcome State Fault Refusal :=
  .next { s with toDev :=
    (s.toDev.regRead R.ventLastAddrLo).2.emit (.cpl req (bytesOf 4 (s.toDev.regRead R.ventLastAddrLo).1.toNat) false) }

end Sys2Proof.Machine
end

