-- ==== Sys2Proof/Machine/Frames.lean ====
section
/-! DEFINITION. Grenlink frames received: their way to a port, relaying, transactions applied once, and the rows of the frames
(R42-R44, R134, R212, R213, R219, R288, R369, R372, R374-R381, R400, R411, R412). -/

namespace Sys2Proof.Machine

/-! ### Statuses of RESPONSE frames -/

/-- Every name of R450 that a status can have. -/
def Nm.all : List Nm :=
  [.success, .duplicate, .duplicateStale, .ctxFaultAddr, .ctxFaultCmd, .ctxFaultTimeout, .creditTimeout, .readTimeout, .dataPoisoned,
   .unitLost, .lateCompletion, .vfResetDone, .poisonFound, .pageRetired, .ceThreshold, .dramFail, .poolEmpty, .poolQuota,
   .poolCfgReject, .refcountOverflow, .refcountUnderflow, .staleHandle, .ventBlocked, .debugUnlocked, .fwAuthFail, .attestFail,
   .launchLate, .timeLocked, .timeUnlocked, .unitJoined, .unitQuarantined, .linkReplay, .linkDown, .slotAttention, .slotPresence,
   .pivotSmall, .rangeExceeded, .dimLimit, .bitstreamError, .concealed, .recovering, .nmsTruncated, .encBusy, .thermalThrottle,
   .thermalTrip, .powerCap, .heartbeatMissed]

/-- The status that a code stands for; a code of no name is taken as a failed command of its block. -/
def Status.ofCode (n : Nat) : Status :=
  if n = 0 then .ok
  else match Nm.all.find? fun m => m.base == n / 4096 * 4096 + n % 64 with
    | some m => ⟨m, n / 64 % 64⟩
    | none => ⟨.ctxFaultCmd, n / 64 % 64⟩

/-! ### The prefix of DATA payloads -/

/-- ADDR, CTX, requester, read length, HANDLE. -/
def preAddr (b : List Byte) : Nat := natOf (b.take 8)
def preCtx (b : List Byte) : Nat := fldN (natOf ((b.drop 8).take 4)) 0 8
def preRq (b : List Byte) : Nat := fldN (natOf ((b.drop 8).take 4)) 8 8
def preLen (b : List Byte) : Nat := fldN (natOf ((b.drop 8).take 4)) 16 16
def preHandle (b : List Byte) : Nat := natOf ((b.drop 12).take 4)

/-! ### The effects of transactions -/

/-- Whether a WRITE or READ of `n` bytes may be made at its destination: a non-null handle that is stale, or bytes that do not exist,
fail it. -/
def Dev.dataBad (s : Dev) (b : List Byte) (n : Nat) : Option Status :=
  let a := preAddr b
  if preHandle b ≠ 0 ∧ s.hValid (preHandle b) = false then some ⟨.staleHandle, 0x15⟩
  else if bitN a 63 then
    (if 2 ^ 23 < fldN a 0 23 + n ∨ s.coreIso (fldN a 24 4) = true then some ⟨.ctxFaultAddr, 0x15⟩ else none)
  else if s.usable < a + n then some ⟨.ctxFaultAddr, 0x15⟩
  else none

/-- A DATA WRITE at its destination: its status. -/
def Dev.dataWrite (s : Dev) (b : List Byte) : Status × Dev :=
  let d := b.drop 16
  let a := preAddr b
  match s.dataBad b d.length with
  | some st => (st, if bitN a 63 && s.coreIso (fldN a 24 4) then s.isoHit else s)
  | none => (.ok, if bitN a 63 then s.asStore (fldN a 24 4) (fldN a 0 23) d false else s.memWr (preCtx b) a d false)

/-- The bytes that a DATA READ names, poisoned or not, and their content class. -/
def Dev.dataFetch (s : Dev) (b : List Byte) : Bool × List Byte × Nat × Dev :=
  let a := preAddr b
  let n := preLen b
  if bitN a 63 then
    let k := fldN a 24 4
    let o := fldN a 0 23
    ((s.asPoison k o n).isSome, s.asBytes k o n, 1, s)
  else
    let k := s.clsOf a
    let (bad, bs, s) := s.memRd (preCtx b) a n
    (bad, bs, k, s)

/-- A DATA READ from unit `u` at its destination: its status and the bytes, which the Vent may keep back (R406, R407). -/
def Dev.dataRead (s : Dev) (u : Nat) (b : List Byte) : Status × List Byte × Dev :=
  let n := preLen b
  if n = 0 ∨ 256 < n then (⟨.ctxFaultCmd, 0x15⟩, [], s)
  else match s.dataBad b n with
    | some st => (st, [], if bitN (preAddr b) 63 && s.coreIso (fldN (preAddr b) 24 4) then s.isoHit else s)
    | none =>
      let (bad, bs, cls, s) := s.dataFetch b
      if bad then (⟨.dataPoisoned, 0x15⟩, [], s)
      else
        let (ok, s) := s.chainMay cls (preAddr b) u (preCtx b) (preRq b)
        if ok then (.ok, bs, s) else (⟨.ctxFaultAddr, 0x15⟩, [], s)

/-- A BPM operation of another unit (R134): its answer leaves with its status and handle or count. -/
def Dev.dataBpm (s : Dev) (f : Frame) : Dev :=
  let b := f.payload
  let tag := remoteTag f.src f.txid
  match fldN f.arg 0 4 with
  | 0 => s.engAlloc (preRq b) (preCtx b) (fldN f.arg 4 4) true tag
  | 1 => s.engOp true (preRq b) (preCtx b) (preHandle b) tag
  | 2 => s.engOp false (preRq b) (preCtx b) (preHandle b) tag
  | _ => s.answer tag ⟨.ctxFaultCmd, 0x15⟩ 0

/-- The records of a RECORD frame wait for acceptance by their context's MQ; with the context not OPEN they are dropped and answered
(R89, R100, R288). -/
def Dev.dataRecord (s : Dev) (f : Frame) : Dev :=
  let c := fldN f.arg 0 8
  let l : List MRec := (List.range (fldN f.arg 8 2 + 1)).map fun i =>
    { ctx := c, words := wordsOf ((f.payload.drop (64 * i)).take 64), blk := 0x15, unit := f.src, txid := f.txid }
  if s.isMgr && s.ctxSt c == 1 && !(s.ctx c).flr then s.setCtx c { s.ctx c with mqWait := (s.ctx c).mqWait ++ l }
  else s.respond f.src 0 f.txid 0 []

/-- Pages that a unit in QUARANTINE serves remotely in full: TOP, CLK, PWR, SEC, GLK0, GLK1, CHAIN (R44). -/
def quarPage (off : Nat) : Bool := [0, 0x1000, 0x2000, 0x3000, 0x78000, 0x79000, 0x7A000].contains (pageBase off)

/-- This unit is in QUARANTINE. -/
def Dev.inQuar (s : Dev) : Bool := !s.isMgr && s.chain.own != .joined

/-- REG_READ at its target (R40, R44), of the ID group also on the other pages: the value and the error bit. -/
def Dev.farRead (s : Dev) (off : Nat) : Word × Bool × Dev :=
  if s.inQuar && !quarPage off && !decide (off % 0x1000 < 0x10) then (0, true, s.accErr 0 .remoteQuarantined off)
  else ((s.regRead off).1, false, (s.regRead off).2)

/-- REG_WRITE at its target (R40, R44). -/
def Dev.farWrite (s : Dev) (off : Nat) (v : Word) : Dev :=
  if s.inQuar && !quarPage off then s.accErr 0 .remoteQuarantined off
  else s.regWrite (.host 0) off v

/-- The isolated port of the core that a MESSAGE, CREDIT or SIGNAL names answers it with an error (R25). -/
def Dev.corePort (s : Dev) (f : Frame) (act : Dev → Dev) : Dev :=
  if s.coreIso (fldN f.arg 0 4) then s.isoHit.respond f.src 2 f.txid (Status.mk .ctxFaultAddr 0x15).code []
  else (act s).respond f.src 2 f.txid 0 []

/-- Apply a transaction at its destination: its effect, and its answer when that does not come later. -/
def Dev.txEffect (s : Dev) (f : Frame) : Dev :=
  let b := f.payload
  if f.cls = 2 then
    let off := natOf (b.take 4) % 0x400000 / 4 * 4
    if f.sub = 0 then
      let (w, e, s) := s.farRead off
      s.respond f.src 3 f.txid 0 (bytesOf 4 w.toNat ++ bytesOf 4 (bN e))
    else (s.farWrite off (Word.ofNat (natOf ((b.drop 4).take 4)))).respond f.src 3 f.txid 0 (bytesOf 8 0)
  else match f.sub with
    | 0 =>
      let (st, s) := s.dataWrite b
      s.respond f.src 0 f.txid st.code []
    | 1 =>
      let (st, d, s) := s.dataRead f.src b
      s.respond f.src 0 f.txid st.code d
    | 2 => s.dataBpm f
    | 4 => s.corePort f fun s => s.rxMessage f
    | 5 => s.corePort f fun s => (s.rxCredit f).pumpAll
    | 6 => (s.corePort f fun s => s.rxSignal f).coachAll
    | 7 => s.dataRecord f
    | _ => s

/-! ### Streams (R374) -/

/-- Append a transaction to those applied, of which each stream keeps the last 256. -/
def Chain.applyAdd (x : Chain) (a : Applied) : Chain :=
  let same := fun (y : Applied) => y.src == a.src && y.vc == a.vc
  let l := if 256 ≤ (x.applied.filter same).length then x.applied.eraseP same else x.applied
  { x with applied := l ++ [a] }

/-- The next transaction of its stream is applied. -/
def Dev.txApply (s : Dev) (f : Frame) : Dev :=
  let vc := txVc f
  let c : Chain := { s.chain with rxNext := Tab.set (fun _ => 0) s.chain.rxNext (f.src * 4 + vc) ((f.txid + 1) % 2 ^ 32) }
  ({ s with chain := c.applyAdd { src := f.src, vc, txid := f.txid, resp := none } } : Dev).txEffect f

/-- Frames held ahead of a gap that is now closed are applied. -/
def Dev.txEarly (s : Dev) (src vc : Nat) : Nat → Dev
  | 0 => s
  | n + 1 =>
    let want := Tab.get (fun _ => 0) s.chain.rxNext (src * 4 + vc)
    match s.chain.early.find? fun f => f.src == src && txVc f == vc && f.txid == want with
    | none => s
    | some f => (({ s with chain := { s.chain with early := s.chain.early.erase f } } : Dev).txApply f).txEarly src vc n

/-- A transaction arrives: applied in TXID order, held ahead of a gap, or a repeat, which gets its stored response. -/
def Dev.txRecv (s : Dev) (f : Frame) : Dev :=
  let vc := txVc f
  let want := Tab.get (fun _ => 0) s.chain.rxNext (f.src * 4 + vc)
  if f.txid = want then (s.txApply f).txEarly f.src vc 256
  else if (f.txid + 2 ^ 32 - want) % 2 ^ 32 < 2 ^ 31 then
    let held := s.chain.early.filter fun g => g.src == f.src && txVc g == vc
    if held.any (·.txid == f.txid) || decide (256 ≤ held.length) then s
    else { s with chain := { s.chain with early := s.chain.early ++ [f] } }
  else
    let s := s.perf 0x7A000 2 1
    match s.chain.applied.find? fun a => a.src == f.src && a.vc == vc && a.txid == f.txid with
    | some a => match a.resp with
      | some r => s.chainSend r
      | none => s
    | none => s

/-! ### Answers -/

/-- A failed DATA transfer of an ingress entry faults its context. -/
def Dev.dataFailed (s : Dev) (tag : Nat) (st : Status) : Dev :=
  match s.eng.rings.findSome? fun x => match x.2 with
    | some r => (match r.xfer with
      | .data _ _ t => if t = tag then some r.ctx else none
      | _ => none)
    | none => none with
  | some c => s.ctxFault c ⟨.ctxFaultAddr, st.blk⟩ 0 0 0xFFFF
  | none => s

/-- What the answer of a transaction does for what it was for. -/
def Dev.txFor (s : Dev) (what : TxFor) (status : Nat) (payload : List Byte) : Dev :=
  match what with
  | .regRead req => s.tlp (.cpl req (payload.take 4) false)
  | .regWrite => s
  | .data tag => if status = 0 then s else s.dataFailed tag (.ofCode status)
  | .bpm tag => s.answer tag (.ofCode status) (natOf (payload.take 4))
  | .msg k op =>
    let s := if status ≠ 0 ∧ k < 16 then s.coreFault k 0x24 ⟨.ctxFaultAddr, 0⟩ else s
    (s.flightDone k op).pumpAll
  | .record _ => s

/-- An allocation on another unit comes for an entry that was given up: its buffer is released. -/
def Dev.orphanAlloc (s : Dev) (t : Txn) (status : Nat) (payload : List Byte) : Dev :=
  match t.what with
  | .bpm tag =>
    let waits := s.eng.rings.any fun x => match x.2 with
      | some r => (match r.xfer with | .alloc _ g => g == tag | _ => false)
      | none => false
    if status ≠ 0 ∨ waits = true then s
    else
      let (_, s) := s.takeAnswer tag
      s.issue { cls := 0, vc := 0, dst := t.dst, sub := 2, arg := 2
                payload := framePrefix 0 (fldN (natOf ((t.frame.payload.drop 8).take 4)) 0 8) 75 0 (natOf (payload.take 4)) } .regWrite
  | _ => s

/-- A transaction is answered: its source drops it, and the next that waits for its stream is issued (R374). -/
def Dev.txDone (s : Dev) (t : Txn) (status : Nat) (payload : List Byte) : Dev :=
  let s : Dev := { s with chain := { s.chain with out := s.chain.out.erase t } }
  let s := s.txFor t.what status payload
  let s := s.orphanAlloc t status payload
  match s.chain.wait.find? fun w => w.dst == t.dst && w.vc == t.vc with
  | some w => ({ s with chain := { s.chain with wait := s.chain.wait.erase w } } : Dev).issue w.frame w.what
  | none => s

/-- A REG_RESP or RESPONSE frame: one that matches no outstanding request is discarded (R374). A RESPONSE names no stream; it answers
the oldest request with its TXID (DESIGN CHOICE, notes/assumptions/33). -/
def Dev.txAnswer (s : Dev) (f : Frame) : Dev :=
  match s.chain.out.find? fun t => t.dst == f.src && t.txid == f.txid && (t.vc == 3) == (f.cls == 2) with
  | some t => s.txDone t (fldN f.arg 0 16) f.payload
  | none => s

/-! ### FIRMWARE frames -/

/-- The routes of epoch `e` have come (R379): a unit that missed the epoch before takes its number. -/
def Dev.takeRoutes (s : Dev) (e : Nat) (table : List Nat) : Dev :=
  let s := if (s.epoch + 1) % 256 = e then s else s.setRf R.chainStat 6 8 ((e + 255) % 256)
  let next := some (e, nextTable (table.getD s.addr 0) (table.getD 16 1))
  ({ s with chain := { s.chain with next, switchAt := none } } : Dev).fwSend 0 (.routesAck e)

/-- A command's part for this unit joins its context's queue (R331). -/
def Dev.takeCmd (s : Dev) (c prio quota coreset seq : Nat) (words : List Word) (data : List Byte) : Dev :=
  let s := ((s.setReg (R.ctxPrio c) (Word.ofNat prio)).setReg (R.ctxQuota c) (Word.ofNat quota)).setReg (R.ctxCoreset c s.addr)
    (Word.ofNat coreset)
  let x := s.ctx c
  s.setCtx c { x with sq := x.sq ++ [words], wdata := x.wdata.filter (·.1 != seq) ++ [(seq, data)] }

/-- The teardown of a context on this worker (R344). -/
def Dev.takeTeardown (s : Dev) (c : Nat) : Dev := ((s.dropWork c).setCtx c {}).fwSend 0 (.teardownDone c)

/-- The manager has a port disabled (R381). -/
def Dev.portOff (s : Dev) (p : Nat) : Dev := (s.setRb (R.glkCtl p) 0 false).glkOff p false

/-- What the manager's firmware tells a worker. -/
def Dev.fwWorker (s : Dev) : FwMsg → Dev
  | .routes e t => s.takeRoutes e t
  | .switch e t => if (s.chain.next.map (·.1)) = some e then { s with chain := { s.chain with switchAt := some t } } else s
  | .chainReset => s.chainReset
  | .sleep => s.sleepReq
  | .image => { s with boot := { s.boot with trying := some 0 } }
  | .key p salt => (s.installKey p salt).fwSend 0 (.keyHeld p)
  | .keyUse p => s.useKey p
  | .disablePort p => s.portOff p
  | .cmd c prio quota coreset seq words data => s.takeCmd c prio quota coreset seq words data
  | .teardown c => s.takeTeardown c
  | .modelDrop m => s.modelFree m
  | .clipPush id c camera timed d m => s.clipArrive id c camera timed d m
  | .clipWritten id => s.clipWritten id
  | .solveOutDone c seq => s.solveOutDone c seq
  | _ => s

/-- The opcodes of the commands that give their context a slot on their unit (R331). -/
def givesSlot (op : Nat) : Bool := [3, 0x10, 0x20, 0x30, 0x40, 0x50, 0x51, 0x53].contains op

/-- Unit `u`'s answer to a command's part: the slot it gave its context is noted. -/
def Dev.cmdAnswer (s : Dev) (u c seq : Nat) (st : Status) (result : Nat) (data : List Byte) : Dev :=
  match (s.ctx c).run.find? (·.seq == seq) with
  | none => s
  | some e =>
    let new := givesSlot e.op && st != ⟨.poolQuota, 8⟩ && !s.chain.held.contains (u, c)
    let s : Dev := if new then { s with chain := { s.chain with held := s.chain.held ++ [(u, c)] } } else s
    s.partDone c seq u st result 0 data

/-- The owner of a stream that attached it tells its pool: the manager sets up the ring (R157). -/
def Dev.boundRing (s : Dev) (u k base size : Nat) : Dev :=
  let hit := fun (e : Run) => e.op == 0x10 && e.await.contains u && hF e.words 8 0 12 == k
  match s.ctxs.find? fun x => x.2.run.any hit with
  | some x => match x.2.run.find? hit with
    | some e => s.attachRing x.1 k u base size e.words
    | none => s
  | none => s

/-- The verdict on a worker's attestation (R411). -/
def Dev.attestTell (s : Dev) (u : Nat) (ok : Bool) (check : Nat) : Dev :=
  let x := s.unit u
  if x.st ≠ .quarantine then s
  else if ok then ((s.setUnit u { x with attested := true }).keyAll).checkJoin
  else
    let s : Dev := { s.setUnit u { x with attested := false } with sec := { s.sec with audit := s.sec.audit + 1 } }
    ((s.irq 0x3000 17).raise
      { nm := .attestFail, blk := 4, d0 := u, d1 := x.serial % 2 ^ 32, d2 := x.serial / 2 ^ 32 % 2 ^ 32, d3 := check }).quarantined u
      x.serial 2

/-- Unit `u` has reset itself and is back in QUARANTINE (R419). -/
def Dev.unitAgain (s : Dev) (u : Nat) : Dev :=
  let x := s.unit u
  let drop := fun (l : List (Nat × Nat)) => l.filter (·.1 != u)
  if !s.isHere u || u == 0 then s else
  let s := s.txAllLost u
  let c := s.chain
  let s : Dev := { s with chain := { c with
    ackWait := c.ackWait.filter (· != u), drainWait := c.drainWait.filter (· != u), keyed := drop c.keyed, keyNew := drop c.keyNew
    keyWait := drop c.keyWait, held := drop c.held } }
  ((s.setUnit u { st := .quarantine, serial := x.serial, slot := x.slot }).quarantined u x.serial 1 |>.fwSend u .image).epochChange

/-- What unit `u`'s firmware tells the manager. -/
def Dev.fwManager (s : Dev) (u : Nat) : FwMsg → Dev
  | .routesAck e => s.routesAck u e
  | .drained e => if e = s.epoch then s.drained u else s
  | .irq v => s.msix 0 v
  | .event e => s.routeEvent e
  | .chainResetAck => { s with boot := { s.boot with chainWait := s.boot.chainWait.erase u } }
  | .awake => { s with chain := { s.chain with wakeWait := s.chain.wakeWait.erase u } }
  | .attest ok check => s.attestTell u ok check
  | .keyHeld p =>
    let e := (u, p)
    if s.chain.keyWait.contains e then
      let c := s.chain
      (({ s with chain := { c with keyWait := c.keyWait.erase e, keyNew := e :: c.keyNew } } : Dev).keysReady).checkJoin
    else s
  | .linkReport p up serial =>
    if up then s.linkKnown u p serial
    else if s.chain.downLinks.contains (u, p) then s
    else { s with chain := { s.chain with downLinks := s.chain.downLinks ++ [(u, p)] } }
  | .conflict serial => s.quarantined 0xF serial 5
  | .timeLocked on => (s.setUnit u { s.unit u with timeLocked := on }).checkJoin
  | .cmdDone c seq st result data => s.cmdAnswer u c seq st result data
  | .fault c st d2 core => s.ctxFault c st 0 d2 core
  | .teardownDone c => { s with chain := { s.chain with held := s.chain.held.filter (· != (u, c)) } }
  | .ctxReset c => s.ctxCtlWrite .mgmt c 2
  | .addressed serial slot => (s.enterQuar u serial slot).epochBegin
  | .streamBound k base size => s.boundRing u k base size
  | .requarantine => s.unitAgain u
  | .solveOut c seq data => (s.solveOut c seq data).fwSend u (.solveOutDone c seq)
  | .clipAns id st => s.clipAnswer id st
  | .clipData id c dest data => (s.destWrite c dest data).fwSend u (.clipWritten id)
  | _ => s

/-- A core of a route's step has ended. -/
def Dev.coreEnded (s : Dev) (r core : Nat) : Dev :=
  match s.route r with
  | none => s
  | some x => match x.steps with
    | t :: l => s.setRoute r (some { x with steps := { t with running := t.running.erase core } :: l })
    | [] => s

/-- INTAKE_FAIL of a seat of a route whose home is another unit. -/
def Dev.intakeFailed (s : Dev) (r addr seat : Nat) : Dev :=
  match s.route r with
  | none => s
  | some x => s.markIntake x addr seat

/-- What the units of a route tell each other; anything else goes to the manager's or the worker's firmware. -/
def Dev.fwMsg (s : Dev) (u : Nat) : FwMsg → Dev
  | .au k h addr len tag cts est discont start => s.appendAu k { h, addr, len, tag, cts, est, discont, start }
  | .routeKind r coach => if s.isMgr then (s.kindKnown r coach).tellKind r coach else s.kindKnown r coach
  | .coreEnd r core => s.coreEnded r core
  | .stepStart r addr table => ((s.kindKnown r true).stepHere r addr table).pumpAll
  | .intakeFail r addr seat => s.intakeFailed r addr seat
  | .routeEnd r => (s.routeGone r).unloadAll
  | m => if s.isMgr then s.fwManager u m else if u = 0 then s.fwWorker m else s

/-! ### A frame's way in -/

/-- Apply a frame that is addressed to this unit. -/
def Dev.frameHere (s : Dev) (p : Nat) (f : Frame) : Dev :=
  if f.cls = 0 then
    let vc := if f.sub = 3 then 1 else if 4 ≤ f.sub ∧ f.sub ≤ 6 then 2 else 0
    if f.vc ≠ vc then s.dropFrame p else if f.sub = 3 then s.txAnswer f else s.txRecv f
  else match f.sub with
    | 0 => s.txRecv f
    | 1 => s.txRecv f
    | 2 => s.txAnswer f
    | 3 => if s.isMgr then s else s.chainSend { cls := 2, dst := f.src, sub := 3 }
    | 4 => s.joinFrom f.src f.payload
    | _ => match f.fw with
      | some m => s.fwMsg f.src m
      | none => s

/-- The table of the epoch in a frame's header: the current one or the previous one (R379). -/
def Dev.epochTable (s : Dev) (e : Nat) : Option Nat :=
  if e = s.epoch then some (s.rn R.chainRoute)
  else match s.chain.prev with
    | some (o, t) => if o = e then some t else none
    | none => none

/-- The port on which a MGMT frame that came in on port `p` goes on: its route's, and where that is down, or the way it came, the other
(R380). -/
def Dev.mgmtPort (s : Dev) (p r : Nat) : Option Nat :=
  let q := if r = 1 ∨ r = 2 then r - 1 else otherPort p
  let q := if q = p then otherPort p else q
  if s.linkOk q then some q else if s.linkOk (otherPort q) then some (otherPort q) else none

/-- Relay a frame (R369, R379, R380): HOPS decremented, by the table of its epoch. -/
def Dev.relay (s : Dev) (p : Nat) (f : Frame) : Dev :=
  if f.hops = 0 then s.dropFrame p
  else
    let g : Frame := { f with hops := f.hops - 1 }
    match s.epochTable f.epoch with
    | none => s.satInc R.chainNorouteCnt 1
    | some t =>
      let r := routeOf t f.dst
      if f.cls = 2 then match s.mgmtPort p r with
        | some q => s.glkSend q g
        | none => s.satInc R.chainNorouteCnt 1
      else if r = 1 ∨ r = 2 then s.glkSend (r - 1) g
      else s.satInc R.chainNorouteCnt 1

/-- A DATA frame's source, destination and this unit are JOINED (R377). -/
def Dev.dataJoined (s : Dev) (f : Frame) : Bool :=
  let knows := fun u => if s.isMgr then s.isJoined u else s.rb R.chainUnits u
  !s.inQuar && knows f.src && knows f.dst

/-- A DATA or MGMT frame that the link layer delivers: relayed, applied, or discarded by an unaddressed unit (R375), for QUARANTINE
(R377) or for its epoch (R379). -/
def Dev.routed (s : Dev) (p : Nat) (f : Frame) : Dev :=
  if !s.chain.addressed then s.dropFrame p
  else
    let s : Dev := if f.cls = 2 then { s with chain := { s.chain with seen := Tab.set (fun _ => 0) s.chain.seen f.src p } } else s
    if f.cls = 0 ∧ s.dataJoined f = false then s.dropFrame p
    else if f.dst ≠ s.addr then s.relay p f
    else if f.cls = 0 ∧ (s.epochTable f.epoch).isNone = true then s.satInc R.chainNorouteCnt 1
    else s.frameHere p f

/-- What a received frame may have freed: the previous routes (R379), and a worker that was to sleep (R400). -/
def Dev.afterFrame (s : Dev) : Dev := s.drainCheck.sleepDrained

/-- A frame arrives on port `p`. -/
def Dev.frameIn (s : Dev) (p : Nat) (f : Frame) : Dev :=
  if 2 ≤ p then s
  else if f.cls = 4 then (s.rxIdle p f).afterFrame
  else
    let (ok, s) := s.rx p f
    let s := if !ok then s else if f.cls = 3 then s.waybill p f else if f.cls = 0 ∨ f.cls = 2 then s.routed p f else s
    s.afterFrame

/-- The frame of a row: of class `cls` and SUB `sub`, or one that R369 discards. -/
def rowFrame (cls sub : Nat) (f : Frame) : Bool := f.cls == cls && (f.sub == sub || cls == 3 || cls == 4) || badFrame f

/-- A row's frame arrives; under a row's name no other frame does. -/
def Dev.rowIn (s : Dev) (cls sub p : Nat) (f : Frame) : Dev := if rowFrame cls sub f then s.frameIn p f else s

/-! ### Rows of DATA frames -/

/-- WRITE (R374). -/
def execWrite (p : Nat) (f : Frame) (s : State) : Host.Outcome State Fault Refusal := .next { s with toDev := s.toDev.rowIn 0 0 p f }

/-- READ (R374). -/
def execRead (p : Nat) (f : Frame) (s : State) : Host.Outcome State Fault Refusal := .next { s with toDev := s.toDev.rowIn 0 1 p f }

/-- RESPONSE (R374). -/
def execResponse (p : Nat) (f : Frame) (s : State) : Host.Outcome State Fault Refusal := .next { s with toDev := s.toDev.rowIn 0 3 p f }

/-- RECORD (R288). -/
def execRecord (p : Nat) (f : Frame) (s : State) : Host.Outcome State Fault Refusal := .next { s with toDev := s.toDev.rowIn 0 7 p f }

/-- SIGNAL_FRAME (R219). -/
def execSignalFrame (p : Nat) (f : Frame) (s : State) : Host.Outcome State Fault Refusal :=
  .next { s with toDev := s.toDev.rowIn 0 6 p f }

/-- MESSAGE (R213): one of this unit in flight to channel `ch` of core `core` lands, or a frame of one arrives. -/
def execMessage (core ch : Nat) (via : Option (Nat × Frame)) (s : State) : Host.Outcome State Fault Refusal :=
  .next { s with toDev := match via with
    | some (p, f) => s.toDev.rowIn 0 4 p f
    | none => s.toDev.landFlight core ch }

/-- CREDIT (R212): credits of this unit in flight to core `core` arrive, or a frame of them. -/
def execCredit (core : Nat) (via : Option (Nat × Frame)) (s : State) : Host.Outcome State Fault Refusal :=
  .next { s with toDev := match via with
    | some (p, f) => s.toDev.rowIn 0 5 p f
    | none => s.toDev.landCredit core }

/-- A BPM operation: `via` a frame of operation `op`, or a port of this unit. -/
def Dev.bpmRow (s : Dev) (op : Nat) (via : Option (Nat × Frame)) (f : Dev → Dev) : Dev :=
  match via with
  | some (p, g) => if fldN g.arg 0 4 = op then s.rowIn 0 2 p g else s
  | none => f s

/-- ALLOC (R121, R134): by the engine or core `rq` with its own tag, or by a frame. -/
def execAlloc (rq ctx pool : Nat) (blocking : Bool) (tag : Nat) (via : Option (Nat × Frame)) (s : State) :
    Host.Outcome State Fault Refusal :=
  .next { s with toDev := s.toDev.bpmRow 0 via fun d => d.engAlloc rq ctx pool blocking (tag % 2 ^ 32) }

/-- INC (R129, R134). -/
def execInc (rq ctx h tag : Nat) (via : Option (Nat × Frame)) (s : State) : Host.Outcome State Fault Refusal :=
  .next { s with toDev := s.toDev.bpmRow 1 via fun d => d.engOp true rq ctx h (tag % 2 ^ 32) }

/-- DEC (R130, R134). -/
def execDec (rq ctx h tag : Nat) (via : Option (Nat × Frame)) (s : State) : Host.Outcome State Fault Refusal :=
  .next { s with toDev := s.toDev.bpmRow 2 via fun d => d.engOp false rq ctx h (tag % 2 ^ 32) }

/-! ### Rows of the other frames -/

/-- REG_READ (R42, R44). -/
def execRegRead (p : Nat) (f : Frame) (s : State) : Host.Outcome State Fault Refusal := .next { s with toDev := s.toDev.rowIn 2 0 p f }

/-- REG_WRITE (R42, R44). -/
def execRegWrite (p : Nat) (f : Frame) (s : State) : Host.Outcome State Fault Refusal := .next { s with toDev := s.toDev.rowIn 2 1 p f }

/-- REG_RESP (R43). -/
def execRegResp (p : Nat) (f : Frame) (s : State) : Host.Outcome State Fault Refusal := .next { s with toDev := s.toDev.rowIn 2 2 p f }

/-- KEEPALIVE (R381). -/
def execKeepalive (p : Nat) (f : Frame) (s : State) : Host.Outcome State Fault Refusal := .next { s with toDev := s.toDev.rowIn 2 3 p f }

/-- JOIN (R376). -/
def execJoin (p : Nat) (f : Frame) (s : State) : Host.Outcome State Fault Refusal := .next { s with toDev := s.toDev.rowIn 2 4 p f }

/-- FIRMWARE (R379, R411, R412). -/
def execFirmware (p : Nat) (f : Frame) (s : State) : Host.Outcome State Fault Refusal := .next { s with toDev := s.toDev.rowIn 2 5 p f }

/-- SLEEP (R400): in a frame, or as its firmware hands it over. -/
def execSleep (fr : Option (Nat × Frame)) (s : State) : Host.Outcome State Fault Refusal :=
  .next { s with toDev := match fr with
    | some (p, f) => if f.fw = some .sleep then s.toDev.rowIn 2 5 p f else s.toDev
    | none => s.toDev.sleepReq }

/-- WAYBILL (R375, R376). -/
def execWaybill (p : Nat) (f : Frame) (s : State) : Host.Outcome State Fault Refusal := .next { s with toDev := s.toDev.rowIn 3 0 p f }

/-- IDLE (R372). -/
def execIdle (p : Nat) (f : Frame) (s : State) : Host.Outcome State Fault Refusal := .next { s with toDev := s.toDev.rowIn 4 0 p f }

end Sys2Proof.Machine
end

