-- ==== Sys2Proof/Machine/PcieCfg.lean ====
section
/-! DEFINITION. Configuration space of the PF and the VFs, the rows that write its fields, and the host link (R46, R48-R54, R58-R60,
R69-R73, R461). Fields that R49 does not list, their access and defaults, are those of the base specification (PRESUMED,
notes/assumptions/7). -/

namespace Sys2Proof.Machine

/-! ### Which bits are written -/

/-- The bits of BAR 2's 64-bit register that its size leaves writable: 2^n MiB for size encoding n (R54). -/
def barMask (enc : Nat) : Nat := 2 ^ 64 - 2 ^ (20 + enc)

/-- The size encoding in the Resizable BAR structure. -/
def Dev.barEnc (s : Dev) : Nat := (s.cfg 0 0x6C).fld 8 6

/-- Writable bits of the PF's dword `d`. -/
def Dev.cfgRw (s : Dev) (d : Nat) : Word :=
  if d = 1 then 0x0546
  else if d = 4 then 0xF8000000
  else if d = 6 then Word.ofNat (barMask s.barEnc)
  else if d = 7 then Word.ofNat (barMask s.barEnc / 2 ^ 32)
  else if d = 8 then 0xFFF00000
  else if d = 0x61 then 0xFFFC0000
  else if d = 0x65 then 0xFFFF0000
  else if d = 5 ∨ d = 9 ∨ d = 0x62 ∨ d = 0x64 ∨ d = 0x66 then 0xFFFFFFFF
  else if d = 0x11 then 0x0100
  else if d = 0x14 then 0xC0000000
  else if d = 0x1A then 0x79FF
  else if d = 0x1C then 0x03CB
  else if d = 0x22 then 0x140F
  else if d = 0x24 then 0xFFBF
  else if d = 0x42 ∨ d = 0x43 then 0x005FD010
  else if d = 0x45 then 0xB1C1
  else if d = 0x46 then 0x0140
  else if d = 0x5A then 0x0038
  else if d = 0x5C then (if s.vfEn then 0 else 0xFFFF)
  else if d = 0x60 then 0x0011
  else if d = 0x6F then 0x1FFF1FFF
  else if d = 0x72 then 0xE3FF000F
  else if d = 0x73 then 0x00FB
  else if d = 0x76 then 0xFF01
  else if 0xA6 ≤ d ∧ d < 0xAE then 0xFFFF
  else 0

/-- Bits of the PF's dword `d` that writing 1 clears. -/
def cfgW1c (d : Nat) : Word :=
  if d = 1 then 0xF9000000
  else if d = 0x11 then 0x8000
  else if d = 0x1A then 0x000F0000
  else if d = 0x41 then 0x005FD010
  else if d = 0x44 then 0xB1C1
  else if d = 0x7A then 0xFF
  else 0

/-- Writable bits of a VF's dword `d` (R51). -/
def vfRw (d : Nat) : Word :=
  if d = 1 then 0x0004
  else if d = 0x12 then 0x7000
  else if d = 0x20 then 0xC0000000
  else 0

/-- Bits of a VF's dword `d` that writing 1 clears. -/
def vfW1c (d : Nat) : Word :=
  if d = 1 then 0xF9000000
  else if d = 0x12 then 0x000F0000
  else if d = 0x41 then 0x005FD010
  else if d = 0x44 then 0xB1C1
  else 0

/-- The bits of the bytes that byte enables select. -/
def beMask (be : Nat) : Word := Word.ofNat ((List.range 4).map fun i => if bitN be i then 255 * 256 ^ i else 0).sum

/-! ### Reads -/

/-- Transactions Pending of a function: reads of it are outstanding, or a VF's FLR has not ended (R73). -/
def Dev.txPending (s : Dev) (fn : Nat) : Bool :=
  s.hif.reads.any (·.fn == fn) || s.hif.tagQ.any (·.fn == fn) || (fn != 0 && s.inFlr fn)

/-- Configuration dword `d` of function `fn` as read: the device serial number, the link's speed and width and Transactions Pending
are what the unit shows (R49, R73). -/
def Dev.cfgRead (s : Dev) (fn d : Nat) : Word :=
  let v := s.cfg fn d
  if fn = 0 ∧ d = 0x55 then Word.ofNat s.sec.serial
  else if fn = 0 ∧ d = 0x56 then Word.ofNat (s.sec.serial / 2 ^ 32)
  else if fn = 0 ∧ d = 0x1C then (v.setFld 16 4 (s.rf R.hifLinkStat 0 4)).setFld 20 6 (s.rf R.hifLinkStat 4 6)
  else if d = (if fn = 0 then 0x1A else 0x12) then v.setBit 21 (s.txPending fn)
  else v

/-! ### Writes -/

/-- Messages that waited for a function's mask go out (R56). -/
def Dev.msixRelease (s : Dev) (fn : Nat) : Dev :=
  let l := s.hif.pba.filter (·.1 == fn)
  l.foldl (fun (s : Dev) x =>
    ({ s with hif := { s.hif with pba := s.hif.pba.filter (· != x) } } : Dev).msixOut x.1 x.2) s

/-- Whether a write that sets VF Enable is refused (R50). -/
def Dev.vfRefused (s : Dev) : Bool :=
  s.numVfs == 0 || decide (15 < s.numVfs) || (decide (7 < s.numVfs) && !(s.cfg 0 0x5A).bit 4)

/-- VF Enable is written: refused under R50, it reads 0; cleared, the VFs are gone with their configuration space. -/
def Dev.vfEnableWrite (s : Dev) (on : Bool) : Dev :=
  if on = s.vfEn then s
  else if on then (if s.vfRefused then s else s.setCfg 0 0x5A ((s.cfg 0 0x5A).setBit 0 true))
  else
    let hif := { s.hif with
      cfg := s.hif.cfg.filter fun x => decide (x.1 < 1024)
      msixTab := s.hif.msixTab.filter fun x => decide (x.1 < 1024)
      pba := s.hif.pba.filter (·.1 == 0)
      ahead := s.hif.ahead.map fun r => { r with lines := r.lines.filter (·.fn == 0) } }
    let s : Dev := { s with hif }
    s.setCfg 0 0x5A ((s.cfg 0 0x5A).setBit 0 false)

/-- The BAR Size field is written: ignored while Memory Space Enable is 1, and for a size that is not supported; BAR 2 keeps the
address bits that the new size leaves it (R54). -/
def Dev.barSizeWrite (s : Dev) (enc : Nat) : Dev :=
  if s.mse 0 || decide (enc < 10) || decide (17 < enc) then s
  else
    let s := s.setCfg 0 0x6C ((s.cfg 0 0x6C).setFld 8 6 enc)
    let keep := Word.ofNat (barMask enc)
    (s.setCfg 0 6 ((s.cfg 0 6 &&& keep) ||| 0xC)).setCfg 0 7 (s.cfg 0 7 &&& Word.ofNat (barMask enc / 2 ^ 32))

/-- What a write of the PF's dword `d` sets going. `x`: the value written, its disabled bytes 0. -/
def Dev.cfgAct (s : Dev) (d : Nat) (x : Word) (be : Nat) : Dev :=
  if d = 1 then s.hifRelease 0
  else if d = 0x11 then
    if !bitN be 0 then s else if x.fld 0 2 = 3 then s.d3Enter else if x.fld 0 2 = 0 then s.d3Exit else s
  else if d = 0x14 then s.msixRelease 0
  else if d = 0x1A then (if x.bit 15 then s.pfFlr else s.tagStat)
  else if d = 0x22 then ((s.setReg R.hifCplToUs (Word.ofNat (cplTimeout ((s.cfg 0 0x22).fld 0 4)))).tagStat).ltrUpdate
  else if d = 0x5A then (if bitN be 0 then s.vfEnableWrite (x.bit 0) else s)
  else if d = 0x6C then (if bitN be 1 then s.barSizeWrite (x.fld 8 6) else s)
  else s

/-- A dword with a write's bits. -/
def cfgMerge (old v rw w1c mask : Word) : Word :=
  ((old &&& ~~~(rw &&& mask)) ||| (v &&& rw &&& mask)) &&& ~~~(v &&& w1c &&& mask)

/-- A configuration write of the PF. -/
def Dev.pfCfgWrite (s : Dev) (d : Nat) (v : Word) (be : Nat) : Dev :=
  (s.setCfg 0 d (cfgMerge (s.cfg 0 d) v (s.cfgRw d) (cfgW1c d) (beMask be))).cfgAct d (v &&& beMask be) be

/-- A configuration write of VF `n` (R51, R73). -/
def Dev.vfCfgWrite (s : Dev) (n d : Nat) (v : Word) (be : Nat) : Dev :=
  let s := s.setCfg n d (cfgMerge (s.cfg n d) v (vfRw d) (vfW1c d) (beMask be))
  if d = 1 then s.hifRelease n
  else if d = 0x20 then s.msixRelease n
  else if d = 0x12 ∧ (v &&& beMask be).bit 15 = true then s.vfFlr n
  else s

/-! ### Rows -/

/-- A configuration request of the PF (`fn` 0) or a VF; a function that is not there gives UR; before readiness and during PF FLR the
PF gives RRS (R71, R72). -/
def Dev.configRequest (s : Dev) (fn d : Nat) (wr : Option (Word × Nat)) : Dev :=
  if !s.isMgr || s.boot.perst || !s.boot.powered then s
  else if fn = 0 ∧ (s.hif.rrs = true ∨ s.inFlr 0 = true) then s.emit (.cfgRrs 0)
  else if fn ≠ 0 ∧ s.vfOn fn = false then s.emit (.cplUr fn)
  else match wr with
    | none => s.emit (.cfgCpl fn (s.cfgRead fn d))
    | some (v, be) => ((if fn = 0 then s.pfCfgWrite d v be else s.vfCfgWrite fn d v be)).emit (.cfgCpl fn 0)

/-- CONFIG_REQUEST (R71). -/
def execConfigRequest (fn dw : Nat) (wr : Option (Word × Nat)) (s : State) : Host.Outcome State Fault Refusal :=
  .next { s with toDev := s.toDev.configRequest fn (dw % 1024) wr }

/-- A write of one field by its row: taken when the PF takes configuration requests. -/
def Dev.cfgField (s : Dev) (f : Dev → Dev) : Dev :=
  if !s.isMgr || s.boot.perst || !s.boot.powered then s
  else if s.hif.rrs || s.inFlr 0 then s.emit (.cfgRrs 0)
  else f s

/-- VF_ENABLE (R50). -/
def execVfEnable (on : Bool) (s : State) : Host.Outcome State Fault Refusal :=
  .next { s with toDev := s.toDev.cfgField fun d => d.vfEnableWrite on }

/-- BAR_SIZE (R54). -/
def execBarSize (enc : Nat) (s : State) : Host.Outcome State Fault Refusal :=
  .next { s with toDev := s.toDev.cfgField fun d => d.barSizeWrite enc }

/-- Bus Master Enable of function `fn` is set: what it waited with is issued in order (R461). -/
def Dev.busMaster (s : Dev) (fn : Nat) : Dev :=
  if fn ≠ 0 ∧ s.vfOn fn = false then s else (s.setCfg fn 1 ((s.cfg fn 1).setBit 2 true)).hifRelease fn

/-- BUS_MASTER_ENABLE (R461). -/
def execBusMasterEnable (fn : Nat) (s : State) : Host.Outcome State Fault Refusal :=
  .next { s with toDev := s.toDev.cfgField fun d => d.busMaster fn }

/-- HIF_LINK_CTL_RETRAIN (R46). -/
def execHifLinkCtlRetrain (v : Word) (s : State) : Host.Outcome State Fault Refusal :=
  .next { s with toDev := s.toDev.pfWrite R.hifLinkCtl (v.setBit 10 true) }

/-- The widths that a link may have. -/
def linkWidth (w : Nat) : Nat := if 8 ≤ w then 8 else if 4 ≤ w then 4 else if 2 ≤ w then 2 else 1

/-- The host link has trained at speed code `speed` and width `width`, under the caps of HIF_LINK_CTL; a PM_PME that waited for it is
sent (R46, R70). -/
def Dev.pcieUp (s : Dev) (speed width : Nat) : Dev :=
  if !s.isMgr || s.boot.perst || !s.boot.powered then s
  else
    let was := s.rf R.hifLinkStat 0 10
    let sp := min (max 1 speed) (s.rf R.hifLinkCtl 0 4)
    let w := min (linkWidth width) (s.rf R.hifLinkCtl 4 6)
    let s := ((s.setRf R.hifLinkStat 0 4 sp).setRf R.hifLinkStat 4 6 w).setRf R.hifLinkStat 10 3 1
    let s := if s.rf R.hifLinkStat 0 10 = was then s else s.irq 0x6000 1
    if s.boot.pmePend then
      ((({ s with boot := { s.boot with pmePend := false } } : Dev).setCfg 0 0x11 ((s.cfg 0 0x11).setBit 15 true)).setRb R.hifPmStat 2
        false).emit (.pcie .pme)
    else s

/-- PCIE_LINK_UP (R46). -/
def execPcieLinkUp (speed width : Nat) (s : State) : Host.Outcome State Fault Refusal :=
  .next { s with toDev := s.toDev.pcieUp speed width }

end Sys2Proof.Machine
end

