-- ==== Sys2Proof/Machine/Dispatch.lean ====
section
/-! DEFINITION. The meaning of every command of the block: one arm per constructor, a direct call of the command's own meaning. -/

namespace Sys2Proof.Machine

def exec (i : Instr) (s : State) : Host.Outcome State Fault Refusal :=
  match i with
  | .powerOn => Sys2Proof.Machine.execPowerOn s
  | .strapSample straps => Sys2Proof.Machine.execStrapSample straps s
  | .perstNAssert => Sys2Proof.Machine.execPerstNAssert s
  | .perstNRelease => Sys2Proof.Machine.execPerstNRelease s
  | .hotReset => Sys2Proof.Machine.execHotReset s
  | .pcieLinkDown => Sys2Proof.Machine.execPcieLinkDown s
  | .mainRailLoss => Sys2Proof.Machine.execMainRailLoss s
  | .imageVerified img => Sys2Proof.Machine.execImageVerified img s
  | .slotRunningTimeout => Sys2Proof.Machine.execSlotRunningTimeout s
  | .memcTrainingDone ch rate cap ranks ok => Sys2Proof.Machine.execMemcTrainingDone ch rate cap ranks ok s
  | .zeroDone => Sys2Proof.Machine.execZeroDone s
  | .configRequest fn dw wr => Sys2Proof.Machine.execConfigRequest fn dw wr s
  | .vfEnable on => Sys2Proof.Machine.execVfEnable on s
  | .barSize enc => Sys2Proof.Machine.execBarSize enc s
  | .busMasterEnable fn => Sys2Proof.Machine.execBusMasterEnable fn s
  | .pfFlr => Sys2Proof.Machine.execPfFlr s
  | .vfFlr n => Sys2Proof.Machine.execVfFlr n s
  | .vfResetDone n => Sys2Proof.Machine.execVfResetDone n s
  | .d3hot => Sys2Proof.Machine.execD3hot s
  | .pmcsrD0 => Sys2Proof.Machine.execPmcsrD0 s
  | .hifLinkCtlRetrain v => Sys2Proof.Machine.execHifLinkCtlRetrain v s
  | .bar2Write req fn off data poisoned ecrcBad => Sys2Proof.Machine.execBar2Write req fn off data poisoned ecrcBad s
  | .bar2Read req fn off len ecrcBad => Sys2Proof.Machine.execBar2Read req fn off len ecrcBad s
  | .acquireRead req fn bar off len ecrcBad => Sys2Proof.Machine.execAcquireRead req fn bar off len ecrcBad s
  | .readaheadLineExpiry req fn line => Sys2Proof.Machine.execReadaheadLineExpiry req fn line s
  | .completionReceived tag data last poisoned ecrcBad => Sys2Proof.Machine.execCompletionReceived tag data last poisoned ecrcBad s
  | .readTimeout tag => Sys2Proof.Machine.execReadTimeout tag s
  | .tagQuarantineEnd tag => Sys2Proof.Machine.execTagQuarantineEnd tag s
  | .ptmRequest => Sys2Proof.Machine.execPtmRequest s
  | .aspmL1Entry => Sys2Proof.Machine.execAspmL1Entry s
  | .gpioWakeEdge pin rising => Sys2Proof.Machine.execGpioWakeEdge pin rising s
  | .wakeTimerExpiry => Sys2Proof.Machine.execWakeTimerExpiry s
  | .registerWrite src bar off ws poisoned ecrcBad => Sys2Proof.Machine.execRegisterWrite src bar off ws poisoned ecrcBad s
  | .blkIrqStatWrite page v => Sys2Proof.Machine.execBlkIrqStatWrite page v s
  | .blkIrqEnWrite page v => Sys2Proof.Machine.execBlkIrqEnWrite page v s
  | .blkIrqSet page v => Sys2Proof.Machine.execBlkIrqSet page v s
  | .blkErrCaptValid page v => Sys2Proof.Machine.execBlkErrCaptValid page v s
  | .srst page v => Sys2Proof.Machine.execSrst page v s
  | .srstDone page => Sys2Proof.Machine.execSrstDone page s
  | .quiesceReq page v => Sys2Proof.Machine.execQuiesceReq page v s
  | .quiesced page => Sys2Proof.Machine.execQuiesced page s
  | .perfFreeze page v => Sys2Proof.Machine.execPerfFreeze page v s
  | .nocPortIsoSet v => Sys2Proof.Machine.execNocPortIsoSet v s
  | .nocPortIsoClr v => Sys2Proof.Machine.execNocPortIsoClr v s
  | .clkIslFreq isl v => Sys2Proof.Machine.execClkIslFreq isl v s
  | .islandRelock isl => Sys2Proof.Machine.execIslandRelock isl s
  | .pwrIslCtl isl v => Sys2Proof.Machine.execPwrIslCtl isl v s
  | .remoteRead src unit off => Sys2Proof.Machine.execRemoteRead src unit off s
  | .remoteWrite src unit off v be => Sys2Proof.Machine.execRemoteWrite src unit off v be s
  | .remoteReadTimeout txid => Sys2Proof.Machine.execRemoteReadTimeout txid s
  | .bpmReturn => Sys2Proof.Machine.execBpmReturn s
  | .schedResetEnd => Sys2Proof.Machine.execSchedResetEnd s
  | .stagedEventWrite plane => Sys2Proof.Machine.execStagedEventWrite plane s
  | .ctxOpen src c v => Sys2Proof.Machine.execCtxOpen src c v s
  | .ctxReset src c v => Sys2Proof.Machine.execCtxReset src c v s
  | .ctxResetDone c => Sys2Proof.Machine.execCtxResetDone c s
  | .devEvents src c v => Sys2Proof.Machine.execDevEvents src c v s
  | .dbSqTail src c v be => Sys2Proof.Machine.execDbSqTail src c v be s
  | .dbCqHead src c v be => Sys2Proof.Machine.execDbCqHead src c v be s
  | .dbEqHead src c v be => Sys2Proof.Machine.execDbEqHead src c v be s
  | .dbMqHead src c v be => Sys2Proof.Machine.execDbMqHead src c v be s
  | .ctxInDb src c v be => Sys2Proof.Machine.execCtxInDb src c v be s
  | .hostNop c => Sys2Proof.Machine.execHostNop c s
  | .modelLoad c => Sys2Proof.Machine.execModelLoad c s
  | .modelUnload c => Sys2Proof.Machine.execModelUnload c s
  | .graphLaunch c => Sys2Proof.Machine.execGraphLaunch c s
  | .graphStop c => Sys2Proof.Machine.execGraphStop c s
  | .streamAttach c => Sys2Proof.Machine.execStreamAttach c s
  | .streamDetach c => Sys2Proof.Machine.execStreamDetach c s
  | .solve c => Sys2Proof.Machine.execSolve c s
  | .clipRequest c => Sys2Proof.Machine.execClipRequest c s
  | .ttArm c => Sys2Proof.Machine.execTtArm c s
  | .ttDisarm c => Sys2Proof.Machine.execTtDisarm c s
  | .bufAlloc c => Sys2Proof.Machine.execBufAlloc c s
  | .bufRef c => Sys2Proof.Machine.execBufRef c s
  | .bufUnref c => Sys2Proof.Machine.execBufUnref c s
  | .poolConfig c => Sys2Proof.Machine.execPoolConfig c s
  | .commandComplete c => Sys2Proof.Machine.execCommandComplete c s
  | .teardownDone c => Sys2Proof.Machine.execTeardownDone c s
  | .metadataRecord c => Sys2Proof.Machine.execMetadataRecord c s
  | .moderationTimeout c ring => Sys2Proof.Machine.execModerationTimeout c ring s
  | .ctxPfCtl src c v => Sys2Proof.Machine.execCtxPfCtl src c v s
  | .poolEnable p v => Sys2Proof.Machine.execPoolEnable p v s
  | .bpmRqQuota v => Sys2Proof.Machine.execBpmRqQuota v s
  | .bpmRqReserve v => Sys2Proof.Machine.execBpmRqReserve v s
  | .bpmOwnAddrHi v => Sys2Proof.Machine.execBpmOwnAddrHi v s
  | .alloc rq ctx pool blocking tag via => Sys2Proof.Machine.execAlloc rq ctx pool blocking tag via s
  | .inc rq ctx h tag via => Sys2Proof.Machine.execInc rq ctx h tag via s
  | .dec rq ctx h tag via => Sys2Proof.Machine.execDec rq ctx h tag via s
  | .bpmWaitTimeout id => Sys2Proof.Machine.execBpmWaitTimeout id s
  | .scrubRead => Sys2Proof.Machine.execScrubRead s
  | .rasRetirePage src v => Sys2Proof.Machine.execRasRetirePage src v s
  | .rasInjCtl v => Sys2Proof.Machine.execRasInjCtl v s
  | .idle p f => Sys2Proof.Machine.execIdle p f s
  | .frameCrcFailure p tagBad => Sys2Proof.Machine.execFrameCrcFailure p tagBad s
  | .replayTimeout p => Sys2Proof.Machine.execReplayTimeout p s
  | .laneLockLoss p => Sys2Proof.Machine.execLaneLockLoss p s
  | .chainReset => Sys2Proof.Machine.execChainReset s
  | .pfFlrDone => Sys2Proof.Machine.execPfFlrDone s
  | .unitSrst => Sys2Proof.Machine.execUnitSrst s
  | .chainRst => Sys2Proof.Machine.execChainRst s
  | .standbyPowerLoss => Sys2Proof.Machine.execStandbyPowerLoss s
  | .ingressEntry stream onePic start => Sys2Proof.Machine.execIngressEntry stream onePic start s
  | .pictureDecodeStart engine au => Sys2Proof.Machine.execPictureDecodeStart engine au s
  | .pictureDecodeDone engine pic => Sys2Proof.Machine.execPictureDecodeDone engine pic s
  | .send core halo => Sys2Proof.Machine.execSend core halo s
  | .recv core => Sys2Proof.Machine.execRecv core s
  | .signal core => Sys2Proof.Machine.execSignal core s
  | .wait core => Sys2Proof.Machine.execWait core s
  | .barrier core => Sys2Proof.Machine.execBarrier core s
  | .loop core => Sys2Proof.Machine.execLoop core s
  | .branch core => Sys2Proof.Machine.execBranch core s
  | .timewait core => Sys2Proof.Machine.execTimewait core s
  | .timewaitReached core => Sys2Proof.Machine.execTimewaitReached core s
  | .seqWaitTimeout core => Sys2Proof.Machine.execSeqWaitTimeout core s
  | .move core => Sys2Proof.Machine.execMove core s
  | .wstream core => Sys2Proof.Machine.execWstream core s
  | .wsuMcastTimeout group => Sys2Proof.Machine.execWsuMcastTimeout group s
  | .matmul core sub par => Sys2Proof.Machine.execMatmul core sub par s
  | .conv core sub par => Sys2Proof.Machine.execConv core sub par s
  | .dwconv core => Sys2Proof.Machine.execDwconv core s
  | .vec core => Sys2Proof.Machine.execVec core s
  | .epilogueTile core => Sys2Proof.Machine.execEpilogueTile core s
  | .vnop core => Sys2Proof.Machine.execVnop core s
  | .vadd core => Sys2Proof.Machine.execVadd core s
  | .vsub core => Sys2Proof.Machine.execVsub core s
  | .vmul core => Sys2Proof.Machine.execVmul core s
  | .vfma core => Sys2Proof.Machine.execVfma core s
  | .vmin core => Sys2Proof.Machine.execVmin core s
  | .vmax core => Sys2Proof.Machine.execVmax core s
  | .vabs core => Sys2Proof.Machine.execVabs core s
  | .vneg core => Sys2Proof.Machine.execVneg core s
  | .vdiv core => Sys2Proof.Machine.execVdiv core s
  | .vsqrt core => Sys2Proof.Machine.execVsqrt core s
  | .vmulq core => Sys2Proof.Machine.execVmulq core s
  | .vand core => Sys2Proof.Machine.execVand core s
  | .vor core => Sys2Proof.Machine.execVor core s
  | .vxor core => Sys2Proof.Machine.execVxor core s
  | .vshl core => Sys2Proof.Machine.execVshl core s
  | .vshr core => Sys2Proof.Machine.execVshr core s
  | .vcvt core => Sys2Proof.Machine.execVcvt core s
  | .vcmp core => Sys2Proof.Machine.execVcmp core s
  | .pand core => Sys2Proof.Machine.execPand core s
  | .por core => Sys2Proof.Machine.execPor core s
  | .pnot core => Sys2Proof.Machine.execPnot core s
  | .pfirst core => Sys2Proof.Machine.execPfirst core s
  | .vsel core => Sys2Proof.Machine.execVsel core s
  | .vperm core => Sys2Proof.Machine.execVperm core s
  | .vbcast core => Sys2Proof.Machine.execVbcast core s
  | .viota core => Sys2Proof.Machine.execViota core s
  | .vext core => Sys2Proof.Machine.execVext core s
  | .vins core => Sys2Proof.Machine.execVins core s
  | .vred core => Sys2Proof.Machine.execVred core s
  | .vact core => Sys2Proof.Machine.execVact core s
  | .vlut core => Sys2Proof.Machine.execVlut core s
  | .vld core => Sys2Proof.Machine.execVld core s
  | .vst core => Sys2Proof.Machine.execVst core s
  | .sld core => Sys2Proof.Machine.execSld core s
  | .sst core => Sys2Proof.Machine.execSst core s
  | .vtin core => Sys2Proof.Machine.execVtin core s
  | .vsend core => Sys2Proof.Machine.execVsend core s
  | .sadd core => Sys2Proof.Machine.execSadd core s
  | .ssub core => Sys2Proof.Machine.execSsub core s
  | .smul core => Sys2Proof.Machine.execSmul core s
  | .sli core => Sys2Proof.Machine.execSli core s
  | .sand core => Sys2Proof.Machine.execSand core s
  | .sor core => Sys2Proof.Machine.execSor core s
  | .sshl core => Sys2Proof.Machine.execSshl core s
  | .sshr core => Sys2Proof.Machine.execSshr core s
  | .jmp core => Sys2Proof.Machine.execJmp core s
  | .bz core => Sys2Proof.Machine.execBz core s
  | .bnz core => Sys2Proof.Machine.execBnz core s
  | .vend core => Sys2Proof.Machine.execVend core s
  | .jobPushHi q src v => Sys2Proof.Machine.execJobPushHi q src v s
  | .dppJobPushHi src v => Sys2Proof.Machine.execDppJobPushHi src v s
  | .slvJobPushHi src v => Sys2Proof.Machine.execSlvJobPushHi src v s
  | .end_ core => Sys2Proof.Machine.execEnd_ core s
  | .ccmdComplete core id => Sys2Proof.Machine.execCcmdComplete core id s
  | .creditTimeout core sub => Sys2Proof.Machine.execCreditTimeout core sub s
  | .mxuPreemptTimeout core => Sys2Proof.Machine.execMxuPreemptTimeout core s
  | .preempt core => Sys2Proof.Machine.execPreempt core s
  | .resume core => Sys2Proof.Machine.execResume core s
  | .stepStart r => Sys2Proof.Machine.execStepStart r s
  | .seatRelease r q => Sys2Proof.Machine.execSeatRelease r q s
  | .stepEnd r => Sys2Proof.Machine.execStepEnd r s
  | .schedCoreOff src v => Sys2Proof.Machine.execSchedCoreOff src v s
  | .jpegJobStart => Sys2Proof.Machine.execJpegJobStart s
  | .jpegJobDone blocks => Sys2Proof.Machine.execJpegJobDone blocks s
  | .ppuJobStart n => Sys2Proof.Machine.execPpuJobStart n s
  | .ppuJobDone n => Sys2Proof.Machine.execPpuJobDone n s
  | .decodeNms => Sys2Proof.Machine.execDecodeNms s
  | .emit => Sys2Proof.Machine.execEmit s
  | .dppJobDone => Sys2Proof.Machine.execDppJobDone s
  | .heartbeat c => Sys2Proof.Machine.execHeartbeat c s
  | .factor => Sys2Proof.Machine.execFactor s
  | .assemble => Sys2Proof.Machine.execAssemble s
  | .triangulate => Sys2Proof.Machine.execTriangulate s
  | .trackUpdate => Sys2Proof.Machine.execTrackUpdate s
  | .bundle => Sys2Proof.Machine.execBundle s
  | .bundleSubop => Sys2Proof.Machine.execBundleSubop s
  | .slvJobDone => Sys2Proof.Machine.execSlvJobDone s
  | .clipStart => Sys2Proof.Machine.execClipStart s
  | .clipWaitExpiry id => Sys2Proof.Machine.execClipWaitExpiry id s
  | .encodePicture bytes qp => Sys2Proof.Machine.execEncodePicture bytes qp s
  | .clipClose => Sys2Proof.Machine.execClipClose s
  | .submit e => Sys2Proof.Machine.execSubmit e s
  | .close e => Sys2Proof.Machine.execClose e s
  | .ppu e => Sys2Proof.Machine.execPpu e s
  | .clip e => Sys2Proof.Machine.execClip e s
  | .sync e => Sys2Proof.Machine.execSync e s
  | .syncPulseEnd => Sys2Proof.Machine.execSyncPulseEnd s
  | .lateRetry e => Sys2Proof.Machine.execLateRetry e s
  | .syncIn => Sys2Proof.Machine.execSyncIn s
  | .timeStepHi src v => Sys2Proof.Machine.execTimeStepHi src v s
  | .timeFrameSend => Sys2Proof.Machine.execTimeFrameSend s
  | .time p origin corr delay => Sys2Proof.Machine.execTime p origin corr delay s
  | .timeFrameLoss => Sys2Proof.Machine.execTimeFrameLoss s
  | .ptmResponse master => Sys2Proof.Machine.execPtmResponse master s
  | .heldReportRelease e => Sys2Proof.Machine.execHeldReportRelease e s
  | .governorEval mw => Sys2Proof.Machine.execGovernorEval mw s
  | .thermalSample readings => Sys2Proof.Machine.execThermalSample readings s
  | .pwrProfile v => Sys2Proof.Machine.execPwrProfile v s
  | .fumarole v => Sys2Proof.Machine.execFumarole v s
  | .fumaroleExit req => Sys2Proof.Machine.execFumaroleExit req s
  | .unitLost u reason => Sys2Proof.Machine.execUnitLost u reason s
  | .keepaliveTimeout u => Sys2Proof.Machine.execKeepaliveTimeout u s
  | .wakeReportTimeout u => Sys2Proof.Machine.execWakeReportTimeout u s
  | .quarantineTimeout u => Sys2Proof.Machine.execQuarantineTimeout u s
  | .epochSwitch => Sys2Proof.Machine.execEpochSwitch s
  | .offlineReq slot v => Sys2Proof.Machine.execOfflineReq slot v s
  | .chainAdmit v => Sys2Proof.Machine.execChainAdmit v s
  | .chainResSerHi v => Sys2Proof.Machine.execChainResSerHi v s
  | .i2cPoll polls => Sys2Proof.Machine.execI2cPoll polls s
  | .glkLinkUp p r => Sys2Proof.Machine.execGlkLinkUp p r s
  | .glkCtlRetrain p v => Sys2Proof.Machine.execGlkCtlRetrain p v s
  | .lossHoldExpiry u p => Sys2Proof.Machine.execLossHoldExpiry u p s
  | .keepaliveTick => Sys2Proof.Machine.execKeepaliveTick s
  | .linkKeyRollover u p => Sys2Proof.Machine.execLinkKeyRollover u p s
  | .watchdogExpiry => Sys2Proof.Machine.execWatchdogExpiry s
  | .secLcReqProvisioned auth owner dbgMax ev kek => Sys2Proof.Machine.execSecLcReqProvisioned auth owner dbgMax ev kek s
  | .secLcReqSealed auth => Sys2Proof.Machine.execSecLcReqSealed auth s
  | .secLcReqDecommissioned auth => Sys2Proof.Machine.execSecLcReqDecommissioned auth s
  | .secCommit v => Sys2Proof.Machine.execSecCommit v s
  | .dbgChal0 req => Sys2Proof.Machine.execDbgChal0 req s
  | .dbgUnlock tap tok sig => Sys2Proof.Machine.execDbgUnlock tap tok sig s
  | .debugUnlocked => Sys2Proof.Machine.execDebugUnlocked s
  | .dbgLock v => Sys2Proof.Machine.execDbgLock v s
  | .dbgMemoryRead req core a len => Sys2Proof.Machine.execDbgMemoryRead req core a len s
  | .getVersion => Sys2Proof.Machine.execGetVersion s
  | .getCapabilities => Sys2Proof.Machine.execGetCapabilities s
  | .negotiateAlgorithms => Sys2Proof.Machine.execNegotiateAlgorithms s
  | .getDigests => Sys2Proof.Machine.execGetDigests s
  | .getCertificate slot off len => Sys2Proof.Machine.execGetCertificate slot off len s
  | .challenge slot => Sys2Proof.Machine.execChallenge slot s
  | .getMeasurements index sign => Sys2Proof.Machine.execGetMeasurements index sign s
  | .mgmtUpdCtl v => Sys2Proof.Machine.execMgmtUpdCtl v s
  | .updDone img flashOk => Sys2Proof.Machine.execUpdDone img flashOk s
  | .status withPec => Sys2Proof.Machine.execStatus withPec s
  | .alert withPec => Sys2Proof.Machine.execAlert withPec s
  | .alertClear v p => Sys2Proof.Machine.execAlertClear v p s
  | .serial withPec => Sys2Proof.Machine.execSerial withPec s
  | .trip withPec => Sys2Proof.Machine.execTrip withPec s
  | .alertResponseAddress => Sys2Proof.Machine.execAlertResponseAddress s
  | .setEndpointId eid => Sys2Proof.Machine.execSetEndpointId eid s
  | .getEndpointId => Sys2Proof.Machine.execGetEndpointId s
  | .getMctpVersionSupport => Sys2Proof.Machine.execGetMctpVersionSupport s
  | .getMessageTypeSupport => Sys2Proof.Machine.execGetMessageTypeSupport s
  | .gettid => Sys2Proof.Machine.execGettid s
  | .getpldmversion => Sys2Proof.Machine.execGetpldmversion s
  | .getpldmtypes => Sys2Proof.Machine.execGetpldmtypes s
  | .getpldmcommands type => Sys2Proof.Machine.execGetpldmcommands type s
  | .getsensorreading id => Sys2Proof.Machine.execGetsensorreading id s
  | .getpdrrepositoryinfo => Sys2Proof.Machine.execGetpdrrepositoryinfo s
  | .getpdr h => Sys2Proof.Machine.execGetpdr h s
  | .seteventreceiver eid => Sys2Proof.Machine.execSeteventreceiver eid s
  | .timeNowLo req => Sys2Proof.Machine.execTimeNowLo req s
  | .ventLastAddrLo req => Sys2Proof.Machine.execVentLastAddrLo req s
  | .message core ch via => Sys2Proof.Machine.execMessage core ch via s
  | .credit core via => Sys2Proof.Machine.execCredit core via s
  | .signalFrame p f => Sys2Proof.Machine.execSignalFrame p f s
  | .write p f => Sys2Proof.Machine.execWrite p f s
  | .read p f => Sys2Proof.Machine.execRead p f s
  | .response p f => Sys2Proof.Machine.execResponse p f s
  | .record p f => Sys2Proof.Machine.execRecord p f s
  | .regRead p f => Sys2Proof.Machine.execRegRead p f s
  | .regWrite p f => Sys2Proof.Machine.execRegWrite p f s
  | .regResp p f => Sys2Proof.Machine.execRegResp p f s
  | .keepalive p f => Sys2Proof.Machine.execKeepalive p f s
  | .join p f => Sys2Proof.Machine.execJoin p f s
  | .firmware p f => Sys2Proof.Machine.execFirmware p f s
  | .sleep fr => Sys2Proof.Machine.execSleep fr s
  | .waybill p f => Sys2Proof.Machine.execWaybill p f s
  | .pcieLinkUp speed width => Sys2Proof.Machine.execPcieLinkUp speed width s

end Sys2Proof.Machine
end

