-- ==== Sys2Proof/Machine/Step.lean ====
section
/-! DEFINITION. One step of the block: the command at the front of the queue, or one edge of TCLK when none waits (R349;
notes/assumptions/1). -/

namespace Sys2Proof.Machine

/-- One step: the first waiting command acts on the unit with the rest of the queue; with no command waiting shop time counts. -/
def step (s : State) : Host.Outcome State Fault Refusal :=
  match s.pending with
  | [] => .next { s with toDev := s.toDev.tick }
  | c :: r => exec c { s with pending := r }

/-- The state with the command that a word spells at the front of the queue. -/
def State.withFetchWord (s : State) (nbits w : Nat) : State :=
  match decodeTableWord nbits w with
  | some c => { s with pending := c :: s.pending }
  | none => s

end Sys2Proof.Machine
end

