-- ==== Sys2Proof/WellFormed.lean ====
section
/-! DEFINITION. Well-formed commands: what each carries lies in the range the spec gives it. -/

namespace Sys2Proof

open Machine

/-- Who makes an access: a function 0 to 15 (R50). -/
def Machine.Src.wf : Src → Bool
  | .host n => decide (n < 16)
  | _ => true

/-- The fields of a frame fit the header of R368; only FIRMWARE frames have a firmware content. -/
def Machine.Frame.wf (f : Frame) : Bool :=
  decide (f.cls < 8) && decide (f.vc < 4) && decide (f.dst < 16) && decide (f.src < 16) && decide (f.hops < 16)
    && decide (f.seq < 4096) && decide (f.ack < 4096) && decide (f.epoch < 256) && decide (f.sub < 16)
    && decide (f.arg < 2 ^ 20) && decide (f.txid < 2 ^ 32) && decide (f.payload.length < 512)
    && (f.fw.isNone || (f.cls == 2 && f.sub == 5))

/-- What a peer reports in training fits its fields (R366, R367). -/
def Machine.PeerRep.wf (r : PeerRep) : Bool :=
  decide (r.serial < 2 ^ 64) && decide (r.addr < 16) && decide (r.mgrSerial < 2 ^ 64) && decide (r.slot < 16)
    && [1, 2, 4].contains r.lanes

/-- A command that comes from this unit, or in a frame of its own class and SUB on a port. -/
def viaWf (cls sub : Nat) : Option (Nat × Frame) → Bool
  | none => true
  | some (p, f) => decide (p < 2) && f.wf && rowFrame cls sub f

/-- The well-formed commands. -/
def Instr.wf : Instr → Bool
  | .powerOn => true
  | .strapSample _ => true
  | .perstNAssert => true
  | .perstNRelease => true
  | .hotReset => true
  | .pcieLinkDown => true
  | .mainRailLoss => true
  | .imageVerified _ => true
  | .slotRunningTimeout => true
  | .memcTrainingDone ch _ _ _ _ => decide (ch < 8)
  | .zeroDone => true
  | .configRequest fn dw wr => decide (fn < 16) && decide (dw < 1024) && wr.all (fun x => decide (x.2 < 16))
  | .vfEnable _ => true
  | .barSize enc => decide (enc < 64)
  | .busMasterEnable fn => decide (fn < 16)
  | .pfFlr => true
  | .vfFlr n => decide (n < 16)
  | .vfResetDone n => decide (n < 16)
  | .d3hot => true
  | .pmcsrD0 => true
  | .hifLinkCtlRetrain _ => true
  | .bar2Write _ fn _ _ _ _ => decide (fn < 16)
  | .bar2Read _ fn _ len _ => decide (fn < 16) && decide (len < 4097)
  | .acquireRead _ fn bar _ len _ => decide (fn < 16) && [0, 2, 4].contains bar && decide (len < 4097)
  | .readaheadLineExpiry _ fn _ => decide (fn < 16)
  | .completionReceived tag _ _ _ _ => decide (tag < 1024)
  | .readTimeout tag => decide (tag < 1024)
  | .tagQuarantineEnd tag => decide (tag < 1024)
  | .ptmRequest => true
  | .aspmL1Entry => true
  | .gpioWakeEdge pin _ => decide (pin < 4)
  | .wakeTimerExpiry => true
  | .registerWrite src bar off ws _ _ => src.wf && [0, 2, 4].contains bar && ws.all (fun x => decide (x.2 < 16)) && decide (off % 4 = 0)
  | .blkIrqStatWrite _ _ => true
  | .blkIrqEnWrite _ _ => true
  | .blkIrqSet _ _ => true
  | .blkErrCaptValid _ _ => true
  | .srst _ _ => true
  | .srstDone _ => true
  | .quiesceReq _ _ => true
  | .quiesced _ => true
  | .perfFreeze _ _ => true
  | .nocPortIsoSet _ => true
  | .nocPortIsoClr _ => true
  | .clkIslFreq isl _ => decide (isl < 26)
  | .islandRelock isl => decide (isl < 26)
  | .pwrIslCtl isl _ => decide (isl < 26)
  | .remoteRead src unit _ => src.wf && decide (unit < 16)
  | .remoteWrite src unit _ _ be => src.wf && decide (unit < 16) && decide (be < 16)
  | .remoteReadTimeout txid => decide (txid < 2 ^ 32)
  | .bpmReturn => true
  | .schedResetEnd => true
  | .stagedEventWrite plane => decide (plane < 4)
  | .ctxOpen src c _ => src.wf && decide (c < 256)
  | .ctxReset src c _ => src.wf && decide (c < 256)
  | .ctxResetDone c => decide (c < 256)
  | .devEvents src c _ => src.wf && decide (c < 256)
  | .dbSqTail src c _ be => src.wf && decide (c < 256) && decide (be < 16)
  | .dbCqHead src c _ be => src.wf && decide (c < 256) && decide (be < 16)
  | .dbEqHead src c _ be => src.wf && decide (c < 256) && decide (be < 16)
  | .dbMqHead src c _ be => src.wf && decide (c < 256) && decide (be < 16)
  | .ctxInDb src c _ be => src.wf && decide (c < 256) && decide (be < 16)
  | .hostNop c => decide (c < 256)
  | .modelLoad c => decide (c < 256)
  | .modelUnload c => decide (c < 256)
  | .graphLaunch c => decide (c < 256)
  | .graphStop c => decide (c < 256)
  | .streamAttach c => decide (c < 256)
  | .streamDetach c => decide (c < 256)
  | .solve c => decide (c < 256)
  | .clipRequest c => decide (c < 256)
  | .ttArm c => decide (c < 256)
  | .ttDisarm c => decide (c < 256)
  | .bufAlloc c => decide (c < 256)
  | .bufRef c => decide (c < 256)
  | .bufUnref c => decide (c < 256)
  | .poolConfig c => decide (c < 256)
  | .commandComplete c => decide (c < 256)
  | .teardownDone c => decide (c < 256)
  | .metadataRecord c => decide (c < 256)
  | .moderationTimeout c ring => decide (c < 256) && decide (1 ≤ ring ∧ ring ≤ 3)
  | .ctxPfCtl src c _ => src.wf && decide (c < 256)
  | .poolEnable p _ => decide (p < 16)
  | .bpmRqQuota _ => true
  | .bpmRqReserve _ => true
  | .bpmOwnAddrHi _ => true
  | .alloc rq ctx pool _ tag via => decide (rq < 96) && decide (ctx < 256) && decide (pool < 16) && decide (tag < 2 ^ 32) && viaWf 0 2 via
  | .inc rq ctx h tag via => decide (rq < 96) && decide (ctx < 256) && decide (h < 2 ^ 32) && decide (tag < 2 ^ 32) && viaWf 0 2 via
  | .dec rq ctx h tag via => decide (rq < 96) && decide (ctx < 256) && decide (h < 2 ^ 32) && decide (tag < 2 ^ 32) && viaWf 0 2 via
  | .bpmWaitTimeout _ => true
  | .scrubRead => true
  | .rasRetirePage src _ => src.wf
  | .rasInjCtl _ => true
  | .idle p f => decide (p < 2) && f.wf && rowFrame 4 0 f
  | .frameCrcFailure p _ => decide (p < 2)
  | .replayTimeout p => decide (p < 2)
  | .laneLockLoss p => decide (p < 2)
  | .chainReset => true
  | .pfFlrDone => true
  | .unitSrst => true
  | .chainRst => true
  | .standbyPowerLoss => true
  | .ingressEntry stream _ _ => decide (stream < 4096)
  | .pictureDecodeStart engine _ => decide (engine < 4)
  | .pictureDecodeDone engine _ => decide (engine < 4)
  | .send core _ => decide (core < 16)
  | .recv core => decide (core < 16)
  | .signal core => decide (core < 16)
  | .wait core => decide (core < 16)
  | .barrier core => decide (core < 16)
  | .loop core => decide (core < 16)
  | .branch core => decide (core < 16)
  | .timewait core => decide (core < 16)
  | .timewaitReached core => decide (core < 16)
  | .seqWaitTimeout core => decide (core < 16)
  | .move core => decide (core < 16)
  | .wstream core => decide (core < 16)
  | .wsuMcastTimeout group => decide (group < 16)
  | .matmul core _ _ => decide (core < 16)
  | .conv core _ _ => decide (core < 16)
  | .dwconv core => decide (core < 16)
  | .vec core => decide (core < 16)
  | .epilogueTile core => decide (core < 16)
  | .vnop core => decide (core < 16)
  | .vadd core => decide (core < 16)
  | .vsub core => decide (core < 16)
  | .vmul core => decide (core < 16)
  | .vfma core => decide (core < 16)
  | .vmin core => decide (core < 16)
  | .vmax core => decide (core < 16)
  | .vabs core => decide (core < 16)
  | .vneg core => decide (core < 16)
  | .vdiv core => decide (core < 16)
  | .vsqrt core => decide (core < 16)
  | .vmulq core => decide (core < 16)
  | .vand core => decide (core < 16)
  | .vor core => decide (core < 16)
  | .vxor core => decide (core < 16)
  | .vshl core => decide (core < 16)
  | .vshr core => decide (core < 16)
  | .vcvt core => decide (core < 16)
  | .vcmp core => decide (core < 16)
  | .pand core => decide (core < 16)
  | .por core => decide (core < 16)
  | .pnot core => decide (core < 16)
  | .pfirst core => decide (core < 16)
  | .vsel core => decide (core < 16)
  | .vperm core => decide (core < 16)
  | .vbcast core => decide (core < 16)
  | .viota core => decide (core < 16)
  | .vext core => decide (core < 16)
  | .vins core => decide (core < 16)
  | .vred core => decide (core < 16)
  | .vact core => decide (core < 16)
  | .vlut core => decide (core < 16)
  | .vld core => decide (core < 16)
  | .vst core => decide (core < 16)
  | .sld core => decide (core < 16)
  | .sst core => decide (core < 16)
  | .vtin core => decide (core < 16)
  | .vsend core => decide (core < 16)
  | .sadd core => decide (core < 16)
  | .ssub core => decide (core < 16)
  | .smul core => decide (core < 16)
  | .sli core => decide (core < 16)
  | .sand core => decide (core < 16)
  | .sor core => decide (core < 16)
  | .sshl core => decide (core < 16)
  | .sshr core => decide (core < 16)
  | .jmp core => decide (core < 16)
  | .bz core => decide (core < 16)
  | .bnz core => decide (core < 16)
  | .vend core => decide (core < 16)
  | .jobPushHi q src _ => decide (q < 6) && src.wf
  | .dppJobPushHi src _ => src.wf
  | .slvJobPushHi src _ => src.wf
  | .end_ core => decide (core < 16)
  | .ccmdComplete core _ => decide (core < 16)
  | .creditTimeout core _ => decide (core < 16)
  | .mxuPreemptTimeout core => decide (core < 16)
  | .preempt core => decide (core < 16)
  | .resume core => decide (core < 16)
  | .stepStart r => decide (r < 256)
  | .seatRelease r _ => decide (r < 256)
  | .stepEnd r => decide (r < 256)
  | .schedCoreOff src _ => src.wf
  | .jpegJobStart => true
  | .jpegJobDone _ => true
  | .ppuJobStart n => decide (n < 2)
  | .ppuJobDone n => decide (n < 2)
  | .decodeNms => true
  | .emit => true
  | .dppJobDone => true
  | .heartbeat c => decide (c < 256)
  | .factor => true
  | .assemble => true
  | .triangulate => true
  | .trackUpdate => true
  | .bundle => true
  | .bundleSubop => true
  | .slvJobDone => true
  | .clipStart => true
  | .clipWaitExpiry id => decide (id < 2 ^ 32)
  | .encodePicture _ _ => true
  | .clipClose => true
  | .submit e => decide (e < 256)
  | .close e => decide (e < 256)
  | .ppu e => decide (e < 256)
  | .clip e => decide (e < 256)
  | .sync e => decide (e < 256)
  | .syncPulseEnd => true
  | .lateRetry e => decide (e < 256)
  | .syncIn => true
  | .timeStepHi src _ => src.wf
  | .timeFrameSend => true
  | .time p _ _ _ => decide (p < 2)
  | .timeFrameLoss => true
  | .ptmResponse _ => true
  | .heldReportRelease e => decide (e < 256)
  | .governorEval _ => true
  | .thermalSample _ => true
  | .pwrProfile _ => true
  | .fumarole _ => true
  | .fumaroleExit _ => true
  | .unitLost u _ => decide (u < 16)
  | .keepaliveTimeout u => decide (u < 16)
  | .wakeReportTimeout u => decide (u < 16)
  | .quarantineTimeout u => decide (u < 16)
  | .epochSwitch => true
  | .offlineReq slot _ => decide (slot < 16)
  | .chainAdmit _ => true
  | .chainResSerHi _ => true
  | .i2cPoll _ => true
  | .glkLinkUp p r => decide (p < 2) && r.wf
  | .glkCtlRetrain p _ => decide (p < 2)
  | .lossHoldExpiry u p => decide (u < 16) && decide (p < 2)
  | .keepaliveTick => true
  | .linkKeyRollover u p => decide (u < 16) && decide (p < 2)
  | .watchdogExpiry => true
  | .secLcReqProvisioned _ _ _ _ _ => true
  | .secLcReqSealed _ => true
  | .secLcReqDecommissioned _ => true
  | .secCommit _ => true
  | .dbgChal0 _ => true
  | .dbgUnlock _ _ _ => true
  | .debugUnlocked => true
  | .dbgLock _ => true
  | .dbgMemoryRead _ _ _ _ => true
  | .getVersion => true
  | .getCapabilities => true
  | .negotiateAlgorithms => true
  | .getDigests => true
  | .getCertificate slot _ _ => decide (slot < 16)
  | .challenge slot => decide (slot < 16)
  | .getMeasurements _ _ => true
  | .mgmtUpdCtl _ => true
  | .updDone _ _ => true
  | .status _ => true
  | .alert _ => true
  | .alertClear _ _ => true
  | .serial _ => true
  | .trip _ => true
  | .alertResponseAddress => true
  | .setEndpointId eid => decide (eid < 256)
  | .getEndpointId => true
  | .getMctpVersionSupport => true
  | .getMessageTypeSupport => true
  | .gettid => true
  | .getpldmversion => true
  | .getpldmtypes => true
  | .getpldmcommands _ => true
  | .getsensorreading id => decide (id < 2 ^ 32)
  | .getpdrrepositoryinfo => true
  | .getpdr h => decide (h < 2 ^ 32)
  | .seteventreceiver eid => decide (eid < 256)
  | .timeNowLo _ => true
  | .ventLastAddrLo _ => true
  | .message core ch via => decide (core < 16) && decide (ch < 32) && viaWf 0 4 via
  | .credit core via => decide (core < 16) && viaWf 0 5 via
  | .signalFrame p f => decide (p < 2) && f.wf && rowFrame 0 6 f
  | .write p f => decide (p < 2) && f.wf && rowFrame 0 0 f
  | .read p f => decide (p < 2) && f.wf && rowFrame 0 1 f
  | .response p f => decide (p < 2) && f.wf && rowFrame 0 3 f
  | .record p f => decide (p < 2) && f.wf && rowFrame 0 7 f
  | .regRead p f => decide (p < 2) && f.wf && rowFrame 2 0 f
  | .regWrite p f => decide (p < 2) && f.wf && rowFrame 2 1 f
  | .regResp p f => decide (p < 2) && f.wf && rowFrame 2 2 f
  | .keepalive p f => decide (p < 2) && f.wf && rowFrame 2 3 f
  | .join p f => decide (p < 2) && f.wf && rowFrame 2 4 f
  | .firmware p f => decide (p < 2) && f.wf && rowFrame 2 5 f
  | .sleep fr => viaWf 2 5 fr
  | .waybill p f => decide (p < 2) && f.wf && rowFrame 3 0 f
  | .pcieLinkUp speed width => decide (speed < 6) && [1, 2, 4, 8].contains width

end Sys2Proof
end

