-- ==== Sys2Proof/Safety.lean ====
section
/-! DEFINITION. What statements about the block are made of: a command that answers, the canonical form of memory, a queue that is
well-formed, and the frame of a command: what it leaves as it was. -/

namespace Sys2Proof.Machine

/-- Command `c` answers a next state whose unit `P` holds of; the queue stays. -/
def Answers (c : Instr) (s : State) (P : Dev → Prop) : Prop := ∃ t : Dev, exec c s = .next { s with toDev := t } ∧ P t

/-- The canonical form of a memory: addresses strictly rising, no entry equal to what an unlisted address reads as. -/
def Memory.wf (m : Tab Byte) : Bool := Tab.wf (fun _ => 0) m

/-- Both memories of the unit, DRAM and the activation stores, are in canonical form. -/
def Dev.memWf (s : Dev) : Bool := Memory.wf s.dram && Memory.wf s.as

/-- Every waiting command is well-formed. -/
def State.queueWf (s : State) : Bool := s.pending.all Instr.wf

/-! ### Frames -/

/-- The registers in which a block reports what happened to it (R29-R33, R80, R81, R430): of every page BLK_IRQ_STAT, the error
capture and the performance counters; HIF_LINK_STAT (a request leaves ASPM L1), CHAIN_NOROUTE_CNT, TOP_ALERT_STAT; of a context its
ring counts and CTX_FULL_CNT. -/
def reportReg (o : Nat) : Bool :=
  o % 0x1000 == 0x18 || (decide (0x28 ≤ o % 0x1000) && decide (o % 0x1000 < 0x80)) ||
    o == R.hifLinkStat || o == R.chainNorouteCnt || o == R.topAlertStat ||
    (decide (0x400000 ≤ o) && (o % 0x4000 == 0x11C || o % 0x4000 == 0x12C || o % 0x4000 == 0x13C || o % 0x4000 == 0x14C ||
      o % 0x4000 == 0x15C))

/-- A context but for the records that no message has announced (R95). -/
def Ctx.still (x : Ctx) : Ctx := { x with un1 := 0, un2 := 0, un3 := 0 }

/-- The endpoint but for what waits to be sent and the last latency it reported. -/
def Hif.still (h : Hif) : Hif := { h with waitQ := [], pba := [], ltr := 0 }

/-- The parts of a unit that a frame names: a register, the registers of a page, all registers; a context, all contexts; and the
fields of `Dev`. -/
inductive Part where
  | reg (o : Nat)
  | page (p : Nat)
  | regs
  | ctx (c : Nat)
  | ctxs
  | draws
  | shop
  | bpm
  | dram
  | marks
  | ras
  | as
  | asMarks
  | boot
  | chain
  | sec
  | vent
  | pwr
  | mgmt
  | slots
  | tim
  | eng
  | hif
  | mctp
  deriving DecidableEq, Repr

/-- The frame of a command: `t` is `s` but for the parts listed in `m` and what reporting changes: the registers of `reportReg`, the
trace, events staged and lost, records announced, messages that wait to be sent, and frames on the ports. -/
structure Dev.Keeps (m : List Part) (s t : Dev) : Prop where
  regs : .regs ∉ m → ∀ o, .reg o ∉ m → .page (o / 0x1000 * 0x1000) ∉ m → reportReg o = false → t.reg o = s.reg o
  out : ∃ l, t.out = l ++ s.out
  ctxs : .ctxs ∉ m → ∀ c, .ctx c ∉ m → (t.ctx c).still = (s.ctx c).still
  hif : .hif ∉ m → t.hif.still = s.hif.still
  mctp : .mctp ∉ m → { t.mctp with alertHeld := false } = { s.mctp with alertHeld := false }
  draws : .draws ∉ m → t.draws = s.draws
  shop : .shop ∉ m → t.shop = s.shop
  bpm : .bpm ∉ m → t.bpm = s.bpm
  dram : .dram ∉ m → t.dram = s.dram
  marks : .marks ∉ m → t.marks = s.marks
  ras : .ras ∉ m → t.ras = s.ras
  as : .as ∉ m → t.as = s.as
  asMarks : .asMarks ∉ m → t.asMarks = s.asMarks
  boot : .boot ∉ m → t.boot = s.boot
  chain : .chain ∉ m → t.chain = s.chain
  sec : .sec ∉ m → t.sec = s.sec
  vent : .vent ∉ m → t.vent = s.vent
  pwr : .pwr ∉ m → t.pwr = s.pwr
  mgmt : .mgmt ∉ m → t.mgmt = s.mgmt
  slots : .slots ∉ m → t.slots = s.slots
  tim : .tim ∉ m → t.tim = s.tim
  eng : .eng ∉ m → t.eng = s.eng

/-- No byte of DRAM and of the activation stores changes. -/
def Dev.SameBytes (s t : Dev) : Prop := (∀ a, t.byte a = s.byte a) ∧ ∀ k o, t.asByte k o = s.asByte k o

/-- A unit whose contexts, slots, engines, activation stores, Vent and timetable are as after power-on. -/
def Dev.cleared (t : Dev) : Prop :=
  t.ctxs = [] ∧ t.slots = [] ∧ t.eng = {} ∧ t.as = [] ∧ t.asMarks = [] ∧ t.vent = {} ∧ t.tim = {}

/-- `t` is `s` after a reset of codes 2 to 7: cleared; the cause is the code, and the resets since power-on are one more, up to
0xFFFF; DRAM and shop time stay, and every buffer generation has advanced once (R118, R418). -/
def Dev.resetBy (code : Nat) (s t : Dev) : Prop :=
  t.cleared ∧ t.rf R.topRstCause 0 4 = code ∧ t.rf R.topRstCause 16 16 = min 0xFFFF (s.rf R.topRstCause 16 16 + 1) ∧
    t.dram = s.dram ∧ t.marks = s.marks ∧ t.shop = s.shop ∧ t.bpm.resets = s.bpm.resets + 1

/-- The registers that a reset of codes 2 to 7 writes itself: the cause, boot state and refusals in TOP_STAT, the unit's own address,
the failed training, the retirement count, the endpoint's link and reset states, the codec firmware's versions. -/
def resetWrites : List Nat :=
  [R.topRstCause, R.topStat, R.chainStat, R.rasStat, R.rasRetireCnt, R.hifLinkStat, R.hifFlrStat, R.vdecFwVer 0, R.vdecFwVer 1,
    R.vdecFwVer 2, R.vdecFwVer 3, R.vencFwVer]

/-- The register groups of R39 and R418 after a reset of the code: a register that the code keeps has its value, every other its
reset value. -/
def Dev.regsReset (code : Nat) (s t : Dev) : Prop :=
  ∀ o, o ∉ resetWrites → reportReg o = false →
    t.reg o = if keepReg code o s.boot.aonKept = true then s.reg o else regReset o

/-! ### When commands are taken -/

/-- The PF answers configuration requests (R71, R72). -/
def Dev.cfgUp (s : Dev) : Bool := s.isMgr && !s.boot.perst && s.boot.powered && !s.hif.rrs && !s.inFlr 0

/-- The PF driver's writes reach the registers (R69, R73). -/
def Dev.pfUp (s : Dev) : Bool := !s.inD3 && !s.rb R.hifFlrStat 0

/-- The registers of the page of an offset take writes: the page is there, its island on, its block not in soft reset; context pages
are the manager's (R34-R38). -/
def Dev.pageUp (s : Dev) (off : Nat) : Bool :=
  match pageAt off with
  | some p => s.islOn p.isl && !s.rb (hdrPage off + R.ctl) 1 && (decide (off < 0x400000) || s.isMgr)
  | none => false

/-- Nothing is sent but to be said again: `t` is `s` with `l` put on the links and pins. -/
def Dev.says (s : Dev) (l : List Out) (t : Dev) : Prop := t = { s with out := l ++ s.out }

/-! ### Host commands -/

/-- Command `w` of opcode `op` stands alone at the front of context `c`'s queue at the manager and may start: the context is OPEN, SCHED is
up, its number is the next and no running command has it, its FENCE and its operand record are met (R84, R85). -/
structure Dev.Front (s : Dev) (c op : Nat) (w : List Word) : Prop where
  mgr : s.isMgr = true
  isOpen : s.ctxSt c = 1
  up : s.schedDown = false
  sq : (s.ctx c).sq = [w]
  fetched : (s.ctx c).sqIssued = (s.ctx c).sqTail
  op : hOp w = op
  next : s.seqDist c (hSeq w) = 1
  fresh : ∀ e ∈ (s.ctx c).run, e.seq ≠ hSeq w
  fence : hFence w = false ∨ (s.ctx c).run = []
  operand : hostOperand w = none ∨ (s.ctx c).opData ≠ none

/-- What a command's start and its end write: its context, the highest number, its entry of the sequence window. -/
def cmdParts (c : Nat) (w : List Word) : List Part :=
  [.ctx c, .reg (R.ctxSeqHigh c), .reg (R.ctxWinSeq c (hSeq w % 64)), .reg (R.ctxWinStatus c (hSeq w % 64)),
    .reg (R.ctxWinResult c (hSeq w % 64))]

/-- Command `w` has been taken from context `c`'s queue and has ended: its number is the highest, the window holds its result and its
status with VALID, and a completion waits, but for a SUCCESS under NO_CPL (R85, R88). -/
structure Dev.Done (s : Dev) (c : Nat) (w : List Word) (st : Status) (result : Nat) (t : Dev) : Prop where
  high : t.rn (R.ctxSeqHigh c) = hSeq w
  num : t.rn (R.ctxWinSeq c (hSeq w % 64)) = hSeq w
  status : t.reg (R.ctxWinStatus c (hSeq w % 64)) = Word.ofNat (st.code + 0x80000000)
  res : t.reg (R.ctxWinResult c (hSeq w % 64)) = Word.ofNat result
  sq : (t.ctx c).sq = []
  run : (t.ctx c).run = (s.ctx c).run
  fin : (t.ctx c).fin = (s.ctx c).fin ++ (if hNoCpl w = true ∧ st.nm = .success then []
    else [{ seq := hSeq w, result, cid := hCid w, status := st.code, orig := 0, irq := hIrq w }])

/-- Command `w` has been taken from context `c`'s queue and runs on. -/
def Dev.Started (t : Dev) (c : Nat) (w : List Word) : Prop :=
  (t.ctx c).sq = [] ∧ t.rn (R.ctxSeqHigh c) = hSeq w ∧ t.reg (R.ctxWinStatus c (hSeq w % 64)) = 0 ∧
    ∃ e ∈ (t.ctx c).run, e.seq = hSeq w ∧ e.words = w

/-- Every sector of DRAM holds a good code word and no injection is armed, so that a read finds no error and a write leaves none. -/
def Dev.Sound (s : Dev) : Prop := s.marks = [] ∧ s.rf R.rasInjCtl 0 2 = 0

/-- Releasing handle `h` for context `c` frees its buffer: the BPM is up, the handle valid, its count 1; nobody waits, and the buffer is of no
guarded class and without errors, so that nothing more follows (R129, R130, R408, R462). -/
structure Dev.Frees (s : Dev) (c h : Nat) : Prop where
  up : s.bpmDown = false
  noWait : s.bpm.waiters = []
  valid : s.hValid h = true
  may : s.poolMay (hPool h) c = true
  plain : guarded (s.poolCls (hPool h)) = false
  one : (s.buf (hPool h) (hIdx h)).count = 1
  clean : (s.buf (hPool h) (hIdx h)).poisoned = false
  sound : (s.buf (hPool h) (hIdx h)).bad = false

/-- The doorbells: 0 DB_SQ_TAIL, 1 DB_CQ_HEAD, 2 DB_EQ_HEAD, 3 DB_MQ_HEAD. -/
def dbRow (i : Nat) (src : Src) (c : Nat) (v : Word) (be : Nat) : Instr :=
  if i = 0 then .dbSqTail src c v be else if i = 1 then .dbCqHead src c v be
  else if i = 2 then .dbEqHead src c v be else .dbMqHead src c v be

/-! ### Core commands -/

/-- Program `p` of a route runs on core `k`. -/
structure Dev.Runs (s : Dev) (k : Nat) (p : Prog) : Prop where
  core : k < 16
  cur : s.prog k = some p
  route : p.route < 256
  st : p.st = .run
  up : s.blkRuns (corePage k 0) = true

/-- Command `w` of opcode `op` is next in the program of core `k` and may issue: nothing waits, its DEP is met, a slot is free
(R196-R198). -/
structure Dev.Next (s : Dev) (k op : Nat) (p : Prog) (w : List Word) : Prop extends s.Runs k p where
  noWait : p.wait = none
  goes : p.ending = false
  inside : p.pc < p.len
  sound : s.Sound
  fetched : w = wordsOf (s.bytes (p.image + p.off + 32 * p.pc) 32)
  op : cOp w = op
  dep : depOk p (cDep w) = true
  slot : p.slots < 64

/-- The same with fields in their listed ranges (R226). -/
structure Dev.Issues (s : Dev) (k op : Nat) (p : Prog) (w : List Word) : Prop extends s.Next k op p w where
  legal : ccmdBad w p.len (s.nlOf p.route) = false

/-- Command `c` answers with its own effect `P`, after which issue goes on on every core. -/
def Steps (c : Instr) (s : State) (P : Dev → Prop) : Prop := Answers c s fun t => ∃ d : Dev, t = d.pumpAll ∧ P d

/-- Command `c` stops program `p` of core `k` and faults its context with status `st` and DETAIL2 `d2`; `P` holds of the unit before. -/
def Stops (c : Instr) (s : State) (k : Nat) (p : Prog) (st : Status) (d2 : Nat) (P : Dev → Prop) : Prop :=
  Answers c s fun t => ∃ d : Dev, t = (d.ctxFault p.ctx st 0 d2 k).pumpAll ∧ (d.prog k).map (·.st) = some .stopped ∧
    d.rb (corePage k 0 + R.irqStat) 16 = true ∧ P d

/-- The row of a SEQ opcode. -/
def seqRow (op k : Nat) : Instr :=
  if op = 0x11 then .recv k else if op = 0x12 then .signal k else if op = 0x13 then .wait k else if op = 0x14 then .barrier k
  else if op = 0x20 then .loop k else if op = 0x21 then .branch k else if op = 0x22 then .timewait k else .end_ k

/-! ### Vector instructions -/

/-- Instruction `i` of opcode `op` is next in bank `bank` of core `k`, which serves command `o` of program `p` (R255). -/
structure Dev.Lanes (s : Dev) (k op bank : Nat) (p : Prog) (o : Op) (i : Nat) : Prop extends s.Runs k p where
  serves : p.lanes = some bank
  cmd : s.bankOp k bank p = some o
  instr : i = s.imem k (p.bankOf bank).pc
  op : vOp i = op
  vecUp : s.blkRuns (corePage k 2) = true

/-- Bank `b` comes to an instruction that is in its window, before the limit of a tile, and legal (R273). -/
def Dev.Comes (s : Dev) (k bank : Nat) (b : VBank) : Prop :=
  b.pc < 4096 ∧ (bank = 1 → b.entry ≤ b.pc ∧ b.pc ≤ b.entry + 511 ∧ b.n < 65536) ∧ vIllegal bank (s.imem k b.pc) = false

/-- Bank `c` is bank `b` one instruction on, at index `pc`, but for what a vector, a scalar and a predicate register hold. -/
structure VBank.Onward (b : VBank) (pc : Nat) (c : VBank) : Prop where
  pc : c.pc = pc
  n : c.n = b.n + 1
  on : c.on = b.on
  entry : c.entry = b.entry
  wait : c.wait = false

/-- Lane `l` of v[`d`] holds `g l` in `c`; every other lane and register is as in `b`. -/
def VBank.GetsLanes (b c : VBank) (d : Nat) (g : Nat → Word) : Prop :=
  (∀ n l, l < 64 → c.lane n l = if n = d then g l else b.lane n l) ∧ c.s = b.s ∧ c.p = b.p

/-- v[D] of instruction `i` gets `f l` on active lanes; the others keep their value, or become 0 with PZ (R256). -/
def VBank.GetsActive (b c : VBank) (i : Nat) (f : Nat → Word) : Prop :=
  b.GetsLanes c (vD i) fun l => if bitN (b.pr (vPred i)) l then f l else if vPz i then 0 else b.lane (vD i) l

/-- s[`d` mod 16] holds `w` in `c`; every other register is as in `b`. -/
def VBank.GetsScalar (b c : VBank) (d : Nat) (w : Word) : Prop :=
  (∀ n, n < 16 → c.sc n = if n = d % 16 then w else b.sc n) ∧ c.v = b.v ∧ c.p = b.p

/-- p[D mod 8] of instruction `i` gets `f l` on active lanes; the others keep their bit, or become 0 with PZ; p0 stays all ones (R256). -/
def VBank.GetsPred (b c : VBank) (i : Nat) (f : Nat → Bool) : Prop :=
  (∀ n l, n < 8 → l < 64 → bitN (c.pr n) l = if n = vD i % 8 ∧ n ≠ 0 then
    (if bitN (b.pr (vPred i)) l then f l else if vPz i then false else bitN (b.pr n) l) else bitN (b.pr n) l) ∧ c.v = b.v ∧ c.s = b.s

/-- Saturation to TYPE's range. -/
def vClamp (i : Nat) (v : Int) : Word :=
  if vTy i = 0 then BitVec.ofInt 32 (max (-2147483648) (min v 2147483647)) else BitVec.ofInt 32 (max 0 (min v 4294967295))

/-- A lane as a number of an integer TYPE. -/
def vNum (i : Nat) (a : Word) : Int := if vTy i = 0 then a.toInt else a.toNat

/-- Opcode, row and lane function of the instructions on lanes of operands A and B, with the instructions to which the table's TYPEs give
no result left out (R257, R258). -/
def vecRows (s : Dev) (k : Nat) : List (Nat × Instr × (Nat → Bool) × (Nat → Word → Word → Word)) :=
  let all := fun (_ : Nat) => true
  [(0x01, .vadd k, all, fun i a b => if vTy i = 2 then fadd a b else if vSat i then vClamp i (vNum i a + vNum i b) else a + b),
   (0x02, .vsub k, all, fun i a b => if vTy i = 2 then fsub a b else if vSat i then vClamp i (vNum i a - vNum i b) else a - b),
   (0x03, .vmul k, all, fun i a b => if vTy i = 2 then fmul a b else if vSat i then vClamp i (vNum i a * vNum i b) else a * b),
   (0x05, .vmin k, all, fun i a b => if vTy i = 2 then fmin a b else if vNum i a ≤ vNum i b then a else b),
   (0x06, .vmax k, all, fun i a b => if vTy i = 2 then fmax a b else if vNum i b ≤ vNum i a then a else b),
   (0x07, .vabs k, all, fun i a _ => if vTy i = 2 then fabs a else if vSat i then vClamp i (vNum i a).natAbs else if 0 ≤ vNum i a then a else -a),
   (0x08, .vneg k, all, fun i a _ => if vTy i = 2 then fneg a else if vSat i then vClamp i (-vNum i a) else -a),
   (0x09, .vdiv k, all, fun _ a b => fdiv a b), (0x0A, .vsqrt k, all, fun _ a _ => fsqrt a),
   (0x0B, .vmulq k, all, fun i a b => wordOfInt (sat32 (mulShift a.int b.int ((vImm i).fld 0 6)))),
   (0x10, .vand k, all, fun _ a b => a &&& b), (0x11, .vor k, all, fun _ a b => a ||| b), (0x12, .vxor k, all, fun _ a b => a ^^^ b),
   (0x13, .vshl k, all, fun _ a b => a <<< (b.toNat % 32)),
   (0x14, .vshr k, fun i => vTy i != 2, fun i a b => if vTy i = 0 then a.sshiftRight (b.toNat % 32) else a >>> (b.toNat % 32)),
   (0x18, .vcvt k, fun i => vTy i != 2, fun i a _ => laneCvt (vTy i) (vImm i) a),
   (0x38, .vact k, fun i => vTy i == 2, fun i a _ => actFn (s.lut k) ((vImm i).fld 0 4) (vImm i) a),
   (0x39, .vlut k, fun i => vTy i == 2, fun i a _ => lutFn (s.lut k) (vImm i) a)]

/-- Opcode, row and function of the instructions on scalars (R258). -/
def scalarRows (k : Nat) : List (Nat × Instr × (Nat → Word → Word → Word)) :=
  [(0x50, .sadd k, fun _ a b => a + b), (0x51, .ssub k, fun _ a b => a - b), (0x52, .smul k, fun _ a b => a * b),
   (0x53, .sli k, fun i _ _ => vImm i), (0x54, .sand k, fun _ a b => a &&& b), (0x55, .sor k, fun _ a b => a ||| b),
   (0x56, .sshl k, fun _ a b => a <<< (b.toNat % 32)),
   (0x57, .sshr k, fun i a b => if vTy i = 0 then a.sshiftRight (b.toNat % 32) else a >>> (b.toNat % 32))]

/-- Instruction `c` of opcode `op` completes on every core's lanes: the bank goes from `b` to one that `P` holds of, at `pc`; nothing else
of the unit but the core's program changes; issue then goes on. -/
def VecDoes (c : Instr) (s : State) (k op bank : Nat) (p : Prog) (o : Op) (i pc : Nat) (P : VBank → VBank → Prop) : Prop :=
  s.Lanes k op bank p o i → s.Comes k bank { p.bankOf bank with pc, n := (p.bankOf bank).n + 1 } → Steps c s fun d =>
    ∃ b, d.prog k = some (p.setBank bank b) ∧ (p.bankOf bank).Onward pc b ∧ P (p.bankOf bank) b ∧ (∀ j, j ≠ k → d.core j = s.core j) ∧
      d.out = s.out ∧ s.Keeps [.eng] d

/-! ### Jobs -/

/-- The handles of `l` are valid for context `c` and name different buffers, each with a count above `lo` and below 65,535; the BPM is up. -/
structure Dev.Holds (s : Dev) (c lo : Nat) (l : List Nat) : Prop where
  up : s.bpmDown = false
  apart : (l.map fun h => (hPool h, hIdx h)).Nodup
  each : ∀ h ∈ l, s.hValid h = true ∧ s.poolMay (hPool h) c = true ∧ lo < (s.buf (hPool h) (hIdx h)).count ∧
    (s.buf (hPool h) (hIdx h)).count < 65535

/-- The row that pushes to queue `q` as the PF driver. -/
def pushRow (q : Nat) (v : Word) : Instr :=
  if q < 3 then .jobPushHi q (.host 0) v else if q = 3 then .dppJobPushHi (.host 0) v else .slvJobPushHi (.host 0) v

/-- Job `j` of queue `q`, pushed by the driver with its descriptor at `a`, can complete with nothing that follows elsewhere: no NOTIFY, no push
waits, and no reference it holds is the last. -/
structure Dev.MayEnd (s : Dev) (q : Nat) (j : Job) (a : Nat) : Prop where
  host : j.by_ = .host
  addr : j.addr = some a
  quiet : jobNotify q j.desc = none
  noWaits : (s.jq q).waits = []
  holds : s.Holds j.ctx 1 j.refs
  sound : s.Sound
  clean : s.asMarks = []

/-- Offset and words of the status sector, or result record, of queue `q`. -/
def sectorAt (q : Nat) : Nat := if q = 0 then 0x20 else if q ≤ 3 then 0x60 else 0xC0

/-- Job `j` has completed with words `ws`: it has left its queue, its references are released, its sector is written, its status is shown, and
its interrupt is raised when it asked for it (R178). -/
structure Dev.Ended (s : Dev) (q : Nat) (j : Job) (a : Nat) (st : Status) (ws : List Word) (t : Dev) : Prop where
  jobs : (t.jq q).jobs = (s.jq q).jobs.filter (·.id != j.id)
  others : ∀ p, p ≠ q → t.jq p = s.jq p
  refs : ∀ h ∈ j.refs, (t.buf (hPool h) (hIdx h)).count = (s.buf (hPool h) (hIdx h)).count - 1
  sector : t.bytes (a + sectorAt q) (4 * ws.length) = bytesOfWords ws
  status : t.reg (jqPage q + 0x10C) = Word.ofNat st.code
  irq : jobIrq q j.desc = true → t.rb (jqPage q + R.irqStat) 0 = true

/-- What a job's completion may write. -/
def jobParts (q : Nat) : List Part := [.eng, .bpm, .dram, .draws, .reg (jqPage q + 0x108), .reg (jqPage q + 0x10C)]

/-- Job `j` is the oldest queued job of the solver's queue `q`, its OP is `op` and it passes the checks of R315; no error can strike its operands,
which lie in DRAM. -/
structure Dev.Solves (s : Dev) (q op : Nat) (j : Job) : Prop where
  next : (s.jq q).jobs.find? (·.phase == 0) = some j
  op : slvOp j.desc = op
  up : s.blkRuns 0x68000 = true
  legal : slvBad j.desc = false
  legalHere : s.slvBadHere j = false
  good : j.bad = none
  fits : (((slvExtents j.desc).map (s.slvBuf j.ctx)) ++ [s.trackBad j]).filterMap id = []
  sound : s.Sound
  dram : ∀ x ∈ slvExtents j.desc, s.poolAs (hPool x.1) = false

/-- Job `j` of queue `q` has computed with SUCCESS and 16 words of result, of which word `i` is `w` for each `(i, w)` of `l`; the other jobs are as they
were. -/
def Dev.solved (s t : Dev) (q : Nat) (j : Job) (l : List (Nat × Word)) : Prop :=
  (∃ i ∈ (t.jq q).jobs, i.id = j.id ∧ i.phase = 2 ∧ i.st = .ok ∧ i.out.length = 16 ∧ i.refs = j.refs ∧ ∀ x ∈ l, i.out.getD x.1 0 = x.2) ∧
    (t.jq q).jobs.filter (·.id != j.id) = (s.jq q).jobs.filter (·.id != j.id) ∧ ∀ p, p ≠ q → t.jq p = s.jq p

/-- What computing a solver job may write beside its results. -/
def slvParts : List Part := [.eng, .dram, .draws, .reg 0x68108, .reg R.slvPivotCnt]

/-- The entries of a track table after updates, and how many were skipped: one outside the table, of a FREE entry, or older than the entry
(R310). -/
def trackRun (d : List Byte) (cap : Nat) : List (List Word) → Nat × (Nat → List Word) → Nat × (Nat → List Word)
  | [], x => x
  | u :: l, (n, f) =>
    let i := (u.getD 0 0).fld 0 16
    let time := fun (w : List Word) k => (w.getD k 0).toNat + (w.getD (k + 1) 0).toNat * 2 ^ 32
    if cap ≤ i ∨ ((f i).getD 1 0).fld 0 8 = 0 ∨ time u 2 < time (f i) 4 then trackRun d cap l (n + 1, f)
    else trackRun d cap l (n, fun k => if k = i then trackEntry d (f i) u else f k)

/-- What a sub-operation may write beside the bundle. -/
def subopParts : List Part := [.eng, .dram, .draws, .reg R.slvBaStat, .reg R.slvSubopMax]

/-- Command `c` has its own effect `P`, after which SCHED looks at every route's step. -/
def Coaches (c : Instr) (s : State) (P : Dev → Prop) : Prop := Answers c s fun t => ∃ d : Dev, t = d.coachAll ∧ P d

/-! ### The timetable -/

/-- Entry `e` is `x`, whose occurrence with action `act` is due and launches: the unit is not suspended, its target is up, and nothing of it waits
(R358, R362). -/
structure Dev.Due (s : Dev) (e act : Nat) (x : Ent) : Prop where
  range : e < 256
  ent : s.ent e = x
  action : x.action = act
  time : x.t ≤ s.now16
  goes : s.rb R.timeStat 1 = false
  up : s.targetDown x = false
  onTime : x.down = false
  fresh : x.retry = none
  noClip : s.clipOpen e = false

/-- Entry `x` after its occurrence has launched: its next time is one period on; a one-shot entry is disarmed (R359). -/
def Ent.after (x : Ent) : Ent := if x.per = 0 then { x with w := x.w - x.action * 2 ^ 38, down := false } else { x with t := x.t + x.per }

/-- The rows of the timetable's actions by ACTION. -/
def entRows (e : Nat) : List (Nat × Instr) := [(1, .submit e), (2, .close e), (3, .ppu e), (4, .clip e), (5, .sync e)]

/-- No entry is armed. -/
def Dev.unarmed (s : Dev) : Prop := ∀ x ∈ s.tim.ents, x.2.action = 0

/-- Shop time after a step of `d` ns. -/
def Dev.shopPlus (s : Dev) (d : Int) : Nat := (((s.shop : Int) + d * 2 ^ 48) % 2 ^ 112).toNat

/-! ### Management messages -/

/-- The answer of a PLDM GETPDR with handle `h`: the status, and the next handle with the record (R432). -/
def Dev.pdrSays (s : Dev) (h : Nat) : Nat × List Nat :=
  match s.sensorIds.drop (h - 1) with
  | [] => (0x82, [])
  | id :: r => (0, [if r = [] then 0 else max h 1 + 1, id] ++ if id < 256 then (s.sensor id).2.map (ofSigned 32) else [])

/-- The commands served of a PLDM type (R431). -/
def pldmOf (type : Nat) : List Nat := if type = 0 then [2, 3, 4, 5] else if type = 2 then [4, 0x11, 0x50, 0x51] else []

/-! ### Frames -/

/-- Frame `f` reaches a port whose link is UP without a key, with nothing of its own unacknowledged; it is legal and carries no NAK; and no
epoch is draining (R369-R373, R379). -/
structure Dev.Hears (s : Dev) (p : Nat) (f : Frame) : Prop where
  port : p < 2
  up : s.glkSt p = 2
  noKey : (s.glk p).key = none
  legal : badFrame f = false
  noNak : f.nak = false
  acked : (s.glk p).unacked = []
  drained : s.chain.prev = none
  awake : s.chain.draining = false

/-- A DATA or MGMT frame that is next in order and is for this unit, which holds an address; for DATA source and destination are JOINED
and the epoch is current (R375, R377, R379). -/
structure Dev.Takes (s : Dev) (p : Nat) (f : Frame) : Prop extends s.Hears p f where
  next : f.seq = (s.glk p).seqRx
  addressed : s.chain.addressed = true
  dst : f.dst = s.addr
  data : f.cls = 0 → s.mayData p = true ∧ s.dataJoined f = true ∧ f.epoch = s.epoch

/-- A transaction that is next in its stream, with nothing held ahead of it (R374). -/
structure Dev.TakesTx (s : Dev) (p : Nat) (f : Frame) : Prop extends s.Takes p f where
  txNext : f.txid = Tab.get (fun _ => 0) s.chain.rxNext (f.src * 4 + txVc f)
  early : s.chain.early = []

/-- Transaction `f` has been applied, its stream's next TXID is the following one, and its answer, which is kept for a repeat, carries
`arg` and `payload` (R374). -/
def Dev.answered (t : Dev) (f : Frame) (arg : Nat) (payload : List Byte) : Prop :=
  Tab.get (fun _ => 0) t.chain.rxNext (f.src * 4 + txVc f) = (f.txid + 1) % 2 ^ 32 ∧
    ∃ a ∈ t.chain.applied, a.src = f.src ∧ a.vc = txVc f ∧ a.txid = f.txid ∧
      ∃ r, a.resp = some r ∧ r.dst = f.src ∧ r.txid = f.txid ∧ r.arg = arg ∧ r.payload = payload

end Sys2Proof.Machine
end

