-- ==== Sys2Proof/Certificates/Slice0/Obligations.lean ====
section
/-! DEFINITION. The statements for the provers. -/

open Sys2Proof Sys2Proof.Machine

/-- Asked of a block: one step with command `c` at the front of the queue is `exec c` on the unit with the queue's rest. -/
def Obligations.StepRunsTheFrontCommand : Prop :=
  ∀ (c : Instr) (q : List Instr) (s : State), step { s with pending := c :: q } = exec c { s with pending := q }

/-- R349: with no command waiting a step is one TCLK edge, which adds 2 ns × (1 + TIME_RATE × 2^-40) to shop time; shop time is
kept in units of 2^-48 ns, modulo 2^64 ns. Nothing else changes. That an idle step is a TCLK edge is the model's choice
(notes/assumptions/1). -/
def Obligations.AnIdleStepIsOneTclkEdge : Prop :=
  ∀ s : State, s.pending = [] → ∃ t, step s = .next t ∧ t = { s with shop := t.shop } ∧ t.shop < 2 ^ 112 ∧
    (t.shop : Int) % 2 ^ 112 = ((s.shop : Int) + 2 * 2 ^ 48 + 2 * (s.reg R.timeRate).int * 2 ^ 8) % 2 ^ 112

/-- The whole queue of commands is carried out, first in, first out: from every state, as many steps as commands wait end in a
state with an empty queue, and no command stops the block on the way. -/
def Obligations.EveryQueueOfCommandsDrains : Prop :=
  ∀ s : State, ∃ t : State, Host.Core.run core s.pending.length s = .next t ∧ t.pending = []

/-- A command acts on everything but the queue, and what it does to the unit does not depend on what waits behind it. -/
def Obligations.ACommandNeitherReadsNorWritesTheQueue : Prop :=
  ∀ (c : Instr) (s : State), ∃ d : Dev, ∀ q : List Instr,
    exec c { s with pending := q } = .next { toDev := d, pending := q }

/-- Every step keeps the queue well-formed: from every state whose waiting commands are well-formed, whatever the unit holds,
a step leaves a queue of well-formed commands that is the tail of the old one. -/
def Obligations.EveryStepKeepsTheQueueWellFormed : Prop :=
  ∀ s t : State, s.queueWf = true → step s = .next t → t.queueWf = true ∧ t.pending = s.pending.tail

/-- Every step keeps both memories, DRAM and the activation stores, in canonical form: from every state in which they are, whatever
else the state holds and whichever command is next. -/
def Obligations.EveryStepKeepsTheMemoriesCanonical : Prop :=
  ∀ s t : State, s.memWf = true → step s = .next t → t.memWf = true

/-- After reset no command waits, so that the queue is well-formed, and both memories list nothing, which is the canonical form. -/
def Obligations.TheQueueAndTheMemoriesAreWellFormedAtReset : Prop :=
  State.reset.queueWf = true ∧ State.reset.pending = [] ∧ State.reset.memWf = true ∧ State.reset.dram = [] ∧ State.reset.as = []

/-- R139: the channel of a usable address is the XOR of the three bit fields of its granule, the channel-local address is as the rule
gives it, eight consecutive granules lie in all eight channels, and the map is one to one: the usable address made of an address's channel, span and
offset is that address, and its physical channel address lies in the first 3,840 bytes of its 4 KiB span. -/
def Obligations.EveryUsableAddressHasOneChannelSpanAndOffset : Prop :=
  (∀ a k : Nat, bitN (chanOf a) k = (decide (k < 3) && (bitN (a / 256) k ^^ bitN (a / 256) (k + 3) ^^ bitN (a / 256) (k + 6)))) ∧
  (∀ a : Nat, chanLocal a = a / 256 / 8 * 256 + a % 256) ∧
  (∀ b k : Nat, k < 8 → ∃ i, i < 8 ∧ chanOf (b * 2048 + i * 256) = k) ∧
  ∀ a : Nat, usableOf (chanOf a) (chanLocal a / 3840) (chanLocal a % 3840) = a ∧ chanOf a < 8 ∧
    physOf (chanLocal a) / 4096 = chanLocal a / 3840 ∧ physOf (chanLocal a) % 4096 = chanLocal a % 3840

/-- Memory reads back what was stored and no other byte changes, in DRAM and in the activation stores, and a store keeps the
canonical form. Equal memories are equal data: two memories in canonical form that read the same at every address are the same list. -/
def Obligations.AStoreReadsBackAndMemoriesThatReadAlikeAreEqual : Prop :=
  (∀ (s : Dev) (a : Nat) (bs : List Byte), (s.putBytes a bs).bytes a bs.length = bs ∧
    (∀ k, k < a ∨ a + bs.length ≤ k → (s.putBytes a bs).byte k = s.byte k) ∧
    (s.memWf = true → (s.putBytes a bs).memWf = true)) ∧
  (∀ (s : Dev) (k o : Nat) (bs : List Byte), o + bs.length ≤ 2 ^ 23 → (s.asPutBytes k o bs).asBytes k o bs.length = bs ∧
    (∀ j i, i < 2 ^ 23 → (j ≠ k ∨ i < o ∨ o + bs.length ≤ i) → (s.asPutBytes k o bs).asByte j i = s.asByte j i) ∧
    (s.memWf = true → (s.asPutBytes k o bs).memWf = true)) ∧
  ∀ m n : Tab Byte, Memory.wf m = true → Memory.wf n = true →
    (∀ a, Tab.get (fun _ => 0) m a = Tab.get (fun _ => 0) n a) → m = n

/-- R141, R143, R144: a demand read of a sector that holds a good or a correctable code word gives its data, one whose errors
cannot be corrected or that is poisoned gives poisoned data; afterwards a correctable sector is corrected and an uncorrectable one
holds the poison code; bytes and every other sector's code word stay. -/
def Obligations.ADemandReadCorrectsOrPoisonsItsSector : Prop :=
  ∀ (s : Dev) (i c : Nat),
    (s.secRd i c).1 = decide (s.mark i = .ue ∨ s.mark i = .poison) ∧
    (s.secRd i c).2.dram = s.dram ∧
    (s.mark i = .ue → (s.secRd i c).2.mark i = .poison) ∧
    (s.mark i = .ce → (s.secRd i c).2.mark i = .ok) ∧
    (∀ j, j ≠ i → (s.secRd i c).2.mark j = s.mark j)

/-- R39, R418, R419: a reset that starts clears the unit's contexts, engines, activation stores and tables, records its code, keeps
DRAM and shop time, advances every buffer generation, and resets registers by their groups. Power-on also clears DRAM, shop time
and the generations, and keeps what the flash and the fuses hold. No reset follows PERST_N on a worker, without main power or
asserted already, a reset while one of a lower code holds, a chain reset at the manager, and a worker's own soft reset while contexts
have slots on it, which sets TOP_STAT.SRST_REFUSED: nothing else changes. -/
def Obligations.AResetClearsTheUnitOrDoesNotStart : Prop :=
  ∀ s : State,
    Answers .powerOn s (fun t => t.cleared ∧ t.reg R.topRstCause = (if s.pwr.tripped then 8 else 1) ∧
      (∀ o, o ≠ R.topRstCause → o ≠ R.topStat → t.reg o = if s.boot.aonKept = true ∧ isAon o = true then s.reg o else regReset o) ∧
      t.dram = [] ∧ t.marks = [] ∧ t.shop = 0 ∧ t.bpm = {} ∧ t.boot.perst = true ∧ t.boot.powered = true ∧
      t.mgmt.slotA = s.mgmt.slotA ∧ t.mgmt.slotB = s.mgmt.slotB ∧ t.mgmt.stored = s.mgmt.stored ∧
      t.sec.floorM = s.sec.floorM ∧ t.sec.floorC = s.sec.floorC ∧ t.sec.revoked = s.sec.revoked ∧ t.sec.dbgLevel = 0) ∧
    (s.isMgr = true → s.boot.powered = true → s.boot.perst = false → Answers .perstNAssert s fun t =>
      s.resetBy 2 t ∧ s.regsReset 2 t ∧ t.boot.perst = true) ∧
    (s.isMgr = true → s.absorbs 3 = false → Answers .hotReset s fun t => s.resetBy 3 t ∧ s.regsReset 3 t) ∧
    (s.isMgr = true → s.absorbs 4 = false → s.boot.powered = true → Answers .pcieLinkDown s fun t =>
      s.resetBy 4 t ∧ s.regsReset 4 t) ∧
    (s.isMgr = true → s.absorbs 5 = false → Answers .pfFlr s fun t =>
      s.resetBy 5 t ∧ s.regsReset 5 t ∧ t.rb R.hifFlrStat 0 = true) ∧
    (s.isMgr = false → Answers .chainReset s fun t => s.resetBy 6 t ∧ s.regsReset 6 t) ∧
    (s.isMgr = true → s.absorbs 7 = false → Answers .unitSrst s fun t => s.resetBy 7 t) ∧
    (s.isMgr = false → s.slotsUsed = false → Answers .unitSrst s fun t => s.resetBy 7 t) ∧
    ((s.isMgr = false ∨ s.boot.powered = false ∨ s.boot.perst = true) → exec .perstNAssert s = .next s) ∧
    ((s.isMgr = false ∨ s.absorbs 3 = true) → exec .hotReset s = .next s) ∧
    ((s.isMgr = false ∨ s.absorbs 4 = true ∨ s.boot.powered = false) → exec .pcieLinkDown s = .next s) ∧
    ((s.isMgr = false ∨ s.absorbs 5 = true) → exec .pfFlr s = .next s) ∧
    (s.isMgr = true → exec .chainReset s = .next s) ∧
    (s.isMgr = false → s.slotsUsed = true → Answers .unitSrst s fun t =>
      t.rb R.topStat 5 = true ∧ s.Keeps [.reg R.topStat] t)

/-- R404: a SEC_COMMIT after an image has booted raises each floor to the security version number of the running image and revokes the
slots its REVOKE mask names, but not the slot that signed it; before that it changes nothing. Neither step can be undone: whichever
command is carried out, in whatever state, no floor falls and no revocation bit clears. -/
def Obligations.ACommitRaisesFloorsThatNeverFall : Prop :=
  (∀ (s : State) (v : Word), v.bit 0 = true → s.boot.started = true → s.sec.revokeMask < 16 → Answers (.secCommit v) s fun t =>
    t.sec.floorM = max s.sec.floorM s.sec.runM ∧ t.sec.floorC = (if s.boot.codecOk then max s.sec.floorC s.sec.runC else s.sec.floorC) ∧
    (∀ j, j < 4 → bitN t.sec.revoked j = (bitN s.sec.revoked j || (bitN s.sec.revokeMask j && j != s.sec.signSlot))) ∧
    t.sec = { s.sec with floorM := t.sec.floorM, floorC := t.sec.floorC, revoked := t.sec.revoked, audit := t.sec.audit } ∧
    t.out = s.out ∧ s.Keeps [.sec] t) ∧
  (∀ (s : State) (v : Word), v.bit 0 = false ∨ s.boot.started = false → exec (.secCommit v) s = .next s) ∧
  (∀ (c : Instr) (s t : State), exec c s = .next t → s.sec.floorM ≤ t.sec.floorM ∧ s.sec.floorC ≤ t.sec.floorC ∧
    ∀ j, bitN s.sec.revoked j = true → bitN t.sec.revoked j = true)

/-- R416, R418, R421, R422, R426, R439: losing the main rails switches every island off but the always-on one and ends a debug
session; losing standby power too loses what that island holds and the reservation table; the straps are sampled once per power-on,
and again change nothing; PERST_N's release starts the boot, whose ROM tries the first slot of its order; CHAIN_RST at the manager
sends a chain reset to every worker in QUARANTINE or JOINED and forgets every transaction. -/
def Obligations.PowerStrapsAndTheBootSequence : Prop :=
  ∀ (s : State) (straps : Word) (k : Nat),
    Answers .mainRailLoss s (fun t => t.boot.powered = false ∧ t.boot.aonKept = true ∧ t.sec.dbgLevel = 0 ∧ t.sec.nonce = [] ∧
      (∀ i, i < 25 → t.rf (R.pwrIslCtl i) 4 2 = 0) ∧ t.glkSt 0 = 0 ∧ t.glkSt 1 = 0 ∧
      s.Keeps [.boot, .sec, .page 0x1000, .page 0x2000, .reg (R.glkStat 0), .reg (R.glkStat 1)] t) ∧
    Answers .standbyPowerLoss s (fun t => t.boot.powered = false ∧ t.boot.aonKept = false ∧ t.chain.res = [] ∧
      (∀ o, isAon o = true → t.reg o = regReset o) ∧ s.Keeps [.boot, .sec, .chain, .regs] t) ∧
    (s.boot.sampled = false → Answers (.strapSample straps) s fun t =>
      (t.reg R.topStrap).toNat = straps.toNat % 512 ∧ t.boot.sampled = true ∧
      (straps.bit 0 = true → straps.bit 8 = false → t.chain.addressed = true ∧ t.rb R.chainStat 4 = true) ∧
      s.Keeps [.boot, .chain, .reg R.topStrap, .reg R.topStat, .reg R.chainStat, .page 0x1000, .page 0x2000, .reg (R.glkStat 0),
        .reg (R.glkStat 1)] t) ∧
    (s.boot.sampled = true → exec (.strapSample straps) s = .next s) ∧
    (s.isMgr = true → s.boot.perst = true → s.boot.powered = true → s.rb R.topStrap 8 = false →
      (s.mgmt.order (s.rb R.topStrap 7)).head? = some k → Answers .perstNRelease s fun t =>
        t.boot.perst = false ∧ t.boot.trying = some k ∧ t.boot.startNs = s.ns ∧ t.rf R.topStat 0 3 = 1 ∧
        s.Keeps [.boot, .chain, .reg R.topStat, .reg R.chainStat, .reg R.hifPmStat, .page 0x1000, .page 0x2000] t) ∧
    (s.isMgr = true → Answers .chainRst s fun t => t.boot.chainWait = s.workers ∧ t.chain.out = [] ∧ t.chain.applied = [] ∧
      s.Keeps [.boot, .chain] t)

/-- R403, R423, R426, R427: an image that passes the check and comes up runs: MGMT_STAT reads RUNNING, its version and security
version are recorded, the slot that the manager tried is the running one and ACTIVE. One that fails the check marks the manager's
slot FAILED, and a worker's leaves its firmware as it was; either way an audit entry is written. A started slot that does not set
RUNNING in time fails. The third watchdog expiry within 10 minutes halts the firmware, an earlier one restarts it. -/
def Obligations.ImagesRunFailAndRestart : Prop :=
  ∀ (s : State) (img : ImageCheck) (k : Nat), s.boot.trying = some k → k < 2 →
    (s.isMgr = true → s.rf R.mgmtStat 0 2 = 0 → s.imageOk img = true → img.runs = true →
      ((s.mgmt.slot k).st = .active ∨ (s.mgmt.slot k).st = .pending) → Answers (.imageVerified img) s fun t =>
        t.rb R.mgmtStat 2 = true ∧ t.rf R.mgmtStat 0 2 = 0 ∧ t.reg R.mgmtFwVer = Word.ofNat img.version ∧
        t.sec.runM = img.mgmtSvn ∧ t.mgmt.running = k ∧ (t.mgmt.slot k).st = .active ∧ (t.mgmt.slot k).svn = (s.mgmt.slot k).svn ∧
        t.eng = s.eng ∧ t.bpm = s.bpm ∧ t.dram = s.dram ∧ t.as = s.as ∧ t.tim = s.tim ∧ t.slots = s.slots) ∧
    (s.isMgr = true → s.rf R.mgmtStat 0 2 = 0 → s.imageOk img = false → Answers (.imageVerified img) s fun t =>
      (t.mgmt.slot k).st = .failed ∧ t.sec.audit = s.sec.audit + 1 ∧ t.sec.runM = s.sec.runM ∧ t.mgmt.running = s.mgmt.running ∧
      t.eng = s.eng ∧ t.bpm = s.bpm ∧ t.dram = s.dram ∧ t.as = s.as ∧ t.tim = s.tim ∧ t.slots = s.slots) ∧
    (s.isMgr = false → s.rf R.mgmtStat 0 2 = 0 → s.imageOk img = true → img.runs = true → Answers (.imageVerified img) s fun t =>
      t.rb R.mgmtStat 2 = true ∧ t.reg R.mgmtFwVer = Word.ofNat img.version ∧ t.sec.runM = img.mgmtSvn ∧
      t.eng = s.eng ∧ t.bpm = s.bpm ∧ t.dram = s.dram ∧ t.as = s.as ∧ t.tim = s.tim ∧ t.slots = s.slots) ∧
    (s.isMgr = false → s.rf R.mgmtStat 0 2 = 0 → s.imageOk img = false → Answers (.imageVerified img) s fun t =>
      t.sec = { s.sec with audit := s.sec.audit + 1 } ∧ s.Keeps [.sec, .mctp, .draws] t) ∧
    (s.isMgr = true → k ∈ s.boot.tried → s.boot.started = true → s.rb R.mgmtStat 2 = false →
      Answers .slotRunningTimeout s fun t => (t.mgmt.slot k).st = .failed ∧ t.boot.started = false ∧ t.boot.trying ≠ some k ∧
        t.sec = { s.sec with audit := s.sec.audit + 1 } ∧ t.eng = s.eng ∧ t.bpm = s.bpm ∧ t.dram = s.dram) ∧
    ((s.isMgr = false ∨ s.boot.started = false ∨ s.rb R.mgmtStat 2 = true) → exec .slotRunningTimeout s = .next s) ∧
    (s.mgmtUp = true → Answers .watchdogExpiry s fun t =>
      t.rb R.mgmtStat 2 = false ∧ t.rf R.mgmtStat 0 2 = (if 2 ≤ s.wdtRecent.length then 2 else 1) ∧
      t.rn R.mgmtWdtCnt = min 0xFFFFFFFF (s.rn R.mgmtWdtCnt + 1) ∧ t.mgmt.updBusy = false ∧
      s.Keeps [.mgmt, .reg R.mgmtStat, .reg R.mgmtWdtCnt, .reg R.mgmtUpdStat] t) ∧
    (s.mgmtUp = false → exec .watchdogExpiry s = .next s)

/-- R54, R72, R152, R420: the end of a channel's training records its rate, capacity and outcome; one that fails sets the channel's FAIL and
RAS_STAT's DRAM_FAIL. DRAM is usable only when the training of every channel succeeded. When the zeroisation ends,
every byte of the extents that waited reads 0, TOP_STAT.ZEROING clears and the extents are forgotten; no byte outside them changes.
When a PF FLR is done, configuration requests are answered again. -/
def Obligations.TrainingZeroisationAndFunctionResetEnd : Prop :=
  (∀ (s : State) (ch rate cap ranks : Nat) (ok : Bool), ch < 8 → Answers (.memcTrainingDone ch rate cap ranks ok) s fun t =>
    t.rf (R.memcCfg ch) 0 4 = rate % 16 ∧ t.rf (R.memcCfg ch) 4 4 = cap % 16 ∧ t.rb (R.memcCfg ch) 9 = ok ∧
    t.rb (R.memcTrainStat ch) 0 = true ∧ t.rb (R.memcTrainStat ch) 1 = !ok ∧
    t.rf (R.memcTrainStat ch) 8 8 = min 255 (s.rf (R.memcTrainStat ch) 8 8 + 1) ∧
    (ok = false → t.rb R.rasStat 3 = true ∧ t.usable = 0) ∧
    (∀ j, j < 8 → j ≠ ch → t.reg (R.memcCfg j) = s.reg (R.memcCfg j) ∧ t.reg (R.memcTrainStat j) = s.reg (R.memcTrainStat j)) ∧
    t.dram = s.dram ∧ t.marks = s.marks ∧ t.bpm = s.bpm ∧ t.eng = s.eng ∧ t.sec = s.sec ∧ t.slots = s.slots ∧ t.tim = s.tim) ∧
  (∀ s : Dev, (∃ j, j < 8 ∧ s.rb (R.memcCfg j) 9 = false) → s.usable = 0) ∧
  (∀ s : State,
    (s.boot.zero ≠ [] → s.boot.waitEn = [] → Answers .zeroDone s fun t =>
      (∀ e ∈ s.boot.zero, ∀ a, e.base ≤ a → a < e.base + e.len → t.byte a = 0) ∧
      (∀ a, (∀ e ∈ s.boot.zero, a < e.base ∨ e.base + e.len ≤ a) → t.byte a = s.byte a) ∧
      t.boot.zero = [] ∧ t.rb R.topStat 4 = false ∧ s.Keeps [.boot, .dram, .marks, .reg R.topStat, .reg R.rasInjCtl] t) ∧
    (s.boot.zero = [] → exec .zeroDone s = .next s) ∧
    (s.rb R.hifFlrStat 0 = true → Answers .pfFlrDone s fun t =>
      t.hif.rrs = false ∧ t.hif = { s.hif with rrs := false } ∧ t.rb R.hifFlrStat 0 = false ∧
      s.Keeps [.hif, .reg R.hifFlrStat] t) ∧
    (s.rb R.hifFlrStat 0 = false → exec .pfFlrDone s = .next s))

/-- R463: requester values 96 to 127 in BPM_RQ_SEL select no requester: writes of BPM_RQ_QUOTA and BPM_RQ_RESERVE change nothing then, and
BPM_RQ_QUOTA, BPM_RQ_RESERVE and BPM_RQ_USED read 0, whatever quota, reserve and charge the table holds. A write of BPM_RQ_QUOTA
above 1,048,576 changes nothing, whichever requester is selected. -/
def Obligations.RequesterValues96To127SelectNoRequester : Prop :=
  ∀ (s : State) (v : Word),
    (96 ≤ s.rf R.bpmRqSel 8 7 → exec (.bpmRqQuota v) s = .next s ∧ exec (.bpmRqReserve v) s = .next s ∧
      ∀ o ∈ [R.bpmRqQuota, R.bpmRqReserve, R.bpmRqUsed], (s.regRead o).1 = 0) ∧
    (1048576 < v.toNat → exec (.bpmRqQuota v) s = .next s)

/-- R49-R51, R71, R72: a configuration read of the PF or an enabled VF is answered with the dword; before readiness and during its FLR
the PF gives RRS, and a VF that is not enabled UR; a write of a dword that sets nothing else going stores the writable bits that its
byte enables select, clears those that writing 1 clears, and changes no other dword. A worker answers none. The fields that R49 does
not list are the model's choice (notes/assumptions/7). -/
def Obligations.ConfigurationRequestsAreAnswered : Prop :=
  ∀ (s : State) (fn d : Nat) (wr : Option (Word × Nat)) (v : Word) (be : Nat),
    (s.cfgUp = true → (fn = 0 ∨ s.vfOn fn = true) →
      Answers (.configRequest fn d none) s fun t => s.says [.cfgCpl fn (s.cfgRead fn (d % 1024))] t) ∧
    (s.isMgr = true → s.boot.perst = false → s.boot.powered = true → (s.hif.rrs = true ∨ s.inFlr 0 = true) →
      Answers (.configRequest 0 d wr) s fun t => s.says [.cfgRrs 0] t) ∧
    (s.isMgr = true → s.boot.perst = false → s.boot.powered = true → fn ≠ 0 → s.vfOn fn = false →
      Answers (.configRequest fn d wr) s fun t => s.says [.cplUr fn] t) ∧
    (s.cfgUp = true → d < 1024 → d ∉ [1, 0x11, 0x14, 0x1A, 0x22, 0x5A, 0x6C] →
      Answers (.configRequest 0 d (some (v, be))) s fun t =>
        t.cfg 0 d = cfgMerge (s.cfg 0 d) v (s.cfgRw d) (cfgW1c d) (beMask be) ∧
        (∀ n e, e < 1024 → (n ≠ 0 ∨ e ≠ d) → t.cfg n e = s.cfg n e) ∧ t.hif = { s.hif with cfg := t.hif.cfg } ∧
        t.out = .cfgCpl 0 0 :: s.out ∧ s.Keeps [.hif] t) ∧
    (s.isMgr = true → s.boot.perst = false → s.boot.powered = true → fn ≠ 0 → s.vfOn fn = true → d < 1024 →
      d ∉ [1, 0x12, 0x20] → Answers (.configRequest fn d (some (v, be))) s fun t =>
        t.cfg fn d = cfgMerge (s.cfg fn d) v (vfRw d) (vfW1c d) (beMask be) ∧
        (∀ n e, e < 1024 → (n ≠ fn ∨ e ≠ d) → t.cfg n e = s.cfg n e) ∧ t.hif = { s.hif with cfg := t.hif.cfg } ∧
        t.out = .cfgCpl fn 0 :: s.out ∧ s.Keeps [.hif] t) ∧
    (s.isMgr = false → exec (.configRequest fn d wr) s = .next s)

/-- R50, R54, R73, R461: VF Enable is refused without VFs or with more than the slices hold, and clearing it clears the VFs'
configuration space; the BAR size follows a supported encoding while memory space is off, and BAR 2 keeps the address bits that it
leaves; Bus Master Enable lets out what waited for it, in order; a VF's FLR resets its configuration space and detaches its
contexts, and its end resets their pages and sets HIF_VF_DONE. -/
def Obligations.VirtualFunctionsAndBarsFollowConfiguration : Prop :=
  ∀ (s : State) (on : Bool) (n enc : Nat),
    (s.cfgUp = true → on = true → s.vfRefused = false → Answers (.vfEnable on) s fun t =>
      t.vfEn = true ∧ t.numVfs = s.numVfs ∧ (∀ d, d ≠ 0x5A → d < 1024 → t.cfg 0 d = s.cfg 0 d) ∧ s.Keeps [.hif] t) ∧
    (s.cfgUp = true → s.vfEn = false → s.vfRefused = true → exec (.vfEnable true) s = .next s) ∧
    (s.cfgUp = true → s.vfEn = true → Answers (.vfEnable false) s fun t =>
      t.vfEn = false ∧ (∀ f d, 1 ≤ f → d < 1024 → t.cfg f d = cfgReset (f * 1024 + d)) ∧
      (∀ d, d ≠ 0x5A → d < 1024 → t.cfg 0 d = s.cfg 0 d) ∧ s.Keeps [.hif] t) ∧
    (s.cfgUp = true → s.mse 0 = false → 10 ≤ enc → enc ≤ 17 → Answers (.barSize enc) s fun t =>
      t.barEnc = enc ∧ t.cfg 0 6 = (s.cfg 0 6 &&& Word.ofNat (barMask enc)) ||| 0xC ∧
      t.cfg 0 7 = s.cfg 0 7 &&& Word.ofNat (barMask enc / 2 ^ 32) ∧ s.Keeps [.hif] t) ∧
    (s.cfgUp = true → (s.mse 0 = true ∨ enc < 10 ∨ 17 < enc) → exec (.barSize enc) s = .next s) ∧
    (s.cfgUp = true → (n = 0 ∨ s.vfOn n = true) → n < 16 → s.hif.waitQ = [] → Answers (.busMasterEnable n) s fun t =>
      t.bme n = true ∧ (∀ f d, d < 1024 → (f ≠ n ∨ d ≠ 1) → t.cfg f d = s.cfg f d) ∧ s.Keeps [.hif] t) ∧
    (s.cfgUp = true → s.rf R.hifPmStat 0 2 ≠ 3 → ∀ a data, s.hif.waitQ = [.wr 0 a data] → Answers (.busMasterEnable 0) s fun t =>
      t.bme 0 = true ∧ t.hif.waitQ = [] ∧ t.out = .hostWr 0 a data :: s.out ∧ s.Keeps [.hif] t) ∧
    (s.isMgr = true → s.vfOn n = true → s.inFlr n = false → Answers (.vfFlr n) s fun t =>
      t.rb R.hifFlrStat n = true ∧ (∀ c ∈ s.ctxsOfVf n, (t.ctx c).flr = true) ∧
      (∀ d, d < 1024 → t.cfg n d = cfgReset (n * 1024 + d)) ∧ t.boot = s.boot ∧ t.sec = s.sec ∧ t.shop = s.shop ∧
      ((∀ c ∈ s.ctxsOfVf n, s.ctxSt c = 0) → s.Keeps ([.hif, .reg R.hifFlrStat] ++ (s.ctxsOfVf n).map .ctx) t)) ∧
    (n ≠ 0 → s.inFlr n = true → n < 16 → Answers (.vfResetDone n) s fun t =>
      t.rb R.hifFlrStat n = false ∧ t.rb R.hifVfDone n = true ∧
      (∀ c ∈ s.ctxsOfVf n, (t.ctx c).still = ({} : Ctx) ∧
        ∀ o, ctxPage c ≤ o → o < ctxPage c + 0x4000 → reportReg o = false → t.reg o = regReset o) ∧
      s.Keeps ([.reg R.hifFlrStat, .reg R.hifVfDone] ++ (s.ctxsOfVf n).flatMap fun c =>
        [.ctx c, .page (ctxPage c), .page (ctxPage c + 0x1000), .page (ctxPage c + 0x2000), .page (ctxPage c + 0x3000)]) t) ∧
    ((n = 0 ∨ s.inFlr n = false) → exec (.vfResetDone n) s = .next s)

/-- R46, R66, R68, R70: the host link trains at no more than HIF_LINK_CTL allows, and reports when it trains again; with ASPM L1 enabled
an idle link enters L1 or its deepest enabled substate; with PTM enabled the endpoint asks for the time, and the answer ends the
request. -/
def Obligations.HostLinkTrainsSleepsAndAsksForTime : Prop :=
  ∀ (s : State) (v : Word) (speed width master : Nat),
    (s.pfUp = true → s.pageUp R.hifLinkCtl = true → s.isMgr = true → Answers (.hifLinkCtlRetrain v) s fun t =>
      t.rf R.hifLinkCtl 0 4 = (if 1 ≤ v.fld 0 4 ∧ v.fld 0 4 ≤ 5 then v.fld 0 4 else s.rf R.hifLinkCtl 0 4) ∧
      t.rf R.hifLinkCtl 4 6 = (if v.fld 4 6 ∈ [1, 2, 4, 8] then v.fld 4 6 else s.rf R.hifLinkCtl 4 6) ∧
      t.out = .pcie (.retrain (t.rf R.hifLinkCtl 0 4) (t.rf R.hifLinkCtl 4 6)) :: s.out ∧ s.Keeps [.reg R.hifLinkCtl] t) ∧
    (s.isMgr = true → s.boot.perst = false → s.boot.powered = true → Answers (.pcieLinkUp speed width) s fun t =>
      t.rf R.hifLinkStat 0 4 = min (max 1 speed) (s.rf R.hifLinkCtl 0 4) ∧
      t.rf R.hifLinkStat 4 6 = min (linkWidth width) (s.rf R.hifLinkCtl 4 6) ∧ t.rb R.hifLinkStat 10 = true ∧
      t.boot.pmePend = false ∧ (s.boot.pmePend = false → t.boot = s.boot ∧ t.reg R.hifPmStat = s.reg R.hifPmStat) ∧
      s.Keeps [.boot, .hif, .reg R.hifPmStat] t) ∧
    (s.rb R.hifLinkStat 10 = true → (s.cfg 0 0x1C).bit 1 = true → Answers .aspmL1Entry s fun t =>
      t.rf R.hifLinkStat 11 2 = (if (s.cfg 0 0x72).bit 2 then 3 else if (s.cfg 0 0x72).bit 3 then 2 else 1) ∧
      t.rf R.hifLinkStat 0 11 = s.rf R.hifLinkStat 0 11 ∧ s.Keeps [] t ∧ t.out = s.out) ∧
    ((s.rb R.hifLinkStat 10 = false ∨ (s.cfg 0 0x1C).bit 1 = false) → exec .aspmL1Entry s = .next s) ∧
    (s.isMgr = true → (s.cfg 0 0x76).bit 0 = true → s.inD3 = false → Answers .ptmRequest s fun t =>
      t.hif.ptmOut = true ∧ t.tim = { s.tim with ptmMiss := s.tim.ptmMiss + 1 } ∧ t.out.head? = some (.pcie .ptmRequest) ∧
      (s.timeSrc = 2 → 8 ≤ s.tim.ptmMiss → t.rb R.timeStat 0 = false) ∧ s.Keeps [.tim, .hif, .reg R.timeStat] t) ∧
    ((s.isMgr = false ∨ (s.cfg 0 0x76).bit 0 = false ∨ s.inD3 = true) → exec .ptmRequest s = .next s) ∧
    (s.hif.ptmOut = true → (s.timeSrc ≠ 2 ∨ s.rb R.timeStat 1 = true) → Answers (.ptmResponse master) s fun t =>
      t.hif.ptmOut = false ∧ t.tim = { s.tim with ptmMiss := 0 } ∧ s.Keeps [.tim, .hif] t ∧ t.out = s.out) ∧
    (s.hif.ptmOut = false → exec (.ptmResponse master) s = .next s)

/-- R64, R103, R105, R109: a write through BAR 2 stores its bytes and no others, discards every read-ahead line that it overlaps, and,
when the TLP is poisoned, writes the poison code in every sector it touches; one that no function may make changes no memory and is
logged; one whose ECRC fails is dropped. -/
def Obligations.Bar2WritesStoreTheirBytes : Prop :=
  ∀ (s : State) (req fn off a : Nat) (data : List Byte) (poisoned ecrcBad : Bool),
    ((ecrcBad && s.ecrcOn) = false → s.bar2Addr fn off data.length = some a →
      Answers (.bar2Write req fn off data poisoned ecrcBad) s fun t =>
        t.bytes a data.length = data ∧ (∀ k, k < a ∨ a + data.length ≤ k → t.byte k = s.byte k) ∧
        (poisoned = true → ∀ i ∈ sectors a data.length, t.mark i = .poison) ∧
        (poisoned = false → s.rf R.rasInjCtl 0 2 = 0 → ∀ i ∈ sectors a data.length, wholeSector a data.length i = true → t.mark i = .ok) ∧
        (∀ i, i ∉ sectors a data.length → t.mark i = s.mark i) ∧
        (∀ r ∈ t.hif.ahead, ∀ l ∈ r.lines, overlaps l.addr 128 a data.length = false) ∧
        s.Keeps [.hif, .dram, .marks, .bpm, .ras, .mgmt, .regs] t) ∧
    ((ecrcBad && s.ecrcOn) = false → s.bar2Addr fn off data.length = none →
      Answers (.bar2Write req fn off data poisoned ecrcBad) s fun t => s.Keeps [.hif] t ∧ s.SameBytes t ∧
        (t.cfg 0 0x41).bit 20 = true) ∧
    ((ecrcBad && s.ecrcOn) = true → Answers (.bar2Write req fn off data poisoned ecrcBad) s fun t =>
      s.Keeps [.hif] t ∧ s.SameBytes t ∧ (t.cfg 0 0x41).bit 19 = true)

/-- R65, R104, R108, R406, R420: a read through BAR 2 of a page that is not PREFETCH_OK discards its requester's lines and completes with
the bytes of DRAM, zeros in place of those that the Vent blocks; one that no function may make completes with UR; one of a register
completes with the register and discards its requester's lines too. No read changes a byte of memory. -/
def Obligations.ReadsCompleteWithWhatTheyMaySee : Prop :=
  ∀ (s : State) (req fn off len a line : Nat) (ecrcBad : Bool), (ecrcBad && s.ecrcOn) = false →
    (s.bar2Addr fn off len = some a → s.pfOf (a / 4096) = none → Answers (.bar2Read req fn off len ecrcBad) s fun t =>
      (∃ ep, t.out.head? = some (.cpl req ((List.range len).map fun i =>
        if (s.bar2Byte (a + i)).2 then 0 else s.byte (a + i)) ep)) ∧ t.linesOf req = [] ∧ s.SameBytes t ∧
      s.Keeps [.hif, .marks, .bpm, .ras, .mgmt, .vent, .sec, .regs] t) ∧
    (s.bar2Addr fn off len = none → Answers (.bar2Read req fn off len ecrcBad) s fun t =>
      t.out.head? = some (.cplUr req) ∧ s.Keeps [.hif] t) ∧
    (s.isMgr = true → s.barMay (.host 0) = true → off % 4 = 0 → off < 0x800000 → Answers (.acquireRead req 0 0 off 4 ecrcBad) s fun t =>
      t.out.head? = some (.cpl req (bytesOf 4 (((s.perf 0x6000 1 1).acquire req).regRead off).1.toNat) false) ∧
      t.linesOf req = [] ∧ s.SameBytes t ∧ t.marks = s.marks ∧ t.slots = s.slots ∧ t.tim = s.tim ∧ t.boot = s.boot) ∧
    (s.isMgr = true → s.barMay (.host fn) = false → Answers (.acquireRead req fn 0 off len ecrcBad) s fun t =>
      t.out.head? = some (.cplUr req) ∧ s.Keeps [.hif] t) ∧
    Answers (.readaheadLineExpiry req fn line) s (fun t =>
      (∀ l ∈ t.linesOf req, ¬(l.fn = fn ∧ l.addr = line)) ∧
      (∀ l ∈ s.linesOf req, ¬(l.fn = fn ∧ l.addr = line) → l ∈ t.linesOf req) ∧
      (∀ q, q ≠ req → t.linesOf q = s.linesOf q) ∧ t.hif = { s.hif with ahead := t.hif.ahead } ∧ s.Keeps [.hif] t)

/-- R59, R61, R62: a completion brings its bytes to the read that holds the tag, and the last one of an operand record hands it to its
context; one with a quarantined tag is late, counted, and reported once; one with a tag that nobody holds is logged. A read that times
out leaves its tag in quarantine and is counted; when the quarantine ends the tag is free again. -/
def Obligations.TagsAndCompletions : Prop :=
  ∀ (s : State) (tag : Nat) (data : List Byte) (r : HRead) (told : Bool),
    (s.hif.quar.find? (·.1 == tag) = none → s.hif.reads.find? (·.tag == tag) = some r →
      Answers (.completionReceived tag data false false false) s fun t =>
        t.hif = { s.hif with reads := s.hif.reads.filter (·.tag != tag) ++ [{ r with got := r.got ++ data }] } ∧
        t.out = s.out ∧ s.Keeps [.hif] t) ∧
    (∀ c, s.hif.quar.find? (·.1 == tag) = none → s.hif.reads.find? (·.tag == tag) = some r → r.for_ = .operand c → r.bad = false →
      r.fn = 0 → s.ctxSt c = 1 → Answers (.completionReceived tag data true false false) s fun t =>
        (t.ctx c).opData = some (r.got ++ data) ∧ (∀ x ∈ t.hif.reads, x.tag ≠ tag ∨ x ∈ s.hif.tagQ.map fun q => { q with tag }) ∧
        s.Keeps [.hif, .ctx c, .reg R.hifTagStat] t) ∧
    (s.hif.quar.find? (·.1 == tag) = some (tag, told) → Answers (.completionReceived tag data true false false) s fun t =>
      t.rn R.hifLateCplCnt = min 0xFFFFFFFF (s.rn R.hifLateCplCnt + 1) ∧ t.hif.reads = s.hif.reads ∧
      t.hif.quar.find? (·.1 == tag) = some (tag, true) ∧ s.Keeps [.hif, .reg R.hifLateCplCnt] t) ∧
    (s.hif.quar.find? (·.1 == tag) = none → s.hif.reads.find? (·.tag == tag) = none →
      Answers (.completionReceived tag data true false false) s fun t =>
        t.hif.reads = s.hif.reads ∧ t.hif.quar = s.hif.quar ∧ (t.cfg 0 0x41).bit 16 = true ∧ s.Keeps [.hif] t) ∧
    (s.hif.reads.find? (·.tag == tag) = some r → r.for_ = .dead → s.hif.tagQ = [] → Answers (.readTimeout tag) s fun t =>
      t.hif.quar = s.hif.quar ++ [(tag, false)] ∧ t.hif.reads = s.hif.reads.filter (·.tag != tag) ∧
      t.rn R.hifRdToCnt = min 0xFFFFFFFF (s.rn R.hifRdToCnt + 1) ∧ s.Keeps [.hif, .reg R.hifRdToCnt, .reg R.hifTagStat] t) ∧
    (∀ c k, s.isMgr = true → c ≠ 0 → s.hif.reads.find? (·.tag == tag) = some r → r.for_ = .sq c k → s.hif.tagQ = [] → s.ctxSt c = 1 →
      Answers (.readTimeout tag) s fun t => t.hif.quar = s.hif.quar ++ [(tag, false)] ∧ t.ctxSt c = 2) ∧
    (s.hif.reads.find? (·.tag == tag) = none → exec (.readTimeout tag) s = .next s) ∧
    Answers (.tagQuarantineEnd tag) s (fun t => t.hif.quar = s.hif.quar.filter (·.1 != tag) ∧ s.Keeps [.hif, .reg R.hifTagStat] t)

/-- R26, R28-R30, R32: writes of the header registers of a block that runs. BLK_IRQ_STAT clears the bits written 1, BLK_IRQ_SET sets
the assigned ones, BLK_IRQ_EN takes the assigned ones; a request that is asserted after the write sends a message, none otherwise; a
1 in BLK_ERR_CAPT0.VALID re-arms the capture and clears MORE. Nothing else changes. -/
def Obligations.HeaderRegistersOfABlock : Prop :=
  ∀ (s : State) (page : Nat) (v : Word), s.pfUp = true → s.pageUp (pageBase page) = true → pageBase page ≠ 0x71000 →
    Answers (.blkIrqStatWrite page v) s (fun t =>
      t.reg (hdrPage page + R.irqStat) = s.reg (hdrPage page + R.irqStat) &&& ~~~v ∧
      (t.irqOn (hdrPage page) = false → t.out = s.out) ∧
      (t.irqOn (hdrPage page) = true → s.rf (hdrPage page + R.irqRoute) 0 2 = 1 → t.out = .mgmtIrq (hdrPage page) :: s.out) ∧
      s.Keeps [] t) ∧
    Answers (.blkIrqEnWrite page v) s (fun t =>
      t.reg (hdrPage page + R.irqEn) = v &&& irqMask (hdrPage page) ∧ (t.irqOn (hdrPage page) = false → t.out = s.out) ∧
      s.Keeps [.reg (hdrPage page + R.irqEn)] t) ∧
    Answers (.blkIrqSet page v) s (fun t =>
      t.reg (hdrPage page + R.irqStat) = s.reg (hdrPage page + R.irqStat) ||| (v &&& irqMask (hdrPage page)) ∧
      (t.irqOn (hdrPage page) = false → t.out = s.out) ∧ s.Keeps [] t) ∧
    Answers (.blkErrCaptValid page v) s (fun t =>
      (v.bit 31 = true → t.rb (hdrPage page + R.capt 0) 31 = false ∧ t.rf (hdrPage page + R.capt 5) 0 16 = 0) ∧
      (v.bit 31 = false → t.reg (hdrPage page + R.capt 0) = s.reg (hdrPage page + R.capt 0)) ∧ t.out = s.out ∧ s.Keeps [] t)

/-- R12, R25, R33, R38, R39: a block soft reset holds the blocks of its page group in reset until it is done and, where no work of the
block is under way, resets the registers that R39 does not keep and changes no other page; a quiesce request clears QUIESCED, which the
block reports once nothing is outstanding; PERF_FREEZE holds the counters. -/
def Obligations.SoftResetQuiesceAndFreezeOfABlock : Prop :=
  ∀ (s : State) (page : Nat) (v : Word),
    (s.pfUp = true → s.pageUp (pageBase page) = true → pageBase page ≠ 0x71000 → hdrPage page < 0x400000 →
      Answers (.srst page v) s fun t => t.rb (hdrPage page + R.ctl) 1 = true ∧
        ((s.busPosted (.host 0)).srstWork (hdrPage page) = s.busPosted (.host 0) → hdrPage page / 0x1000 ∉ [1, 2, 5] →
          (∀ o, pageBase o ∈ groupPages (hdrPage page) → srstKeeps o = false → o ≠ pageBase o + R.ctl → reportReg o = false →
            t.reg o = regReset o) ∧
          (∀ o, srstKeeps o = true → o ≠ pageBase o + R.ctl → reportReg o = false → t.reg o = s.reg o) ∧
          s.Keeps ((groupPages (hdrPage page)).map .page) t)) ∧
    (hdrPage page < 0x400000 → s.rb (hdrPage page + R.ctl) 1 = true → Answers (.srstDone page) s fun t =>
      t.rb (hdrPage page + R.ctl) 1 = false ∧
      (hdrPage page / 0x1000 ∉ [7, 0x10, 0x78, 0x79, 0x7A] → hdrPage page < 0x100000 →
        s.Keeps ((groupPages (hdrPage page)).map fun g => .reg (g + R.ctl)) t)) ∧
    ((0x400000 ≤ hdrPage page ∨ s.rb (hdrPage page + R.ctl) 1 = false) → exec (.srstDone page) s = .next s) ∧
    (s.pfUp = true → s.pageUp (pageBase page) = true → pageBase page ≠ 0x71000 → v.bit 2 = true →
      s.rb (hdrPage page + R.ctl) 2 = false → Answers (.quiesceReq page v) s fun t =>
        t.rb (hdrPage page + R.ctl) 2 = true ∧ t.rb (hdrPage page + R.ctl) 0 = v.bit 0 ∧ t.rb (hdrPage page + R.stat) 0 = false ∧
        t.out = s.out ∧ s.Keeps [.draws, .reg (hdrPage page + R.ctl), .reg (hdrPage page + R.stat)] t) ∧
    (s.rb (hdrPage page + R.ctl) 2 = true → s.rb (hdrPage page + R.ctl) 1 = false → s.outstanding (hdrPage page) = false →
      Answers (.quiesced page) s fun t =>
        t.rb (hdrPage page + R.stat) 0 = true ∧ t.out = s.out ∧ s.Keeps [.reg (hdrPage page + R.stat)] t) ∧
    ((s.rb (hdrPage page + R.ctl) 2 = false ∨ s.outstanding (hdrPage page) = true) → exec (.quiesced page) s = .next s) ∧
    (s.pfUp = true → s.pageUp (pageBase page) = true → pageBase page ≠ 0x71000 → v.bit 2 = s.rb (hdrPage page + R.ctl) 2 →
      Answers (.perfFreeze page v) s fun t =>
        t.rb (hdrPage page + R.ctl) 3 = v.bit 3 ∧ (v.bit 3 = true → ∀ i d, t.perf (hdrPage page) i d = t) ∧ t.out = s.out ∧
        s.Keeps [.draws, .reg (hdrPage page + R.ctl)] t)

/-- R13, R14, R24, R25, R37, R386, R387: a port is isolated when its island is off or every block of it is quiesced, and is refused
otherwise; isolation is cleared, but not a worker's HIF's; a frequency request in the domain's range and step is taken, and a running
island then stops its clock to retune, until it relocks at the frequency that its level allows; an island that may be gated is gated
and switched on, and a gated core loses its state, its activation store too unless RETAIN keeps it. -/
def Obligations.PortsClocksAndIslands : Prop :=
  ∀ (s : State) (v : Word) (i : Nat), i < 26 →
    (s.pfUp = true → s.pageUp R.nocPortIsoSet = true → Answers (.nocPortIsoSet v) s fun t =>
      t.rb R.nocPortIso i = (s.rb R.nocPortIso i ||
        (isoIsl.contains i && v.bit i && (!s.islOn i || (islPages i).all s.quiesced))) ∧
      t.rb R.nocErrStat 0 = (s.rb R.nocErrStat 0 || isoIsl.any fun j => v.bit j && s.islOn j && !(islPages j).all s.quiesced) ∧
      t.out = s.out ∧ s.Keeps [.reg R.nocPortIso, .reg R.nocErrStat] t) ∧
    (s.pfUp = true → s.pageUp R.nocPortIsoClr = true → Answers (.nocPortIsoClr v) s fun t =>
      t.rb R.nocPortIso i = (s.rb R.nocPortIso i && !(isoIsl.contains i && v.bit i && (i != 16 || s.isMgr))) ∧
      t.out = s.out ∧ s.Keeps [.reg R.nocPortIso] t) ∧
    (s.inD3 = false → domOf i ≠ 3 → freqOk (domOf i) (v.fld 0 11) = true →
      (s.govEn = true ∨ v.fld 0 11 ≤ vselMax (domOf i) (s.rf (R.pwrIslCtl i) 2 2)) → Answers (.clkIslFreq i v) s fun t =>
        t.reg (R.clkIslFreq i) = Word.ofNat (v.fld 0 11) ∧ t.rb (R.clkIslStat i) 1 = false ∧
        (s.islRuns i = true → s.rf (R.clkIslStat i) 4 12 ≠ t.freqWant i → t.rb (R.clkIslStat i) 0 = false) ∧ t.out = s.out ∧
        s.Keeps [.reg (R.clkIslFreq i), .reg (R.clkIslStat i), .reg (R.pwrIslCtl i)] t) ∧
    (s.inD3 = false → domOf i ≠ 3 → freqOk (domOf i) (v.fld 0 11) = false → Answers (.clkIslFreq i v) s fun t =>
      t.rb (R.clkIslStat i) 1 = true ∧ t.reg (R.clkIslFreq i) = s.reg (R.clkIslFreq i) ∧ t.out = s.out ∧
      s.Keeps [.reg (R.clkIslStat i)] t) ∧
    (s.islRuns i = true → s.rb (R.clkIslStat i) 0 = false → Answers (.islandRelock i) s fun t =>
      t.rb (R.clkIslStat i) 0 = true ∧ (domOf i ≠ 3 → t.rf (R.clkIslStat i) 4 12 = s.freqWant i) ∧ t.out = s.out ∧
      s.Keeps [.reg (R.clkIslStat i), .reg (R.pwrIslCtl i)] t) ∧
    ((s.islRuns i = false ∨ s.rb (R.clkIslStat i) 0 = true) → exec (.islandRelock i) s = .next s) ∧
    (s.inD3 = false → v.bit 0 = true → s.rf (R.pwrIslCtl i) 4 2 = 0 → Answers (.pwrIslCtl i v) s fun t =>
      t.islRuns i = true ∧ t.rb (R.pwrIslCtl i) 0 = true ∧ t.rb (R.pwrIslCtl i) 1 = v.bit 1 ∧ t.rb (R.clkIslStat i) 0 = false ∧
      t.out = s.out ∧ s.Keeps [.reg (R.clkIslStat i), .reg (R.pwrIslCtl i)] t) ∧
    (s.inD3 = false → v.bit 0 = false → i < 16 → s.rf (R.pwrIslCtl i) 4 2 ≠ 0 → Answers (.pwrIslCtl i v) s fun t =>
      t.islRuns i = false ∧ t.core i = {} ∧ (∀ k, k ≠ i → t.core k = s.core k) ∧
      (∀ o, o < 2 ^ 23 → t.asByte i o = if v.bit 1 then s.asByte i o else 0) ∧
      (∀ k o, k ≠ i → o < 2 ^ 23 → t.asByte k o = s.asByte k o) ∧ t.out = s.out ∧
      s.Keeps ([.eng, .as, .asMarks, .reg (R.clkIslStat i), .reg (R.pwrIslCtl i)] ++ (islPages i).map .page) t) ∧
    (s.inD3 = false → gateable i = false → Answers (.pwrIslCtl i v) s fun t => t.rb (R.pwrIslCtl i) 0 = true ∧
      s.Keeps [.reg (R.clkIslStat i), .reg (R.pwrIslCtl i)] t)

/-- R5, R36, R40-R43: a register that has no effect of its own takes a full write by its access codes, and nothing else changes; a
partial write changes no register but the capture, which records PARTIAL_WRITE; a remote access to unit 0 is a local one, one to an
absent or lost unit is dropped, and its read completes with 0 and REMOTE_LOST; one to a unit that is there becomes a transaction, whose
read, unanswered in time, completes with 0. -/
def Obligations.RegisterAndRemoteAccesses : Prop :=
  ∀ (s : State) (src : Src) (u off be txid : Nat) (v : Word),
    (∀ (p : PageInfo) (d : RegDesc), s.barMay (.host 0) = true → off % 4 = 0 → off < 0x400000 → pageBase off ≠ 0x71000 →
      s.pageUp off = true → 0x100 ≤ off % 0x1000 → pageAt off = some p → findReg p.regs (off % 0x1000) = some d →
      (s.busPosted (.host 0)).wrSpecial (.host 0) off v = none → Answers (.registerWrite (.host 0) 0 off [(v, 15)] false false) s fun t =>
        t.reg off = ((s.reg off &&& ~~~(Word.ofNat d.rw ||| Word.ofNat d.w1c)) ||| (v &&& Word.ofNat d.rw)) |||
          (s.reg off &&& Word.ofNat d.w1c &&& ~~~v) ∧ t.out = s.out ∧ s.Keeps [.reg off] t) ∧
    (s.barMay (.host 0) = true → off % 4 = 0 → off < 0x800000 → be ≠ 15 → s.rb (R.capt 0) 31 = false →
      Answers (.registerWrite (.host 0) 0 off [(v, be)] false false) s fun t =>
        t.rb (R.capt 0) 31 = true ∧ t.rn (R.capt 1) = off ∧ t.rn (R.capt 3) = 2 ∧ t.out = s.out ∧ s.Keeps [] t) ∧
    (s.isMgr = true → u < 16 → u ≠ 0 → s.remoteUnit u = false → s.rb (0x7A000 + R.capt 0) 31 = false →
      Answers (.remoteRead src u off) s fun t => t.out = .cpl src.req [0, 0, 0, 0] false :: s.out ∧
        t.rn (0x7A000 + R.capt 3) = 4 ∧ t.rn (0x7A000 + R.capt 1) = 0x800000 + u * 0x400000 + off % 0x400000 / 4 * 4 ∧ s.Keeps [] t) ∧
    (s.isMgr = true → u < 16 → u ≠ 0 → s.remoteUnit u = false → Answers (.remoteWrite src u off v 15) s fun t =>
      t.out = s.out ∧ s.Keeps [] t) ∧
    (s.isMgr = true → u < 16 → u ≠ 0 → s.remoteUnit u = true → (s.chain.out.filter fun t => t.dst = u ∧ t.vc = 3).length < 256 →
      Answers (.remoteRead src u off) s (fun t => (∃ x ∈ t.chain.out, x.dst = u ∧ x.what = .regRead src.req ∧
        x.frame.payload = bytesOf 4 (off % 0x400000 / 4 * 4)) ∧ s.Keeps [.chain] t) ∧
      Answers (.remoteWrite src u off v 15) s (fun t => (∃ x ∈ t.chain.out, x.dst = u ∧ x.what = .regWrite ∧
        x.frame.payload = bytesOf 4 (off % 0x400000 / 4 * 4) ++ bytesOf 4 v.toNat) ∧ s.Keeps [.chain] t)) ∧
    (∀ x req, s.chain.out.find? (fun t => t.vc == 3 && t.txid == txid && (match t.what with | .regRead _ => true | _ => false)) = some x →
      x.what = .regRead req → Answers (.remoteReadTimeout txid) s fun t =>
        t.out = .cpl req [0, 0, 0, 0] false :: s.out ∧ s.Keeps [.chain] t) ∧
    (s.isMgr = false → exec (.remoteRead src u off) s = .next s ∧ exec (.remoteWrite src u off v be) s = .next s)

/-- R12, R76-R78, R89-R91, R112: CTX_OPEN of a CLOSED context whose rings are legal opens it with an empty window and empty rings, and is
refused with CTX_STAT.CFG_ERR otherwise; no other function may open it, and context 0 is never opened. CTX_RESET puts a context into
RESETTING and drops what it holds; when the teardown has ended it is CLOSED and cleared. DEV_EVENTS is held by one context of the PF.
CTX_PF_CTL enables each range that R112 allows and discards the lines of the others. The end of a fault's teardown is an event. -/
def Obligations.ContextsOpenResetAndFault : Prop :=
  ∀ (s : State) (src : Src) (c : Nat) (v : Word),
    (s.pageMay src c = true → c ≠ 0 → s.ctxSt c = 0 → s.openBad c (v.bit 3) = false → Answers (.ctxOpen src c v) s fun t =>
      t.ctxSt c = 1 ∧ t.rb (R.ctxStat c) 2 = false ∧ t.rb (R.ctxCtl c) 0 = true ∧ t.rb (R.ctxCtl c) 3 = v.bit 3 ∧
      t.reg (R.ctxSeqHigh c) = s.reg (R.ctxSeqInit c) - 1 ∧ (∀ r, r < 4 → t.reg (R.ctxRingCnt c r) = 0) ∧
      (∀ i, i < 64 → t.rb (R.ctxWinStatus c i) 31 = false) ∧ t.ctx c = { hbSeq := (s.ctx c).hbSeq } ∧ t.out = s.out ∧
      s.Keeps [.ctx c, .reg (R.ctxStat c), .reg (R.ctxCtl c), .reg (R.ctxSeqHigh c), .page (ctxPage c + 0x3000)] t) ∧
    (s.pageMay src c = true → c ≠ 0 → s.ctxSt c = 0 → s.openBad c (v.bit 3) = true → Answers (.ctxOpen src c v) s fun t =>
      t.ctxSt c = 0 ∧ t.rb (R.ctxStat c) 2 = true ∧ t.out = s.out ∧ s.Keeps [.reg (R.ctxStat c), .reg (R.ctxCtl c)] t) ∧
    ((s.pageMay src c = false ∨ c = 0) → Answers (.ctxOpen src c v) s fun t =>
      t.ctxSt c = s.ctxSt c ∧ t.out = s.out ∧ s.Keeps [.reg (R.ctxCtl c)] t) ∧
    (s.pageMay src c = true → c ≠ 0 → s.ctxSt c ≠ 3 → s.eng = {} → s.tim.ents = [] → s.slotOf c = none → (s.ctx c).mqWait = [] →
      Answers (.ctxReset src c v) s fun t => t.ctxSt c = 3 ∧ t.rb (R.ctxCtl c) 1 = true ∧ t.rb (R.ctxCtl c) 0 = false ∧
        (t.ctx c).sq = [] ∧ (t.ctx c).run = [] ∧ (∃ x, (t.ctx c).tear = some x ∧ x.status = none) ∧
        s.Keeps [.ctx c, .hif, .reg (R.ctxStat c), .reg (R.ctxCtl c), .reg 0x50108, .reg 0x51108, .reg 0x52108, .reg 0x60108, .reg 0x68108,
          .reg R.vencStat, .reg R.vencCurClip, .reg R.vencCurPic] t) ∧
    (s.ctxSt c = 3 → Answers (.ctxResetDone c) s fun t => t.ctxSt c = 0 ∧ t.reg (R.ctxStat c) = 0 ∧ t.reg (R.ctxSeqHigh c) = 0 ∧
      t.reg (R.ctxDbErr c) = 0 ∧ t.reg (R.ctxFullCnt c) = 0 ∧ (∀ r, r < 4 → t.reg (R.ctxRingCnt c r) = 0) ∧
      t.rb (R.ctxCtl c) 1 = false ∧ t.ctx c = { flr := (s.ctx c).flr } ∧ (∀ x ∈ t.staged, x.ring ≠ c) ∧ t.out = s.out ∧
      s.Keeps [.ctx c, .reg (R.ctxStat c), .reg (R.ctxCtl c), .reg (R.ctxSeqHigh c), .reg (R.ctxDbErr c), .reg (R.ctxFullCnt c),
        .page (ctxPage c + 0x3000), .reg R.schedTeardownMax] t) ∧
    (s.ctxSt c ≠ 3 → exec (.ctxResetDone c) s = .next s) ∧
    (s.pageMay src c = true → c ≠ 0 → s.ctxVf c = 0 → s.boot.dramFail = false → v.bit 0 = false → v.bit 2 = true → s.ctxSt c ≠ 0 →
      (∀ o, o < 256 → o ≠ c → s.rb (R.ctxCtl o) 2 = false) → Answers (.devEvents src c v) s fun t =>
        t.rb (R.ctxCtl c) 2 = true ∧ t.out = s.out ∧ s.Keeps [.reg (R.ctxCtl c)] t) ∧
    (∀ o, s.boot.dramFail = false → v.bit 0 = false → v.bit 2 = true → s.ctxSt c ≠ 0 → o < 256 → o ≠ c → s.rb (R.ctxCtl o) 2 = true →
      Answers (.devEvents src c v) s fun t => t.out = s.out ∧ s.Keeps [] t) ∧
    (s.pageMay src c = true → Answers (.ctxPfCtl src c v) s fun t =>
      (∀ i, i < 16 → t.pfOn c i = (v.bit i && (s.pfOn c i || decide (s.pfReason c i = 0)))) ∧
      (∀ i, i < 16 → v.bit i = true → s.pfOn c i = false → s.pfReason c i ≠ 0 → t.rb (R.ctxPfStat c) i = true) ∧
      (∀ i, i < 16 → v.bit i = false → s.pfOn c i = true → ∀ r ∈ t.hif.ahead, ∀ l ∈ r.lines, s.lineIn c i l = false) ∧
      t.hif = { s.hif with ahead := t.hif.ahead } ∧ t.out = s.out ∧
      s.Keeps [.hif, .reg (R.ctxPfCtl c), .reg (R.ctxPfStat c)] t) ∧
    (∀ x st, c < 256 → (s.ctx c).tear = some x → x.status = some st → s.isMgr = true → s.ctxSt c = 2 → s.ringTakes c 2 = true → s.staged = [] →
      s.lost = [] → s.hifHeld (s.ctxVec c).1 = false → Answers (.teardownDone c) s fun t =>
        (t.ctx c).tear = none ∧
        .hostWr (s.ctxVec c).1 (s.ringBase c 2 + s.rn (R.ctxRingCnt c 2) % s.ringLen c 2 * 32)
          (bytesOfWords (({ nm := st.nm, blk := st.blk, ctx := some c, d0 := x.seq, d1 := s.rn (R.ctxRingCnt c 0), d2 := x.d2, d3 := x.core
                            unit := s.addr, plane := planeOf st.blk, time := s.ns } : Event).words 0
            (s.phase c 2 (s.rn (R.ctxRingCnt c 2))))) ∈ t.out ∧ s.Keeps [.ctx c, .reg R.schedTeardownMax] t) ∧
    ((s.ctx c).tear = none → exec (.teardownDone c) s = .next s)

/-- R12, R80, R92, R94, R95, R100: a staged event whose ring takes it is written to it in one record; the oldest waiting metadata record is
written to the MQ when that takes it; a ring with unannounced records becomes due at its moderation time and sends one message, which
announces every ring's. Otherwise these change nothing. -/
def Obligations.RecordsReachTheirRings : Prop :=
  ∀ (s : State) (plane c r : Nat),
    (∀ (ring : Nat) (e : Event), s.staged = [{ plane, ring, ev := e }] → s.ringCtx ring = some c → s.ringTakes c 2 = true → s.lost = [] →
      s.hifHeld (s.ctxVec c).1 = false → Answers (.stagedEventWrite plane) s fun t =>
        t.staged = [] ∧ t.reg (R.ctxRingCnt c 2) = s.reg (R.ctxRingCnt c 2) + 1 ∧
        .hostWr (s.ctxVec c).1 (s.ringBase c 2 + s.rn (R.ctxRingCnt c 2) % s.ringLen c 2 * 32)
          (bytesOfWords (e.words 0 (s.phase c 2 (s.rn (R.ctxRingCnt c 2))))) ∈ t.out ∧ s.Keeps [] t) ∧
    ((∀ x ∈ s.staged, x.plane ≠ plane ∨ s.evTakes x.ring = false) → exec (.stagedEventWrite plane) s = .next s) ∧
    (∀ x l, (s.ctx c).mqWait = x :: l → x.unit = 0 → s.ringTakes c 3 = true → s.hifHeld (s.ctxVec c).1 = false →
      Answers (.metadataRecord c) s fun t =>
        (t.ctx c).mqWait = l ∧ t.reg (R.ctxRingCnt c 3) = s.reg (R.ctxRingCnt c 3) + 1 ∧
        .hostWr (s.ctxVec c).1 (s.ringBase c 3 + s.rn (R.ctxRingCnt c 3) % s.ringLen c 3 *
            (bytesOfWords (x.withPhase (s.phase c 3 (s.rn (R.ctxRingCnt c 3))))).length)
          (bytesOfWords (x.withPhase (s.phase c 3 (s.rn (R.ctxRingCnt c 3))))) ∈ t.out ∧ s.Keeps [.ctx c, .pwr] t) ∧
    (((s.ctx c).mqWait = [] ∨ s.ringTakes c 3 = false) → exec (.metadataRecord c) s = .next s) ∧
    (1 ≤ r → r ≤ 3 → s.modCount c r ≠ 0 → s.rf (R.ctxMod c r) 8 16 ≠ 0 → (s.ctx c).un r ≠ 0 → s.hifHeld (s.ctxVec c).1 = false →
      (s.msixCtl (s.ctxVec c).1).bit 31 = true → (s.msixCtl (s.ctxVec c).1).bit 30 = false →
      (Tab.get msixReset s.hif.msixTab ((s.ctxVec c).1 * 1024 + (s.ctxVec c).2 * 4 + 3)).bit 0 = false →
      Answers (.moderationTimeout c r) s fun t => t.out = .msix (s.ctxVec c).1 (s.ctxVec c).2 :: s.out ∧
        t.ctx c = { s.ctx c with un1 := 0, un2 := 0, un3 := 0 } ∧ s.Keeps [] t) ∧
    ((s.modCount c r = 0 ∨ s.rf (R.ctxMod c r) 8 16 = 0 ∨ (s.ctx c).un r = 0) → exec (.moderationTimeout c r) s = .next s)

/-- R12, R77, R79, R82, R83, R93, R158: a doorbell value that the context may take acts in OPEN, is latched in FAULTED and while SCHED is in
reset, and is dropped in CLOSED and RESETTING; one that is out of range is counted in CTX_DB_ERR; a partial write is PARTIAL_WRITE. A DB_SQ_TAIL
value that announces an entry of a ring in host memory has it read. CTX_IN_DB announces entries of a stream's ring. The end of SCHED's
reset acts on what was latched. -/
def Obligations.DoorbellsActByTheContextsState : Prop :=
  ∀ (s : State) (src : Src) (c i be : Nat) (v : Word), i < 4 →
    (s.isMgr = true → s.inD3 = false → s.dbMay src c = true → (s.ctx c).flr = false →
      (be ≠ 15 → s.rb (R.capt 0) 31 = false → Answers (dbRow i src c v be) s fun t =>
        t.rb (R.capt 0) 31 = true ∧ t.rn (R.capt 3) = 2 ∧ t.reg (R.capt 1) = Word.ofNat (c * 0x1000 + 4 * i) ∧ t.out = s.out ∧
        s.Keeps [] t) ∧
      (s.schedDown = true → Answers (dbRow i src c v 15) s fun t =>
        t.hif = { s.hif with dbLatch := (s.hif.dbLatch.filter fun e => !(e.1 == c && e.2.1 == i)) ++ [(c, i, v.toNat)] } ∧
        t.out = s.out ∧ s.Keeps [.hif] t) ∧
      (s.schedDown = false → s.ctxSt c = 2 → Answers (dbRow i src c v 15) s fun t =>
        t.ctx c = { s.ctx c with latched := ((s.ctx c).latched.filter (·.1 != i)) ++ [(i, v.toNat)] } ∧ t.out = s.out ∧
        s.Keeps [.ctx c] t) ∧
      (s.schedDown = false → (s.ctxSt c = 0 ∨ s.ctxSt c = 3 ∨ (s.ctxSt c = 1 ∧ v.toNat = (s.ctx c).db i)) →
        Answers (dbRow i src c v 15) s fun t => t.out = s.out ∧ s.Keeps [] t) ∧
      (s.schedDown = false → s.ctxSt c = 1 → i ≠ 0 → v.toNat ≠ (s.ctx c).db i → (s.ctx c).sqIssued = (s.ctx c).sqTail → (s.ctx c).sq = [] →
        (v.toNat + 2 ^ 32 - (s.ctx c).db i) % 2 ^ 32 ≤ (s.rn (R.ctxRingCnt c i) + 2 ^ 32 - (s.ctx c).db i) % 2 ^ 32 →
        Answers (dbRow i src c v 15) s fun t => t.ctx c = (s.ctx c).setDb i v.toNat ∧ s.Keeps [.ctx c] t) ∧
      (s.schedDown = false → s.ctxSt c = 1 → v.toNat ≠ (s.ctx c).db i →
        (if i = 0 then s.ringLen c 0 < (v.toNat + 2 ^ 32 - s.rn (R.ctxRingCnt c 0)) % 2 ^ 32
          else (s.rn (R.ctxRingCnt c i) + 2 ^ 32 - (s.ctx c).db i) % 2 ^ 32 < (v.toNat + 2 ^ 32 - (s.ctx c).db i) % 2 ^ 32) →
        Answers (dbRow i src c v 15) s fun t =>
          t.rn (R.ctxDbErr c) = min 0xFFFFFFFF (s.rn (R.ctxDbErr c) + 1) ∧ t.out = s.out ∧ s.Keeps [.reg (R.ctxDbErr c)] t) ∧
      (∀ tag, (s.ctx c).sqTail < 2 ^ 32 → s.schedDown = false → s.ctxSt c = 1 → s.rb (R.ctxCtl c) 3 = false → s.ringFull c 1 = false → (s.ctx c).sq = [] →
        (s.ctx c).sqIssued = (s.ctx c).sqTail → v.toNat = ((s.ctx c).sqTail + 1) % 2 ^ 32 → v.toNat ≠ (s.ctx c).sqTail →
        (v.toNat + 2 ^ 32 - s.rn (R.ctxRingCnt c 0)) % 2 ^ 32 ≤ s.ringLen c 0 → s.hifHeld (s.ctxVec c).1 = false →
        s.nextTag = some tag → Answers (.dbSqTail src c v 15) s fun t =>
          t.ctx c = { s.ctx c with sqTail := v.toNat, sqIssued := v.toNat } ∧
          t.hif.reads = s.hif.reads ++ [{ tag, fn := (s.ctxVec c).1, for_ := .sq c (s.ctx c).sqTail
                                          addr := s.sqAddr c (s.ctx c).sqTail, len := 64 }] ∧
          (∃ l, t.out = l ++ .hostRd (s.ctxVec c).1 tag (s.sqAddr c (s.ctx c).sqTail) 64 :: s.out) ∧
          s.Keeps [.ctx c, .hif, .reg R.hifTagStat] t)) ∧
    ((s.isMgr = false ∨ s.inD3 = true ∨ s.dbMay src c = false ∨ (s.ctx c).flr = true) → Answers (dbRow i src c v be) s fun t =>
      t.out = s.out ∧ s.Keeps [] t) ∧
    (∀ r, s.isMgr = true → s.inD3 = false → s.pageMay src c = true → s.ctxSt c = 1 → s.inRing (v.fld 0 12) = some r → r.ctx = c →
      v.fld 12 20 ≠ r.door →
      ((v.fld 12 20 + 2 ^ 20 - r.fetch % 2 ^ 20) % 2 ^ 20 ≤ 2 ^ r.n → Answers (.ctxInDb src c v 15) s fun t =>
        t.inRing (v.fld 0 12) = some { r with door := v.fld 12 20, doors := r.doors ++ [(v.fld 12 20, s.ns)] } ∧
        (∀ k, k ≠ v.fld 0 12 → t.inRing k = s.inRing k) ∧ t.out = s.out ∧ s.Keeps [.eng] t) ∧
      (2 ^ r.n < (v.fld 12 20 + 2 ^ 20 - r.fetch % 2 ^ 20) % 2 ^ 20 → Answers (.ctxInDb src c v 15) s fun t =>
        t.rn (R.ctxDbErr c) = min 0xFFFFFFFF (s.rn (R.ctxDbErr c) + 1) ∧ t.out = s.out ∧ s.Keeps [.reg (R.ctxDbErr c)] t)) ∧
    ((∀ x ∈ s.ctxs, x.2.sq = [] ∧ x.2.sqIssued = x.2.sqTail) → s.hif.dbLatch = [] → Answers .schedResetEnd s fun t =>
      t.rb (0x7000 + R.ctl) 1 = false ∧ t.rb (0x7000 + R.stat) 0 = false ∧ s.Keeps [.reg (0x7000 + R.ctl), .reg (0x7000 + R.stat)] t) ∧
    ((∀ x ∈ s.ctxs, x.2.sq = [] ∧ x.2.sqIssued = x.2.sqTail) → s.hif.dbLatch = [(c, i, v.toNat)] → 2 ≤ i → s.ctxSt c = 1 →
      s.rf (R.pwrIslCtl 23) 4 2 = 1 → v.toNat ≠ (s.ctx c).db i →
      (v.toNat + 2 ^ 32 - (s.ctx c).db i) % 2 ^ 32 ≤ (s.rn (R.ctxRingCnt c i) + 2 ^ 32 - (s.ctx c).db i) % 2 ^ 32 →
      Answers .schedResetEnd s fun t => t.ctx c = (s.ctx c).setDb i v.toNat ∧ t.hif.dbLatch = [] ∧
        s.Keeps [.hif, .ctx c, .reg (0x7000 + R.ctl), .reg (0x7000 + R.stat)] t)

/-- R84-R86, R88, R93, R96, R209, R210, R227, R338, R339: a host command that may start is taken from its context's queue and ends with
its completion: NOP; MODEL_LOAD of a legal image, whose bytes lie in a pinned buffer afterwards; MODEL_UNLOAD, which frees it, and which
leaves a model that is not the context's alone; GRAPH_STOP of a route that is not active, or of another context's, which POOL_QUOTA
refuses (the model's choices, notes/assumptions/9 and 14). GRAPH_LAUNCH on another unit and GRAPH_STOP of a coach route run on. A completion
is written as one record, its count advances, and the next one comes to the front. -/
def Obligations.CommandsOfModelsAndRoutesEnd : Prop :=
  ∀ (s : State) (c : Nat) (w : List Word),
    (s.Front c 0 w → Answers (.hostNop c) s fun t => s.Done c w .ok 0 t ∧ s.Keeps (cmdParts c w) t) ∧
    (∀ n nl i x bs, s.Front c 1 w → (hAddrAt w 8).dram = false → (s.ctx c).opData = some bs → 64 ≤ (hW w 0x10).toNat →
      imageCheck bs = some (n, nl) → hUnits w = [s.addr] → s.model (hModel w) = none → s.Sound → s.bpmDown = false →
      s.poolEn (hF w 0x18 0 4) = true → s.poolAs (hF w 0x18 0 4) = false → n ≤ s.poolSize (hF w 0x18 0 4) →
      s.poolMay (hF w 0x18 0 4) c = true → s.admits (hF w 0x18 0 4) 77 = none → s.freeHead (hF w 0x18 0 4) = some (i, x) → i < 2 ^ 20 →
      Answers (.modelLoad c) s fun t =>
        t.model (hModel w) = some { ctx := c, mask := hF w 0x14 16 16, h := t.handleOf (hF w 0x18 0 4) i, len := n, nl } ∧
        (t.buf (hF w 0x18 0 4) i).st = .alloc ∧ (t.buf (hF w 0x18 0 4) i).pinned = true ∧ (t.buf (hF w 0x18 0 4) i).ctx = c ∧
        t.bytes (s.poolBase (hF w 0x18 0 4) + i * s.poolSize (hF w 0x18 0 4)) n = bs.take n ∧
        (∀ a, a < s.poolBase (hF w 0x18 0 4) + i * s.poolSize (hF w 0x18 0 4) ∨
          s.poolBase (hF w 0x18 0 4) + i * s.poolSize (hF w 0x18 0 4) + n ≤ a → t.byte a = s.byte a) ∧
        s.Done c w .ok (hModel w) t ∧ s.Keeps (cmdParts c w ++ [.eng, .bpm, .dram]) t) ∧
    (s.Front c 2 w → (s.model (hModel w)).all (fun x => decide (x.ctx ≠ c)) = true → Answers (.modelUnload c) s fun t =>
      s.Done c w .ok 0 t ∧ s.Keeps (cmdParts c w) t) ∧
    (∀ x, s.Front c 2 w → s.model (hModel w) = some x → x.ctx = c → x.gone = false → (∀ u, u < 16 → bitN x.mask u = true → u = s.addr) →
      (∀ r ∈ s.eng.routes, r.2.map (·.model) ≠ some (hModel w)) → (∀ y ∈ s.ctxs, ∀ e ∈ y.2.run, e.op ≠ 2) → s.bpmDown = false →
      s.bpm.waiters = [] → x.h ≠ 0 → s.hValid x.h = true → s.poolMay (hPool x.h) c = true → guarded (s.poolCls (hPool x.h)) = false →
      (s.buf (hPool x.h) (hIdx x.h)).count = 1 → (s.buf (hPool x.h) (hIdx x.h)).poisoned = false →
      (s.buf (hPool x.h) (hIdx x.h)).bad = false → Answers (.modelUnload c) s fun t =>
        t.model (hModel w) = none ∧ (t.buf (hPool x.h) (hIdx x.h)).st = .free ∧ s.Done c w .ok 0 t ∧
        s.Keeps (cmdParts c w ++ [.eng, .bpm]) t) ∧
    (∀ m, s.Front c 3 w → s.model (hModel w) = some m → m.ctx = c → m.gone = false → m.nl = (hCores w).length → hCores w ≠ [] →
      (∀ a ∈ hCores w, a / 16 ≠ s.addr ∧ s.unitIn (a / 16) = true ∧ bitN m.mask (a / 16) = true ∧ (s.bankFor a).isSome = true ∧
        s.rb (R.ctxCoreset c (a / 16)) (a % 16) = true) → s.route (hRoute w) = none → Answers (.graphLaunch c) s fun t =>
        t.route (hRoute w) = some { ctx := c, model := hModel w, map := hCores w, banks := (hCores w).map fun a => (s.bankFor a).getD 0
                                    seq := hSeq w } ∧
        (∃ e ∈ (t.ctx c).run, e.seq = hSeq w ∧ e.await = unitsOf (hCores w)) ∧ t.Started c w ∧
        (∀ q, q ≠ hRoute w → t.route q = s.route q) ∧ s.Keeps (cmdParts c w ++ [.eng]) t) ∧
    (s.Front c 4 w → s.route (hRoute w) = none → Answers (.graphStop c) s fun t =>
      s.Done c w .ok 0 t ∧ s.Keeps (cmdParts c w) t) ∧
    (∀ x, s.Front c 4 w → s.route (hRoute w) = some x → x.ctx ≠ c → Answers (.graphStop c) s fun t =>
      s.Done c w ⟨.poolQuota, 8⟩ 0 t ∧ s.Keeps (cmdParts c w) t) ∧
    (∀ x, s.Front c 4 w → s.route (hRoute w) = some x → x.ctx = c → x.coach ≠ none → x.steps ≠ [] → unitsOf x.map = [s.addr] →
      (∀ y ∈ s.ctxs, ∀ e ∈ y.2.run, e.op ≠ 2) → Answers (.graphStop c) s fun t =>
        t.route (hRoute w) = some { x with stopping := true } ∧ (∀ q, q ≠ hRoute w → t.route q = s.route q) ∧ t.Started c w ∧
        s.Keeps (cmdParts c w ++ [.eng]) t) ∧
    (∀ x r, (s.ctx c).fin = x :: r → s.ringTakes c 1 = true → (s.ctx c).sq = [] → (s.ctx c).sqIssued = (s.ctx c).sqTail →
      s.hifHeld (s.ctxVec c).1 = false → Answers (.commandComplete c) s fun t =>
        (t.ctx c).fin = r ∧ t.reg (R.ctxRingCnt c 1) = s.reg (R.ctxRingCnt c 1) + 1 ∧
        (∃ l, t.out = l ++ .hostWr (s.ctxVec c).1 (s.ringBase c 1 + s.rn (R.ctxRingCnt c 1) % s.ringLen c 1 * 16)
          (bytesOfWords (x.words (s.rn (R.ctxRingCnt c 0)) (s.phase c 1 (s.rn (R.ctxRingCnt c 1))))) :: s.out) ∧
        s.Keeps [.ctx c] t) ∧
    ((s.ctx c).sq = [] → exec (.hostNop c) s = .next s)

/-- R96, R121, R122, R125, R127-R129, R132, R460: BUF_ALLOC takes the head of the free queue with count 1 for its slot, or fails at once
with the first check that R121 does not pass; BUF_REF and BUF_UNREF raise and lower the count and answer with it, an UNREF of a handle
that the slot does not hold is REFCOUNT_UNDERFLOW; POOL_CONFIG enables a pool by its record, or is refused with the reason. A command that
asks for a pool or buffer of this unit needs a slot of its context there. -/
def Obligations.CommandsOfBuffersAndPoolsEnd : Prop :=
  ∀ (s : State) (c k : Nat) (w : List Word), s.slotOf c = some k → k < 64 → hF w 8 0 4 = s.addr → s.bpmDown = false →
    (∀ i x, s.Front c 0x50 w → (hW w 8).bit 8 = false → s.poolMay (hF w 8 4 4) c = true → s.admits (hF w 8 4 4) k = none →
      s.freeHead (hF w 8 4 4) = some (i, x) → s.ledgerFull = false → Answers (.bufAlloc c) s fun t =>
        t.buf (hF w 8 4 4) i = { st := .alloc, count := 1, allocs := (s.buf (hF w 8 4 4) i).allocs + 1, rq := k, ctx := c } ∧
        (∃ e ∈ t.bpm.ledger, e.slot = k ∧ e.h = t.handleOf (hF w 8 4 4) i ∧ 1 ≤ e.n) ∧ t.pool (hF w 8 4 4) = x ∧
        s.Done c w .ok (t.handleOf (hF w 8 4 4) i) t ∧ s.Keeps (cmdParts c w ++ [.bpm]) t) ∧
    (∀ e, s.Front c 0x50 w → (hW w 8).bit 8 = false → s.poolMay (hF w 8 4 4) c = true → s.admits (hF w 8 4 4) k = some e →
      Answers (.bufAlloc c) s fun t => s.Done c w ⟨e, 9⟩ 0 t ∧ s.Keeps (cmdParts c w) t) ∧
    (∀ e, s.Front c 0x50 w → (hW w 8).bit 8 = true → hF w 8 16 16 ≠ 0 → s.poolMay (hF w 8 4 4) c = true →
      s.admits (hF w 8 4 4) k = some e → s.bpm.waiters.length < 128 → Answers (.bufAlloc c) s fun t =>
        t.bpm = { s.bpm with waiters := s.bpm.waiters ++ [{ id := s.bpm.nextId, pool := hF w 8 4 4, rq := k, ctx := c
                                                            who := .cmd c (hSeq w) }], nextId := s.bpm.nextId + 1 } ∧
        t.Started c w ∧ s.Keeps (cmdParts c w ++ [.bpm]) t) ∧
    (s.Front c 0x51 w → s.hValid (hW w 12).toNat = true → s.poolMay (hPool (hW w 12).toNat) c = true →
      0 < (s.buf (hPool (hW w 12).toNat) (hIdx (hW w 12).toNat)).count →
      (s.buf (hPool (hW w 12).toNat) (hIdx (hW w 12).toNat)).count < 65535 → s.ledgerFull = false → Answers (.bufRef c) s fun t =>
        (t.buf (hPool (hW w 12).toNat) (hIdx (hW w 12).toNat)).count = (s.buf (hPool (hW w 12).toNat) (hIdx (hW w 12).toNat)).count + 1 ∧
        s.Done c w .ok ((s.buf (hPool (hW w 12).toNat) (hIdx (hW w 12).toNat)).count + 1) t ∧ s.Keeps (cmdParts c w ++ [.bpm]) t) ∧
    (s.Front c 0x52 w → s.hValid (hW w 12).toNat = true → s.poolMay (hPool (hW w 12).toNat) c = true →
      s.ledgerN k (hW w 12).toNat ≠ 0 → 1 < (s.buf (hPool (hW w 12).toNat) (hIdx (hW w 12).toNat)).count →
      Answers (.bufUnref c) s fun t =>
        (t.buf (hPool (hW w 12).toNat) (hIdx (hW w 12).toNat)).count = (s.buf (hPool (hW w 12).toNat) (hIdx (hW w 12).toNat)).count - 1 ∧
        s.Done c w .ok ((s.buf (hPool (hW w 12).toNat) (hIdx (hW w 12).toNat)).count - 1) t ∧ s.Keeps (cmdParts c w ++ [.bpm]) t) ∧
    (s.Front c 0x52 w → s.hValid (hW w 12).toNat = true → s.poolMay (hPool (hW w 12).toNat) c = true →
      s.ledgerN k (hW w 12).toNat = 0 → 0 < (s.buf (hPool (hW w 12).toNat) (hIdx (hW w 12).toNat)).count →
      Answers (.bufUnref c) s fun t =>
        s.Done c w ⟨.refcountUnderflow, 9⟩ (s.buf (hPool (hW w 12).toNat) (hIdx (hW w 12).toNat)).count t ∧
        t.rb (0x10000 + R.irqStat) 17 = true ∧ s.Keeps (cmdParts c w) t) ∧
    (∀ (q m : Nat → Nat) (g : PoolCfg), s.Front c 0x53 w → s.rb R.topStat 4 = false → hAddrAt w 0x28 = ⟨false, 0⟩ → s.ctxVf c = 0 →
      g = { w0 := (hW w 0x10).toNat, w1 := (hW w 0x14).toNat, w2 := (hW w 0x18).toNat
            base := (hW w 0x20).toNat + (hW w 0x24).toNat * 2 ^ 32 } → q = (fun _ => fldN g.w0 0 21) → m = (fun _ => 0) →
      (hW w 0x18).bit 14 = true → s.poolEn (hF w 8 4 4) = false →
      (s.cfgReason (hF w 8 4 4) (fldN g.w0 0 21) g q m = 0 → s.ras.table = [] → Answers (.poolConfig c) s fun t =>
        t.poolEn (hF w 8 4 4) = true ∧ t.poolCount (hF w 8 4 4) = fldN g.w0 0 21 ∧ t.poolSize (hF w 8 4 4) = fldN g.w1 0 19 * 256 ∧
        t.poolBase (hF w 8 4 4) = g.base ∧ t.freeN (hF w 8 4 4) = fldN g.w0 0 21 ∧ s.Done c w .ok 0 t ∧
        s.Keeps (cmdParts c w ++ [.bpm, .page 0x11000]) t) ∧
      (s.cfgReason (hF w 8 4 4) (fldN g.w0 0 21) g q m ≠ 0 → Answers (.poolConfig c) s fun t =>
        s.Done c w ⟨.poolCfgReject, 9⟩ (s.cfgReason (hF w 8 4 4) (fldN g.w0 0 21) g q m) t ∧
        t.rf (R.bpmPoolStat (hF w 8 4 4)) 0 4 = s.cfgReason (hF w 8 4 4) (fldN g.w0 0 21) g q m ∧ t.poolEn (hF w 8 4 4) = false ∧
        s.Keeps (cmdParts c w ++ [.reg (R.bpmPoolStat (hF w 8 4 4))]) t))

/-- R96, R154, R157, R176, R295, R317, R318, R356, R357: STREAM_ATTACH binds the stream and sets up its ring, STREAM_DETACH ends it and
leaves a stream that is not the context's alone (the model's choice, notes/assumptions/11); SOLVE puts its record on the SLV's queue;
CLIP_REQUEST puts a clip on VENC's queue, which refuses it with ENC_BUSY when it is full; TT_ARM puts an entry in the timetable, TT_DISARM
takes it out, and another context's entry refuses both with POOL_QUOTA. -/
def Obligations.CommandsOfStreamsClipsAndEntriesEnd : Prop :=
  ∀ (s : State) (c k : Nat) (w : List Word), s.slotOf c = some k →
    (∀ a, s.Front c 0x10 w → s.Sound → optsBad (hW w 0xC).toNat = false → 4 ≤ hF w 0x18 0 4 → (hAddrAt w 0x10).dram = true →
      (hAddrAt w 0x10).addr % 4096 = 0 → s.inRing (hF w 8 0 12) = none → hF w 8 12 4 = s.addr →
      s.ctxDram c (hAddrAt w 0x10).addr (64 + 32 * 2 ^ hF w 0x18 0 4) = some a →
      (s.eng.streams.filter (·.1 != clipKey)).length < 512 →
      (fldN (hW w 0xC).toNat 0 2 = 1 ∨ (s.engineFor (hW w 0xC).toNat).isSome = true) → Answers (.streamAttach c) s fun t =>
        (∃ x, t.strm (hF w 8 0 12) = some x ∧ x.ctx = c ∧ x.camera = hF w 8 16 16 ∧ x.opts = (hW w 0xC).toNat ∧
          x.eng = (if fldN (hW w 0xC).toNat 0 2 = 1 then none else s.engineFor (hW w 0xC).toNat) ∧ x.queue = [] ∧ x.ready = []) ∧
        (∃ r, t.inRing (hF w 8 0 12) = some r ∧ r.ctx = c ∧ r.unit = s.addr ∧ r.addr = a ∧ r.fetch = 0 ∧ r.door = 0 ∧ r.drops = 0) ∧
        t.bytes a 8 = List.replicate 8 0 ∧ (∀ b, b < a ∨ a + 8 ≤ b → t.byte b = s.byte b) ∧ s.Done c w .ok (hF w 8 0 12) t ∧
        s.Keeps (cmdParts c w ++ [.eng, .dram] ++ (List.range 4).map fun n => .reg (R.vdecStat n)) t) ∧
    (s.Front c 0x11 w → (s.inRing (hF w 8 0 12)).all (fun r => decide (r.ctx ≠ c)) = true → Answers (.streamDetach c) s fun t =>
      s.Done c w .ok 0 t ∧ s.Keeps (cmdParts c w) t) ∧
    (∀ r x, s.Front c 0x11 w → s.inRing (hF w 8 0 12) = some r → r.ctx = c → r.unit = s.addr → r.xfer = .idle →
      s.strm (hF w 8 0 12) = some x → x.queue = [] → x.retain = [] → x.dpb = [] → x.ready = [] →
      (∀ n j, (s.vdec n).job = some j → j.stream ≠ hF w 8 0 12) → Answers (.streamDetach c) s fun t =>
        t.strm (hF w 8 0 12) = none ∧ t.inRing (hF w 8 0 12) = none ∧
        (∀ q, q ≠ hF w 8 0 12 → t.strm q = s.strm q ∧ t.inRing q = s.inRing q) ∧ s.Done c w .ok 0 t ∧
        s.Keeps (cmdParts c w ++ [.eng] ++ (x.eng.map fun n => Part.reg (R.vdecStat n)).toList) t) ∧
    (∀ bs, s.Front c 0x20 w → (hAddrAt w 8).dram = false → (hAddrAt w 0x10).dram = false → hF w 0x18 0 4 = s.addr →
      (s.ctx c).opData = some bs → slvOp bs ≠ 4 → (s.jq 4).jobs.length < 64 → Answers (.solve c) s fun t =>
        (∃ j, (t.jq 4).jobs = (s.jq 4).jobs ++ [j] ∧ j.by_ = .cmd c (hSeq w) ∧ j.addr = none ∧ j.ctx = c ∧
          j.desc = BitVec.ofNat 8 c :: bs.drop 1) ∧ t.Started c w ∧
        s.Keeps (cmdParts c w ++ [.eng, .bpm, .reg 0x68108]) t) ∧
    (∀ bs r d, s.Front c 0x30 w → (hAddrAt w 8).dram = false → (s.ctx c).opData = some bs → d = bs.take 128 → clipBad d = false →
      dF d 0 14 1 = 0 → dF d 0x38 0 13 = 0 → bitN (dQ d 0x18) 63 = false → s.inRing (dF d 0 0 12) = some r → r.ctx = c → r.unit = s.addr →
      (s.vencRefuse c d false = none → Answers (.clipRequest c) s fun t =>
        (∃ q, t.eng.venc.clips = s.eng.venc.clips ++ [q] ∧ q.id = s.addr * 2 ^ 28 + Tab.get (fun _ => 1) s.eng.venc.counts s.addr ∧
          q.ctx = c ∧ q.stream = dF d 0 0 12 ∧ q.desc = d ∧ q.masks = []) ∧ t.Started c w ∧
        s.Keeps (cmdParts c w ++ [.eng, .reg R.vencStat, .reg R.vencCurClip, .reg R.vencCurPic]) t) ∧
      (s.vencRefuse c d false = some ⟨.encBusy, 0xE⟩ → Answers (.clipRequest c) s fun t =>
        t.eng.venc.clips = s.eng.venc.clips ∧ s.Done c w ⟨.encBusy, 0xE⟩ 0 t ∧ s.Keeps (cmdParts c w ++ [.eng, .reg R.vencRefused]) t)) ∧
    (∀ x, s.Front c 0x40 w → hF w 8 8 8 < 240 → hF w 8 0 4 = s.addr →
      x = entOf ((hW w 0x10).toNat + (hW w 0x14).toNat * 2 ^ 32) ((hW w 0x18).toNat + (hW w 0x1C).toNat * 2 ^ 32) c →
      s.entBad c s.addr x = false → (s.ent (hF w 8 8 8)).action = 0 → s.now16 ≤ x.t → Answers (.ttArm c) s fun t =>
        (t.ent (hF w 8 8 8)).t = x.t ∧ (t.ent (hF w 8 8 8)).w = x.w ∧ (t.ent (hF w 8 8 8)).owner = c ∧
        (∀ e, e ≠ hF w 8 8 8 → t.ent e = s.ent e) ∧ s.Done c w .ok (hF w 8 8 8) t ∧
        s.Keeps (cmdParts c w ++ [.tim, .reg R.timeArmed, .reg (R.timeEntOwner (hF w 8 8 8 / 4))]) t) ∧
    (s.Front c 0x41 w → hF w 8 8 8 < 240 → hF w 8 0 4 = s.addr → s.entTaken c (hF w 8 8 8) = false →
      (s.ent (hF w 8 8 8)).due s.now16 = false → Answers (.ttDisarm c) s fun t =>
        (t.ent (hF w 8 8 8)).action = 0 ∧ (∀ e, e ≠ hF w 8 8 8 → t.ent e = s.ent e) ∧ s.Done c w .ok 0 t ∧
        s.Keeps (cmdParts c w ++ [.tim, .reg R.timeArmed]) t) ∧
    (hF w 8 8 8 < 240 → hF w 8 0 4 = s.addr → s.entTaken c (hF w 8 8 8) = true →
      (s.Front c 0x41 w → Answers (.ttDisarm c) s fun t => s.Done c w ⟨.poolQuota, 0x13⟩ 0 t ∧ s.Keeps (cmdParts c w) t) ∧
      (s.Front c 0x40 w → s.entBad c s.addr (entOf ((hW w 0x10).toNat + (hW w 0x14).toNat * 2 ^ 32)
          ((hW w 0x18).toNat + (hW w 0x1C).toNat * 2 ^ 32) c) = false → Answers (.ttArm c) s fun t =>
        s.Done c w ⟨.poolQuota, 0x13⟩ 0 t ∧ s.Keeps (cmdParts c w) t))

/-- R120, R121, R124, R125, R127, R129-R131, R408, R462: an allocation through a port of this unit that R121 admits takes the head of the free
queue; one that it does not admit fails at once, or waits when it is blocking; a waiter whose time is over fails with the check that it
still fails. INC and DEC return the count after them; the DEC to 0 frees the buffer, which joins the tail of the free queue; a handle that
is not valid is refused with STALE_HANDLE. While the BPM is down operations are held, and applied when it returns. -/
def Obligations.PortsAllocateAndCountReferences : Prop :=
  ∀ (s : State) (rq c p h tag id : Nat) (blocking : Bool), rq ≠ 78 → tag < 2 ^ 32 →
    (s.bpmDown = false →
      (∀ i x, s.poolMay p c = true → s.admits p rq = none → s.freeHead p = some (i, x) → Answers (.alloc rq c p blocking tag none) s fun t =>
        t.buf p i = { st := .alloc, count := 1, allocs := (s.buf p i).allocs + 1, rq, ctx := c } ∧ t.pool p = x ∧
        t.bpm.answers = (tag, .ok, t.handleOf p i) :: s.bpm.answers ∧ t.out = s.out ∧ s.Keeps [.bpm] t) ∧
      (∀ e, s.poolMay p c = true → s.admits p rq = some e → Answers (.alloc rq c p false tag none) s fun t =>
        t.bpm = { s.bpm with answers := (tag, ⟨e, 9⟩, 0) :: s.bpm.answers } ∧ t.out = s.out ∧ s.Keeps [.bpm] t) ∧
      (∀ e, s.poolMay p c = true → s.admits p rq = some e → s.bpm.waiters.length < 128 → Answers (.alloc rq c p true tag none) s fun t =>
        t.bpm = { s.bpm with waiters := s.bpm.waiters ++ [{ id := s.bpm.nextId, pool := p, rq, ctx := c, who := .eng tag }]
                             nextId := s.bpm.nextId + 1 } ∧ t.out = s.out ∧ s.Keeps [.bpm] t) ∧
      (s.poolMay p c = false → Answers (.alloc rq c p blocking tag none) s fun t =>
        t.bpm = { s.bpm with answers := (tag, ⟨.poolQuota, 9⟩, 0) :: s.bpm.answers } ∧ t.out = s.out ∧ s.Keeps [.bpm] t) ∧
      (s.hValid h = true → s.poolMay (hPool h) c = true → 0 < (s.buf (hPool h) (hIdx h)).count →
        (s.buf (hPool h) (hIdx h)).count < 65535 → Answers (.inc rq c h tag none) s fun t =>
          t.buf (hPool h) (hIdx h) = { s.buf (hPool h) (hIdx h) with count := (s.buf (hPool h) (hIdx h)).count + 1 } ∧
          t.bpm.answers = (tag, .ok, (s.buf (hPool h) (hIdx h)).count + 1) :: s.bpm.answers ∧ t.bpm.ledger = s.bpm.ledger ∧
          t.out = s.out ∧ s.Keeps [.bpm] t) ∧
      (s.hValid h = true → s.poolMay (hPool h) c = true → 1 < (s.buf (hPool h) (hIdx h)).count → Answers (.dec rq c h tag none) s fun t =>
        t.buf (hPool h) (hIdx h) = { s.buf (hPool h) (hIdx h) with count := (s.buf (hPool h) (hIdx h)).count - 1 } ∧
        t.bpm.answers = (tag, .ok, (s.buf (hPool h) (hIdx h)).count - 1) :: s.bpm.answers ∧ t.out = s.out ∧ s.Keeps [.bpm] t) ∧
      (s.hValid h = true → s.poolMay (hPool h) c = true → (s.buf (hPool h) (hIdx h)).count = 1 → s.bpm.waiters = [] →
        (s.buf (hPool h) (hIdx h)).poisoned = false → (s.buf (hPool h) (hIdx h)).bad = false →
        (guarded (s.poolCls (hPool h)) && (s.enforcing || s.rb R.secCtl 0)) = false → Answers (.dec rq c h tag none) s fun t =>
          t.buf (hPool h) (hIdx h) = { allocs := (s.buf (hPool h) (hIdx h)).allocs } ∧
          (t.pool (hPool h)).freed = (s.pool (hPool h)).freed ++ [hIdx h] ∧
          t.bpm.answers = (tag, .ok, 0) :: s.bpm.answers ∧ t.out = s.out ∧ s.Keeps [.bpm] t) ∧
      (s.hValid h = false → Answers (.inc rq c h tag none) s (fun t =>
          t.bpm = { s.bpm with answers := (tag, ⟨.staleHandle, 9⟩, 0) :: s.bpm.answers } ∧ t.rb (0x10000 + R.irqStat) 17 = true ∧
          s.Keeps [.bpm] t) ∧
        Answers (.dec rq c h tag none) s (fun t =>
          t.bpm = { s.bpm with answers := (tag, ⟨.staleHandle, 9⟩, 0) :: s.bpm.answers } ∧ t.rb (0x10000 + R.irqStat) 17 = true ∧
          s.Keeps [.bpm] t))) ∧
    (s.bpmDown = true → Answers (.inc rq c h tag none) s (fun t =>
        t.bpm = { s.bpm with held := s.bpm.held ++ [{ rq, ctx := c, h, incr := true, tag := some tag }] } ∧ t.out = s.out ∧
        s.Keeps [.bpm] t) ∧
      Answers (.dec rq c h tag none) s (fun t =>
        t.bpm = { s.bpm with held := s.bpm.held ++ [{ rq, ctx := c, h, incr := false, tag := some tag }] } ∧ t.out = s.out ∧
        s.Keeps [.bpm] t)) ∧
    (∀ x, s.bpm.waiters.find? (·.id == id) = some x → x.who = .eng tag → Answers (.bpmWaitTimeout id) s fun t =>
      t.bpm = { s.bpm with waiters := s.bpm.waiters.filter (·.id != id)
                           answers := (tag, ⟨((s.admits x.pool x.rq).getD .poolEmpty), 9⟩, 0) :: s.bpm.answers } ∧ t.out = s.out ∧
      s.Keeps [.bpm] t) ∧
    (s.bpm.waiters.find? (·.id == id) = none → exec (.bpmWaitTimeout id) s = .next s) ∧
    (s.bpm.held = [] → s.ras.held = [] → Answers .bpmReturn s fun t =>
      t.rb (0x10000 + R.ctl) 1 = false ∧ t.rb (0x10000 + R.stat) 0 = false ∧ t.rb R.rasStat 2 = false ∧ t.bpm = s.bpm ∧ t.out = s.out ∧
      s.Keeps [.reg (0x10000 + R.ctl), .reg (0x10000 + R.stat), .reg R.rasStat] t) ∧
    (s.bpm.held = [{ rq, ctx := c, h, incr := true, tag := some tag }] → s.ras.held = [] → s.hValid h = true →
      s.poolMay (hPool h) c = true → 0 < (s.buf (hPool h) (hIdx h)).count → (s.buf (hPool h) (hIdx h)).count < 65535 →
      Answers .bpmReturn s fun t => t.bpm.held = [] ∧
        t.buf (hPool h) (hIdx h) = { s.buf (hPool h) (hIdx h) with count := (s.buf (hPool h) (hIdx h)).count + 1 } ∧
        t.bpm.answers = (tag, .ok, (s.buf (hPool h) (hIdx h)).count + 1) :: s.bpm.answers ∧
        s.Keeps [.bpm, .reg (0x10000 + R.ctl), .reg (0x10000 + R.stat), .reg R.rasStat] t)

/-- R115, R122, R135, R460, R463: a write of CFG2 enables a pool by its registers and keeps its requester table, or is refused with the reason;
it disables one without allocated buffers. A requester-table change applies, is refused with reason 6 or 7 while the pool is enabled, and
is ignored above 1,048,576 buffers or for a requester that no unit has. A lookup by address gives the buffer that covers it, or NONE. -/
def Obligations.PoolRegistersConfigureAndLookUp : Prop :=
  ∀ (s : State) (p r : Nat) (v : Word) (g : PoolCfg),
    (p < 16 → s.rb R.topStat 4 = false → g = { w0 := s.rn (R.bpmPoolCfg0 p), w1 := s.rn (R.bpmPoolCfg1 p), w2 := v.fld 0 15
                                               base := s.poolBase p } →
      (v.bit 14 = true → s.poolEn p = false → s.cfgReason p (s.poolCount p) g (s.quota p) (s.reserve p) = 0 → s.ras.table = [] →
        Answers (.poolEnable p v) s fun t =>
          t.poolEn p = true ∧ t.poolCls p = v.fld 0 3 ∧ t.poolMode p = v.fld 3 2 ∧ t.poolCount p = s.poolCount p ∧
          t.poolSize p = s.poolSize p ∧ t.poolBase p = s.poolBase p ∧ t.freeN p = s.poolCount p ∧
          (∀ q, q < 96 → t.quota p q = s.quota p q ∧ t.reserve p q = s.reserve p q) ∧
          (∀ i, i < 2 ^ 20 → (t.buf p i).st = .free) ∧ t.out = s.out ∧ s.Keeps [.bpm, .page 0x11000] t) ∧
      (v.bit 14 = true → s.poolEn p = false → s.cfgReason p (s.poolCount p) g (s.quota p) (s.reserve p) ≠ 0 →
        Answers (.poolEnable p v) s fun t =>
          t.rf (R.bpmPoolStat p) 0 4 = s.cfgReason p (s.poolCount p) g (s.quota p) (s.reserve p) ∧ t.poolEn p = false ∧
          t.rb (0x10000 + R.irqStat) 16 = true ∧ s.Keeps [.reg (R.bpmPoolStat p)] t) ∧
      (v.bit 14 = false → (s.poolEn p = false ∨ s.allocN p = 0) → Answers (.poolEnable p v) s fun t =>
        t.poolEn p = false ∧ t.out = s.out ∧ s.Keeps [.bpm, .page 0x11000] t) ∧
      (v.bit 14 = false → s.poolEn p = true → 0 < s.allocN p → Answers (.poolEnable p v) s fun t =>
        t.rf (R.bpmPoolStat p) 0 4 = 8 ∧ t.poolEn p = true ∧ s.Keeps [.reg (R.bpmPoolStat p)] t)) ∧
    (s.rqSel = some (p, r) → v.toNat ≤ 1048576 → (s.poolEn p = false ∨ (s.poolMode p = 0 ∧ s.bpm.waiters = [])) →
      Answers (.bpmRqQuota v) s (fun t => t.quota p r = v.toNat ∧ (∀ q, q ≠ r → t.quota p q = s.quota p q) ∧
        (∀ q, t.reserve p q = s.reserve p q) ∧ (∀ o, o ≠ p → t.pool o = s.pool o) ∧ t.out = s.out ∧ s.Keeps [.bpm] t)) ∧
    (s.rqSel = some (p, r) → r ≠ 79 → (s.poolEn p = false ∨ (s.poolMode p = 0 ∧ s.bpm.waiters = [])) →
      Answers (.bpmRqReserve v) s (fun t => t.reserve p r = v.toNat ∧ (∀ q, q ≠ r → t.reserve p q = s.reserve p q) ∧
        (∀ q, t.quota p q = s.quota p q) ∧ (∀ o, o ≠ p → t.pool o = s.pool o) ∧ t.out = s.out ∧ s.Keeps [.bpm] t)) ∧
    (s.rqSel = some (p, r) → s.poolEn p = true → s.poolMode p = 1 → r ≠ 79 →
      s.poolN p < ((List.range 96).map fun i => if i = r then v.toNat else s.reserve p i).sum → Answers (.bpmRqReserve v) s fun t =>
        t.rf R.bpmRqStat 0 4 = 6 ∧ t.rb (0x10000 + R.irqStat) 16 = true ∧ s.Keeps [.reg R.bpmRqStat] t) ∧
    ((s.rqSel = none ∨ 1048576 < v.toNat) → exec (.bpmRqQuota v) s = .next s) ∧
    (s.rqSel = none → exec (.bpmRqReserve v) s = .next s) ∧
    (s.ownerOf (s.rn R.bpmOwnAddrLo + v.toNat * 2 ^ 32) = none → Answers (.bpmOwnAddrHi v) s fun t =>
      t.rn R.bpmOwnResult = 32 ∧ t.reg R.bpmOwnHandle = 0 ∧ t.reg R.bpmOwnCount = 0 ∧ t.out = s.out ∧
      s.Keeps [.reg R.bpmOwnAddrHi, .reg R.bpmOwnResult, .reg R.bpmOwnHandle, .reg R.bpmOwnCount] t) ∧
    (∀ i, s.ownerOf (s.rn R.bpmOwnAddrLo + v.toNat * 2 ^ 32) = some (p, i) → Answers (.bpmOwnAddrHi v) s fun t =>
      t.reg R.bpmOwnHandle = Word.ofNat (s.handleOf p i) ∧ t.reg R.bpmOwnCount = Word.ofNat (s.buf p i).count ∧
      t.rf R.bpmOwnResult 0 2 = (match (s.buf p i).st with | .free => 1 | .alloc => 2 | .retired => 3) ∧
      t.rb R.bpmOwnResult 3 = (s.buf p i).poisoned ∧ t.rf R.bpmOwnResult 8 8 = (s.buf p i).ctx % 256 ∧
      t.rf R.bpmOwnResult 23 3 = s.poolCls p ∧ t.out = s.out ∧
      s.Keeps [.reg R.bpmOwnAddrHi, .reg R.bpmOwnResult, .reg R.bpmOwnHandle, .reg R.bpmOwnCount] t)

/-- R137, R144, R146-R149, R151, R457: one scrub read takes the sector at the scrubber's position and moves on: a good one stays, a correctable
one is corrected and counted, one that cannot be corrected gets the poison code, is counted, and outside every pool its page enters the
retirement table; the last sector ends the pass. While the scrubber may not run nothing happens. Management firmware alone writes the
retirement table; RAS_INJ_CTL arms an injection. -/
def Obligations.ScrubbingAndRetirement : Prop :=
  ∀ (s : State) (a : Nat) (src : Src) (v : Word),
    a = usableOf (s.rf R.rasScrubPos 0 3) (s.rf R.rasScrubPos 3 29) (s.ras.pos * 32) →
    (s.scrubRuns = false → exec .scrubRead s = .next s) ∧
    (s.scrubRuns = true → s.mark (a / 32) = .ok → s.ras.pending = [] → s.ras.pos < 119 → Answers .scrubRead s fun t =>
      t.ras = { s.ras with pos := s.ras.pos + 1 } ∧ t.out = s.out ∧ s.Keeps [.ras, .reg R.rasStat] t) ∧
    (s.scrubRuns = true → s.mark (a / 32) = .ok → s.ras.pending = [] → s.ras.pos = 119 → s.rf R.rasScrubPos 3 29 + 1 = s.chanSpans →
      s.rf R.rasScrubPos 0 3 = 7 → Answers .scrubRead s fun t =>
        t.ras.pos = 0 ∧ t.ras.lastCe = s.ras.thisCe ∧ t.ras.thisCe = [] ∧ t.ras.passStart = s.ns ∧ t.reg R.rasScrubPos = 0 ∧
        t.reg R.rasScrubPasses = s.reg R.rasScrubPasses + 1 ∧ t.out = s.out ∧
        s.Keeps [.ras, .reg R.rasStat, .reg R.rasScrubPos, .reg R.rasScrubPasses] t) ∧
    (s.scrubRuns = true → s.mark (a / 32) = .ce → s.rb R.rasCtl 1 = false → s.ras.pos < 119 → Answers .scrubRead s fun t =>
      t.mark (a / 32) = .ok ∧ (∀ j, j ≠ a / 32 → t.mark j = s.mark j) ∧ t.ras.pos = s.ras.pos + 1 ∧
      t.rn (R.memcCeCnt (chanOf a)) = min 0xFFFFFFFF (s.rn (R.memcCeCnt (chanOf a)) + 1) ∧ t.ras.table = s.ras.table ∧
      s.Keeps [.marks, .ras, .reg R.rasStat, .reg (R.memcCeCnt (chanOf a))] t) ∧
    (s.scrubRuns = true → s.mark (a / 32) = .ue → s.bpmDown = false → s.ownerOf (a / 32 * 32) = none → a / 4096 ∉ s.retirePages →
      s.ras.table.length < 1024 → (∃ k, k < 1024 ∧ Tab.get (fun _ => 0) s.ras.table k = 0) → s.ras.pos < 119 → Answers .scrubRead s fun t =>
        t.mark (a / 32) = .poison ∧ (∀ j, j ≠ a / 32 → t.mark j = s.mark j) ∧ a / 4096 ∈ t.retirePages ∧
        t.rn (R.memcUeCnt (chanOf a)) = min 0xFFFFFFFF (s.rn (R.memcUeCnt (chanOf a)) + 1) ∧ t.rb (0x18000 + R.irqStat) 16 = true ∧
        t.mgmt = { s.mgmt with stored := t.ras.table } ∧
        s.Keeps [.marks, .ras, .mgmt, .reg R.rasStat, .reg R.rasRetireCnt, .reg (R.memcUeCnt (chanOf a))] t) ∧
    Answers (.rasRetirePage .mgmt v) s (fun t =>
      Tab.get (fun _ => 0) t.ras.table (s.rf R.rasRetireIdx 0 10) = (if v.bit 31 then v.fld 0 25 + 1 else 0) ∧
      (∀ k, k ≠ s.rf R.rasRetireIdx 0 10 → Tab.get (fun _ => 0) t.ras.table k = Tab.get (fun _ => 0) s.ras.table k) ∧
      t.reg R.rasRetireCnt = Word.ofNat t.ras.table.length ∧ t.mgmt = { s.mgmt with stored := t.ras.table } ∧ t.out = s.out ∧
      s.Keeps [.ras, .mgmt, .reg R.rasRetireCnt] t) ∧
    (src ≠ .mgmt → Answers (.rasRetirePage src v) s fun t => t.out = s.out ∧ s.Keeps [] t) ∧
    Answers (.rasInjCtl v) s (fun t => t.rf R.rasInjCtl 0 2 = v.fld 0 2 ∧ t.out = s.out ∧ s.Keeps [.reg R.rasInjCtl] t)

/-- R366, R370-R373, R381, R412: an IDLE frame returns credits and acknowledges; a frame that fails its CRC or its tag is counted, and asks for
one NAK until the expected frame comes; a replay timeout resends every unacknowledged frame, and the eighth without progress, like the
loss of lock, takes the link down to train again; a port that has trained with its peer of before goes on with its SEQ state, with
another it starts anew; two managers at one link are in CONFLICT; RETRAIN trains again, EN = 0 takes the link down; a port down for
CHAIN_LOSS_HOLD forgets its state and its keys. The other port stays as it is. -/
def Obligations.LinksAcknowledgeReplayAndTrain : Prop :=
  ∀ (s : State) (p : Nat) (f : Frame) (v : Word) (r : PeerRep) (bad : Bool), p < 2 →
    (∀ a, s.glkSt p = 2 → f.cls = 4 → f.nak = false → f.payload.length ≤ 256 → (s.glk p).unacked = [a] → a.seq = f.ack →
      (s.glk p).queue = [] → s.chain.prev = none → s.chain.draining = false → Answers (.idle p f) s fun t =>
        t.glk p = { s.glk p with
          unacked := [], replays := 0
          cr0 := min 32 ((s.glk p).cr0 + ((f.payload.drop 0).headD 0).toNat), cr1 := min 32 ((s.glk p).cr1 + ((f.payload.drop 1).headD 0).toNat)
          cr2 := min 32 ((s.glk p).cr2 + ((f.payload.drop 2).headD 0).toNat), cr3 := min 32 ((s.glk p).cr3 + ((f.payload.drop 3).headD 0).toNat) } ∧
        t.glk (otherPort p) = s.glk (otherPort p) ∧ t.out = s.out ∧ s.Keeps [] t) ∧
    (s.glkSt p = 2 → Answers (.frameCrcFailure p bad) s fun t =>
      t.rn (if bad then R.glkTagCnt p else R.glkCrcCnt p) = min 0xFFFFFFFF (s.rn (if bad then R.glkTagCnt p else R.glkCrcCnt p) + 1) ∧
      (t.glk p).nakSent = true ∧ (t.glk p).seqRx = (s.glk p).seqRx ∧ (bad = false → (t.glk p).unacked = (s.glk p).unacked) ∧
      (bad = true → t.rb (glkPage p + R.irqStat) 18 = true) ∧ (bad = false → (s.glk p).nakSent = true → t.out = s.out) ∧
      (bad = false → (s.glk p).nakSent = false → ∃ g, t.out = .frame p g :: s.out ∧ g.cls = 4 ∧ g.nak = true ∧ g.ack = (s.glk p).lastAcc) ∧
      s.Keeps [.reg (if bad then R.glkTagCnt p else R.glkCrcCnt p)] t) ∧
    (s.glkSt p ≠ 2 → exec (.frameCrcFailure p bad) s = .next s) ∧
    (s.isMgr = true → s.glkSt p = 2 → (s.glk p).unacked ≠ [] → (s.glk p).replays < 7 → Answers (.replayTimeout p) s fun t =>
      t.rn (R.glkReplayCnt p) = min 0xFFFFFFFF (s.rn (R.glkReplayCnt p) + 1) ∧ (t.glk p).replays = (s.glk p).replays + 1 ∧
      (t.glk p).unacked = (s.glk p).unacked ∧ (∀ g ∈ (s.glk p).unacked, .frame p g ∈ t.out) ∧
      t.glk (otherPort p) = s.glk (otherPort p) ∧ t.glkSt p = 2 ∧ s.Keeps [.reg (R.glkReplayCnt p)] t) ∧
    (s.isMgr = true → s.glkSt p = 2 → (s.glk p).unacked ≠ [] → (s.glk p).replays = 7 → Answers (.replayTimeout p) s fun t =>
      t.glkSt p = 1 ∧ (t.glk p).keep = some (s.glk p).peerSerial ∧ (t.glk p).unacked = (s.glk p).unacked ∧ (0, p) ∈ t.chain.downLinks ∧
      s.Keeps [.chain, .reg (R.glkReplayCnt p), .reg (R.glkStat p)] t) ∧
    ((s.glkSt p ≠ 2 ∨ (s.glk p).unacked = []) → exec (.replayTimeout p) s = .next s) ∧
    (s.isMgr = true → (s.glkSt p = 2 ∨ s.glkSt p = 3) → Answers (.laneLockLoss p) s fun t =>
      t.glkSt p = 1 ∧ t.glk p = { s.glk p with keep := some (s.glk p).peerSerial, replays := 0 } ∧ (0, p) ∈ t.chain.downLinks ∧
      t.glk (otherPort p) = s.glk (otherPort p) ∧ s.Keeps [.chain, .reg (R.glkStat p)] t) ∧
    (s.glkSt p ≠ 2 → s.glkSt p ≠ 3 → exec (.laneLockLoss p) s = .next s) ∧
    (s.isMgr = false → s.chain.asleep = false → s.chain.addressed = false → s.glkSt p = 1 → (s.glk p).queue = [] →
      s.reg (glkPage p + R.irqEn) = 0 → Answers (.glkLinkUp p r) s fun t => t.glkSt p = 2 ∧ (t.glk p).peerSerial = r.serial ∧ (t.glk p).cr0 = 32 ∧ (t.glk p).cr3 = 32 ∧
        ((s.glk p).keep = some r.serial → (t.glk p).seqTx = (s.glk p).seqTx ∧ (t.glk p).seqRx = (s.glk p).seqRx ∧
          (t.glk p).unacked = (s.glk p).unacked ∧ ∀ g ∈ (s.glk p).unacked, .frame p g ∈ t.out) ∧
        ((s.glk p).keep ≠ some r.serial → (t.glk p).seqTx = 0 ∧ (t.glk p).seqRx = 0 ∧ (t.glk p).unacked = [] ∧
          (t.glk p).key0 = (s.glk p).key0 ∧ (t.glk p).key1 = (s.glk p).key1) ∧
        t.glk (otherPort p) = s.glk (otherPort p) ∧
        s.Keeps [.reg (R.glkStat p), .reg (R.glkPeerSerLo p), .reg (R.glkPeerSerLo p + 4)] t) ∧
    (s.isMgr = true → r.mgr = true → s.glkSt p = 1 → (s.glk p).queue = [] → Answers (.glkLinkUp p r) s fun t =>
      t.glkSt p = 3 ∧ t.rb (0x7A000 + R.irqStat) 17 = true ∧
      s.Keeps [.reg (R.glkStat p), .reg (R.glkPeerSerLo p), .reg (R.glkPeerSerLo p + 4)] t) ∧
    (s.isMgr = true → v.bit 0 = true → s.rb (R.glkCtl p) 0 = true → s.glkSt p = 2 → Answers (.glkCtlRetrain p v) s fun t =>
      t.glkSt p = 1 ∧ t.glk p = { s.glk p with keep := some (s.glk p).peerSerial, replays := 0 } ∧ (0, p) ∈ t.chain.downLinks ∧
      t.out = s.out ∧ s.Keeps [.chain, .reg (R.glkCtl p), .reg (R.glkStat p)] t) ∧
    (v.bit 0 = true → s.rb (R.glkCtl p) 0 = false → Answers (.glkCtlRetrain p v) s fun t =>
      t.glkSt p = 1 ∧ t.rb (R.glkCtl p) 0 = true ∧ t.glk p = s.glk p ∧ t.out = s.out ∧ s.Keeps [.reg (R.glkCtl p), .reg (R.glkStat p)] t) ∧
    (s.isMgr = true → v.bit 0 = false → s.rb (R.glkCtl p) 0 = true → Answers (.glkCtlRetrain p v) s fun t =>
      t.glkSt p = 0 ∧ t.rb (R.glkCtl p) 0 = false ∧ (t.glk p).unacked = [] ∧ (t.glk p).queue = [] ∧ t.out = s.out ∧
      s.Keeps [.chain, .reg (R.glkCtl p), .reg (R.glkStat p)] t) ∧
    (s.isMgr = false → s.chain.addressed = true → s.chain.asleep = false → s.glkSt p < 2 → Answers (.lossHoldExpiry s.addr p) s fun t =>
      t.glk p = {} ∧ t.rb (R.glkStat p) 5 = false ∧ t.rb (R.glkStat p) 6 = false ∧ t.glk (otherPort p) = s.glk (otherPort p) ∧
      t.out = s.out ∧ s.Keeps [.reg (R.glkStat p)] t) ∧
    (s.chain.asleep = true → exec (.lossHoldExpiry s.addr p) s = .next s)

/-- R375, R377, R379, R381-R383, R400, R412: keepalives go to the workers while the chain is awake; a worker that is declared LOST, for its own
row, for its keepalives or for its awake report, is marked in CHAIN_LOST; one that stays in QUARANTINE for 10 s is reported; keys of
a link are renewed; at the switch a worker takes the next epoch's table and its state in it; OFFLINE_REQ removes a unit without context
slots and is refused otherwise; CHAIN_ADMIT admits units in QUARANTINE; reservations are written for addresses that are not in use; polls
of slot controllers update SLOT_STAT. -/
def Obligations.TheManagerKeepsItsChain : Prop :=
  ∀ (s : State) (u v' : Nat) (v : Word) (p q : Nat) (x : SlotPoll),
    (s.isMgr = true → s.chain.asleep = false → s.workers = [u] → s.portFor { cls := 2, dst := u, sub := 3, src := s.addr, epoch := s.epoch } =
        some p → p < 2 → s.glkSt p = 2 → (s.glk p).queue = [] → (s.glk p).unacked.length < 64 → 0 < (s.glk p).cr3 → s.chain.draining = false →
      Answers .keepaliveTick s fun t =>
        (∃ f, t.out = .frame p f :: s.out ∧ f.cls = 2 ∧ f.sub = 3 ∧ f.dst = u ∧ f.src = s.addr ∧ f.seq = (s.glk p).seqTx ∧
          (t.glk p).unacked = (s.glk p).unacked ++ [f]) ∧ (t.glk p).cr3 = (s.glk p).cr3 - 1 ∧ s.Keeps [] t) ∧
    ((s.isMgr = false ∨ s.chain.asleep = true) → exec .keepaliveTick s = .next s) ∧
    (s.isMgr = true → 1 ≤ u → u < 16 → s.isHere u = true → s.chain.asleep = false → s.mgmtUp = false → s.eng = {} → s.ctxs = [] →
        s.chain.out = [] → s.chain.wait = [] →
      (Answers (.unitLost u v') s fun t => t.rb R.chainLost u = true ∧ (t.unit u).st = .lost ∧ t.bpm = s.bpm ∧ t.dram = s.dram) ∧
      (routeOf (s.rn R.chainRoute) u ≠ 3 → Answers (.keepaliveTimeout u) s fun t =>
        t.rb R.chainLost u = true ∧ (t.unit u).st = .lost ∧ t.bpm = s.bpm ∧ t.dram = s.dram) ∧
      (u ∈ s.chain.wakeWait → Answers (.wakeReportTimeout u) s fun t =>
        t.rb R.chainLost u = true ∧ (t.unit u).st = .lost ∧ t.bpm = s.bpm ∧ t.dram = s.dram)) ∧
    (s.isMgr = false → exec (.unitLost u v') s = .next s ∧ exec (.keepaliveTimeout u) s = .next s) ∧
    (u ∉ s.chain.wakeWait → exec (.wakeReportTimeout u) s = .next s) ∧
    (s.isMgr = true → u ≠ 0 → (s.unit u).st = .quarantine → (s.unit u).timedOut = false → Answers (.quarantineTimeout u) s fun t =>
      t.unit u = { s.unit u with timedOut := true } ∧ (∀ w, w ≠ u → t.unit w = s.unit w) ∧ t.rb (0x7A000 + R.irqStat) 17 = true ∧
      s.Keeps [.chain] t) ∧
    ((s.unit u).st ≠ .quarantine → exec (.quarantineTimeout u) s = .next s) ∧
    (s.isMgr = true → s.mgmtUp = true → p < 2 → u ≠ 0 → s.linkPair (0, p) = [(0, p), (u, q)] → s.chain.keyed.contains (0, p) = true →
      s.chain.keyNew = [] → Answers (.linkKeyRollover 0 p) s fun t =>
        (0, p) ∈ t.chain.keyNew ∧ (u, q) ∈ t.chain.keyWait ∧ (0, p) ∉ t.chain.keyed ∧ (u, q) ∉ t.chain.keyed ∧
        (t.glk p).phase = (s.glk p).phase ∧
        (if (s.glk p).phase then (t.glk p).key0 ≠ none ∧ (t.glk p).key1 = (s.glk p).key1
          else (t.glk p).key1 ≠ none ∧ (t.glk p).key0 = (s.glk p).key0) ∧ s.Keeps [.chain, .draws] t) ∧
    (∀ e tab at_, s.isMgr = false → s.chain.next = some (e, tab) → s.chain.switchAt = some at_ → e < 256 → s.chain.out = [] →
      s.glk0.queue = [] → s.glk1.queue = [] → Answers .epochSwitch s fun t =>
        t.rn R.chainRoute = tab % 2 ^ 32 ∧ t.rf R.chainStat 6 8 = e ∧ t.rf R.chainUnits 0 16 = tab / 2 ^ 32 % 2 ^ 16 ∧
        t.chain.own = (if bitN (tab / 2 ^ 32) s.addr = true then .joined else .quarantine) ∧ t.chain.next = none ∧ t.chain.switchAt = none ∧
        s.Keeps [.chain, .reg R.chainRoute, .reg R.chainStat, .reg R.chainUnits, .reg R.topBootMs] t) ∧
    (s.chain.next = none → exec .epochSwitch s = .next s) ∧
    (s.isMgr = true → 1 ≤ q → q ≤ 15 → s.unitInSlot q = some u → s.isHere u = true →
      (s.slotHeld u = true → Answers (.offlineReq q v) s fun t => t.rb (R.chainSlotStat (q - 1)) 12 = true ∧ t.out = s.out ∧
        s.Keeps [.reg (R.chainSlotCtl (q - 1)), .reg (R.chainSlotStat (q - 1))] t) ∧
      (s.slotHeld u = false → s.mgmtUp = false → Answers (.offlineReq q v) s fun t =>
        (t.unit u).offReq = true ∧ t.chain.change = true ∧ t.out = s.out ∧ s.Keeps [.chain, .reg (R.chainSlotCtl (q - 1))] t)) ∧
    (s.isMgr = true → s.mgmtUp = false → Answers (.chainAdmit v) s fun t =>
      (∀ w, t.unit w = if w < 16 ∧ v.bit w = true ∧ (s.unit w).st = .quarantine then { s.unit w with admitted := true } else s.unit w) ∧
      t.out = s.out ∧ s.Keeps [.chain] t) ∧
    (s.isMgr = false → exec (.chainAdmit v) s = .next s) ∧
    (s.isMgr = true → s.rf R.chainResSel 0 4 = u → u ≠ 0 → Answers (.chainResSerHi v) s fun t =>
      Tab.get (fun _ => 0) t.chain.res u = (if s.isHere u then Tab.get (fun _ => 0) s.chain.res u else s.rn R.chainResSerLo + v.toNat * 2 ^ 32) ∧
      t.reg R.chainResSerHi = v ∧ t.out = s.out ∧ s.Keeps [.chain, .reg R.chainResSerHi] t) ∧
    (s.isMgr = true → x.answers = true → x.button = false → s.rb (R.chainSlotStat 0) 0 = x.present → s.unitInSlot 1 = none →
      Answers (.i2cPoll [x]) s fun t => t.rb (R.chainSlotStat 0) 0 = x.present ∧ t.rb (R.chainSlotStat 0) 1 = x.powerGood ∧
        t.rb (R.chainSlotStat 0) 4 = false ∧ t.rf (R.chainSlotCtl 0) 0 5 = x.control % 32 ∧ t.out = s.out ∧
        s.Keeps [.reg (R.chainSlotStat 0), .reg (R.chainSlotCtl 0)] t) ∧
    (s.isMgr = false → exec (.i2cPoll [x]) s = .next s)

/-- R42-R44, R134, R213, R288, R374-R377, R379, R381, R406, R407: a DATA or MGMT frame for this unit that is next in order is delivered, and a
transaction that is next in its stream is applied once and answered. WRITE stores its bytes; READ answers with the bytes it names, or, where
the Vent blocks them, fails with CTX_FAULT_ADDR; a RESPONSE or REG_RESP ends the transaction it answers; RECORD's records wait for the
MQ; REG_READ and REG_WRITE read and write a register; KEEPALIVE, JOIN and FIRMWARE act. The block type code of a failed READ is the
model's reading (notes/assumptions/33 says how an answer is matched). -/
def Obligations.FramesForThisUnitAreAppliedOnce : Prop :=
  ∀ (s : State) (p : Nat) (f : Frame),
    (s.TakesTx p f → f.cls = 0 → f.sub = 0 → f.vc = 0 → s.Sound → bitN (preAddr f.payload) 63 = false →
      s.dataBad f.payload (f.payload.drop 16).length = none → Answers (.write p f) s fun t =>
        t.bytes (preAddr f.payload) (f.payload.drop 16).length = f.payload.drop 16 ∧
        (∀ a, a < preAddr f.payload ∨ preAddr f.payload + (f.payload.drop 16).length ≤ a → t.byte a = s.byte a) ∧
        t.answered f 0 [] ∧ s.Keeps [.chain, .dram] t) ∧
    (∀ st, s.TakesTx p f → f.cls = 0 → f.sub = 0 → f.vc = 0 → bitN (preAddr f.payload) 63 = false →
      s.dataBad f.payload (f.payload.drop 16).length = some st → Answers (.write p f) s fun t =>
        t.answered f (st.code % 65536) [] ∧ s.SameBytes t ∧ s.Keeps [.chain] t) ∧
    (s.TakesTx p f → f.cls = 0 → f.sub = 1 → f.vc = 0 → s.Sound → bitN (preAddr f.payload) 63 = false → 0 < preLen f.payload →
      preLen f.payload ≤ 256 → s.dataBad f.payload (preLen f.payload) = none →
      (s.enforcing = false → Answers (.read p f) s fun t =>
        t.answered f 0 (s.bytes (preAddr f.payload) (preLen f.payload)) ∧ s.SameBytes t ∧ s.Keeps [.chain, .reg R.ventWouldCnt] t) ∧
      (s.enforcing = true → s.glk0.key = none → s.glk1.key = none → Answers (.read p f) s fun t =>
        t.answered f ((Status.mk .ctxFaultAddr 0x15).code % 65536) [] ∧
        t.rn R.ventBlockCnt = min 0xFFFFFFFF (s.rn R.ventBlockCnt + 1) ∧ s.SameBytes t ∧
        s.Keeps [.chain, .vent, .sec, .reg R.ventBlockCnt, .reg R.ventLastInfo] t)) ∧
    (∀ x tag, s.Takes p f → f.cls = 0 → f.sub = 3 → f.vc = 1 → fldN f.arg 0 16 = 0 → s.chain.wait = [] →
      s.chain.out.find? (fun t => t.dst == f.src && t.txid == f.txid && (t.vc == 3) == false) = some x → x.what = .data tag →
      Answers (.response p f) s fun t => t.chain.out = s.chain.out.erase x ∧ s.Keeps [.chain] t) ∧
    (s.Takes p f → f.cls = 0 → f.sub = 3 → f.vc = 1 →
      s.chain.out.find? (fun t => t.dst == f.src && t.txid == f.txid && (t.vc == 3) == false) = none →
      Answers (.response p f) s fun t => t.chain = s.chain ∧ s.Keeps [] t) ∧
    (s.TakesTx p f → f.cls = 0 → f.sub = 7 → f.vc = 0 → s.isMgr = true → s.ctxSt (fldN f.arg 0 8) = 1 →
      (s.ctx (fldN f.arg 0 8)).flr = false → Answers (.record p f) s fun t =>
        (t.ctx (fldN f.arg 0 8)).mqWait = (s.ctx (fldN f.arg 0 8)).mqWait ++ (List.range (fldN f.arg 8 2 + 1)).map (fun i =>
          ({ ctx := fldN f.arg 0 8, words := wordsOf ((f.payload.drop (64 * i)).take 64), blk := 0x15, unit := f.src, txid := f.txid } : MRec)) ∧
        s.Keeps [.chain, .ctx (fldN f.arg 0 8)] t) ∧
    (s.TakesTx p f → f.cls = 0 → f.sub = 7 → f.vc = 0 → s.ctxSt (fldN f.arg 0 8) ≠ 1 → Answers (.record p f) s fun t =>
      t.answered f 0 [] ∧ s.Keeps [.chain] t) ∧
    (s.TakesTx p f → f.cls = 2 → f.sub = 0 → s.inQuar = false → Answers (.regRead p f) s fun t =>
      ∃ d : Dev, s.Keeps [.chain] d ∧
        t.answered f 0 (bytesOf 4 (d.regRead (natOf (f.payload.take 4) % 0x400000 / 4 * 4)).1.toNat ++ bytesOf 4 0)) ∧
    (s.TakesTx p f → f.cls = 2 → f.sub = 0 → s.inQuar = true → quarPage (natOf (f.payload.take 4) % 0x400000 / 4 * 4) = false →
      ¬(natOf (f.payload.take 4) % 0x400000 / 4 * 4 % 0x1000 < 0x10) → Answers (.regRead p f) s fun t =>
        t.answered f 0 (bytesOf 4 0 ++ bytesOf 4 1) ∧ s.Keeps [.chain] t) ∧
    (∀ (off : Nat) (P : PageInfo) (d : RegDesc) (v : Word), s.TakesTx p f → f.cls = 2 → f.sub = 1 → s.inQuar = false →
      off = natOf (f.payload.take 4) % 0x400000 / 4 * 4 → v = Word.ofNat (natOf ((f.payload.drop 4).take 4)) → off < 0x70000 →
      0x100 ≤ off % 0x1000 → pageAt off = some P → findReg P.regs (off % 0x1000) = some d → s.islOn P.isl = true →
      s.rb (hdrPage off + R.ctl) 1 = false → (∀ (u : Dev) (w : Word), u.wrSpecial (.host 0) off w = none) →
      Answers (.regWrite p f) s fun t =>
        t.reg off = ((s.reg off &&& ~~~(Word.ofNat d.rw ||| Word.ofNat d.w1c)) ||| (v &&& Word.ofNat d.rw)) |||
          (s.reg off &&& Word.ofNat d.w1c &&& ~~~v) ∧ t.answered f 0 (bytesOf 8 0) ∧ s.Keeps [.chain, .reg off] t) ∧
    (∀ x req, s.Takes p f → f.cls = 2 → f.sub = 2 → s.chain.wait = [] →
      s.chain.out.find? (fun t => t.dst == f.src && t.txid == f.txid && (t.vc == 3) == true) = some x → x.what = .regRead req →
      Answers (.regResp p f) s fun t => t.chain.out = s.chain.out.erase x ∧ .cpl req (f.payload.take 4) false ∈ t.out ∧
        s.Keeps [.chain] t) ∧
    (s.Takes p f → f.cls = 2 → f.sub = 3 → Answers (.keepalive p f) s fun t => s.Keeps [.chain] t) ∧
    (s.Takes p f → f.cls = 2 → f.sub = 4 → s.isMgr = false → Answers (.join p f) s fun t => s.Keeps [.chain] t) ∧
    (∀ a, s.Takes p f → f.cls = 2 → f.sub = 4 → s.isMgr = true → s.chooseAddr (natOf (f.payload.take 8)) = some a →
      routeOf (s.rn R.chainRoute) f.src = p + 1 → Answers (.join p f) s fun t =>
        Tab.get (fun _ => 0) t.chain.res a = natOf (f.payload.take 8) ∧ s.Keeps [.chain] t) ∧
    (∀ c, s.Takes p f → f.cls = 2 → f.sub = 5 → s.isMgr = true → f.fw = some (.teardownDone c) → Answers (.firmware p f) s fun t =>
      t.chain.held = s.chain.held.filter (· != (f.src, c)) ∧ s.Keeps [.chain] t) ∧
    (∀ e at_ tab, s.Takes p f → f.cls = 2 → f.sub = 5 → s.isMgr = false → f.src = 0 → f.fw = some (.switch e at_) →
      s.chain.next = some (e, tab) → Answers (.firmware p f) s fun t => t.chain.switchAt = some at_ ∧ s.Keeps [.chain] t)

/-- R375, R400: a waybill gives an unaddressed worker the address NEXT, and its route to the manager; one of another manager changes
nothing at the manager. SLEEP puts a worker whose sent frames are acknowledged to sleep: its links go down and launches are suspended;
until they are it drains. Under a row's name no other frame acts. -/
def Obligations.WaybillsAddressAndSleepSuspends : Prop :=
  ∀ (s : State) (p a : Nat) (f : Frame),
    (s.Hears p f → f.cls = 3 → s.isMgr = false → s.chain.addressed = false → s.chain.mgrSerial = 0 → wayReturn f.payload = false →
      wayDirected f.payload = false → (∀ k, 0 < k → k < 16 → (waySers f.payload).getD k 0 ≠ s.sec.serial) → a = wayNext f.payload → 0 < a →
      a < 16 → Answers (.waybill p f) s fun t =>
        t.addr = a ∧ t.chain.addressed = true ∧ t.chain.own = .quarantine ∧ t.chain.mgrSerial = (waySers f.payload).getD 0 0 ∧
        t.reg R.chainRoute = Word.ofNat (homeRoute a p) ∧ t.epoch = f.epoch % 256 ∧
        s.Keeps [.chain, .reg R.chainStat, .reg R.chainRoute, .reg (R.glkStat 0), .reg (R.glkStat 1)] t) ∧
    (s.Hears p f → f.cls = 3 → s.isMgr = true → (waySers f.payload).getD 0 0 ≠ s.sec.serial → Answers (.waybill p f) s fun t =>
      t.chain = s.chain ∧ t.out = s.out ∧ s.Keeps [] t) ∧
    (rowFrame 3 0 f = false → exec (.waybill p f) s = .next s) ∧
    (s.isMgr = false → s.chain.asleep = false → s.glk0.unacked = [] → s.glk1.unacked = [] → Answers (.sleep none) s fun t =>
      t.chain = { s.chain with asleep := true, draining := false } ∧ t.glkSt 0 = 0 ∧ t.glkSt 1 = 0 ∧ t.rb R.timeStat 1 = true ∧
      t.eng = s.eng ∧ t.bpm = s.bpm ∧ t.dram = s.dram ∧ t.as = s.as ∧ t.ctxs = s.ctxs ∧ t.boot = s.boot ∧ t.sec = s.sec) ∧
    (s.isMgr = false → s.chain.asleep = false → s.glk0.unacked ≠ [] → Answers (.sleep none) s fun t =>
      t.chain = { s.chain with draining := true } ∧ t.out = s.out ∧ s.Keeps [.chain] t) ∧
    ((s.isMgr = true ∨ s.chain.asleep = true) → exec (.sleep none) s = .next s)

/-- R212, R213, R219, R225: a message of this unit in flight, or one whose last MESSAGE frame has come, lands in the slot ARRIVED mod SLOTS of its channel's landing zone and ARRIVED grows
by one, or is dropped and counted on a channel that is not enabled; credits in flight, or of a CREDIT frame, reach their sender's outbound table; a SIGNAL frame
adds to its counter. Issue then goes on. -/
def Obligations.MessagesCreditsAndSignalsArrive : Prop :=
  ∀ (s : State) (k ch : Nat) (x : Flight) (o : Chan), s.coreIso k = false →
    (s.eng.flights.find? (fun f => f.dst == k && f.ch == ch) = some x → s.chOwner k ch = some o → s.asMarks = [] →
      Answers (.message k ch none) s fun t => ∃ d : Dev, t = (d.flightDone x.core x.op).pumpAll ∧
        d.asBytes k ((s.window o.ctx).1 + s.rf (R.mbxChCfg0 k ch) 0 23 + s.arrived k ch % max 1 (s.slotsOf k ch) * s.slotSize k ch)
          x.data.length = x.data ∧
        d.arrived k ch = (s.arrived k ch + 1) % 2 ^ 16 ∧ d.relCnt k ch = s.relCnt k ch ∧
        d.eng = { s.eng with flights := s.eng.flights.eraseP fun f => f.dst == k && f.ch == ch } ∧ d.out = s.out ∧
        s.Keeps [.eng, .as, .reg (R.mbxChStat k ch)] d) ∧
    (s.eng.flights.find? (fun f => f.dst == k && f.ch == ch) = some x → s.chOwner k ch = none →
      Answers (.message k ch none) s fun t => ∃ d : Dev, t = (d.flightDone x.core x.op).pumpAll ∧
        d.rn (R.mbxDropCnt k) = min 0xFFFFFFFF (s.rn (R.mbxDropCnt k) + 1) ∧ d.as = s.as ∧ s.Keeps [.eng, .reg (R.mbxDropCnt k)] d) ∧
    (s.eng.flights.find? (fun f => f.dst == k && f.ch == ch) = none → exec (.message k ch none) s = .next s) ∧
    (∀ c, s.eng.credits.find? (·.core == k) = some c → Answers (.credit k none) s fun t =>
      t.eng.credits = s.eng.credits.eraseP (·.core == k) ∧
      (∃ e ∈ (t.core k).outs, e.route = c.route ∧ e.dst = c.dst ∧ e.ch = c.ch ∧ c.n ≤ e.credits) ∧
      t.rf (R.mbxOutUsed k) 0 7 = (t.core k).outs.length % 128 ∧ (∀ j, j ≠ k → t.core j = s.core j) ∧ t.out = s.out ∧
      s.Keeps [.eng, .reg (R.mbxOutUsed k)] t) ∧
    (s.eng.credits.find? (·.core == k) = none → exec (.credit k none) s = .next s) ∧
    (∀ p f, s.TakesTx p f → f.cls = 0 → f.sub = 6 → f.vc = 2 → fldN f.arg 0 4 = k → Answers (.signalFrame p f) s fun t => ∃ d : Dev,
      t = ((d.pumpAll.respond f.src 2 f.txid 0 []).coachAll).afterFrame ∧
      d.sig k (fldN f.arg 8 2) (fldN f.arg 4 4) = min (s.sig k (fldN f.arg 8 2) (fldN f.arg 4 4) + natOf (f.payload.take 4)) 0xFFFFFFFF ∧
      (∀ b i, b * 16 + i ≠ fldN f.arg 8 2 * 16 + fldN f.arg 4 4 → d.sig k b i = s.sig k b i) ∧
      s.Keeps [.chain, .eng, .reg (R.seqStat k)] d) ∧
    (∀ p f bs o, s.TakesTx p f → f.cls = 0 → f.sub = 4 → f.vc = 2 → fldN f.arg 0 4 = k → fldN f.arg 4 5 = ch →
      bs = Tab.get (fun _ => []) s.eng.partials (k * 32 + ch) ++ f.payload →
      (bitN f.arg 18 = false → Answers (.message k ch (some (p, f))) s fun t =>
        t.eng = { s.eng with partials := Tab.set (fun _ => []) s.eng.partials (k * 32 + ch) bs } ∧ s.Keeps [.chain, .eng] t) ∧
      (bitN f.arg 18 = true → s.chOwner k ch = some o → s.asMarks = [] → Answers (.message k ch (some (p, f))) s fun t => ∃ d : Dev,
        t = (d.pumpAll.respond f.src 2 f.txid 0 []).afterFrame ∧
        d.asBytes k ((s.window o.ctx).1 + s.rf (R.mbxChCfg0 k ch) 0 23 + s.arrived k ch % max 1 (s.slotsOf k ch) * s.slotSize k ch)
          bs.length = bs ∧
        d.arrived k ch = (s.arrived k ch + 1) % 2 ^ 16 ∧ d.eng.partials = Tab.del (k * 32 + ch) s.eng.partials ∧
        s.Keeps [.chain, .eng, .as, .reg (R.mbxChStat k ch)] d)) ∧
    (∀ p f o, s.TakesTx p f → f.cls = 0 → f.sub = 5 → f.vc = 2 → fldN f.arg 0 4 = k →
      (s.core k).outs.find? (fun o => o.dst == f.src * 16 + fldN (natOf (f.payload.take 4)) 0 4 &&
        o.ch == fldN (natOf (f.payload.take 4)) 4 5) = some o →
      Answers (.credit k (some (p, f))) s fun t => ∃ d : Dev, t = (d.pumpAll.respond f.src 2 f.txid 0 []).afterFrame ∧
        (d.core k).outs = (s.core k).outs.map (fun e => if e.route = o.route ∧ e.dst = o.dst ∧ e.ch = o.ch
          then { e with credits := e.credits + fldN (natOf (f.payload.take 4)) 16 16 } else e) ∧
        s.Keeps [.chain, .eng, .reg (R.mbxOutUsed k)] d)

/-- R143, R156-R160, R174: an entry that the doorbell announced is taken by CHAIN for a stream of this unit: one of length 0 or another stream's,
or one longer than the pool's buffers, is discarded and counted in DROPS; any other one's payload is copied to a new bitstream buffer
and joins the stream's queue. CONS passes it. With nothing announced nothing happens. -/
def Obligations.IngressEntriesBecomeAccessUnits : Prop :=
  ∀ (s : State) (k a len : Nat) (r : Ring) (onePic start : Bool) (w : Nat → Nat → Nat), s.inRing k = some r → s.ctxSt r.ctx = 1 →
    s.blkRuns 0x7A000 = true → r.unit = s.addr → s.Sound → r.xfer = .idle →
    w = (fun i n => natOf (s.bytes (r.addr + 0x40 + 32 * (r.fetch % 2 ^ r.n) + i) n)) → len = w 8 3 →
    (r.fetch % 2 ^ 20 = r.door → exec (.ingressEntry k onePic start) s = .next s) ∧
    (r.fetch % 2 ^ 20 ≠ r.door → (len = 0 ∨ w 0xC 4 % 4096 ≠ k ∨ r.size < len) → Answers (.ingressEntry k onePic start) s fun t =>
      t.inRing k = some { r with fetch := (r.fetch + 1) % 2 ^ 32, drops := (r.drops + 1) % 2 ^ 32, doors := doorsFrom ((r.fetch + 1) % 2 ^ 32) r.doors } ∧
      (∀ j, j ≠ k → t.inRing j = s.inRing j) ∧ t.bytes r.addr 8 = bytesOf 4 ((r.fetch + 1) % 2 ^ 32) ++ bytesOf 4 ((r.drops + 1) % 2 ^ 32) ∧
      (∀ b, b < r.addr ∨ r.addr + 8 ≤ b → t.byte b = s.byte b) ∧ s.Keeps [.eng, .dram] t) ∧
    (∀ x i y, r.fetch % 2 ^ 20 ≠ r.door → len ≠ 0 → w 0xC 4 % 4096 = k → len ≤ r.size → s.ctxDram r.ctx (w 0 8) len = some a →
      onePic = true → s.bpmDown = false → s.poolMay r.pool r.ctx = true → s.admits r.pool 75 = none → s.freeHead r.pool = some (i, y) →
      i < 2 ^ 20 → r.pool < 16 → s.eng.tags < 2 ^ 47 → s.strm k = some x → x.mode = 0 → x.retain = [] → x.queue ≠ [] →
      (∀ q l, x.queue = q :: l → q.pic ≠ .no) → (r.base + i * r.size + len ≤ r.addr ∨ r.addr + 4 ≤ r.base + i * r.size) →
      Answers (.ingressEntry k onePic start) s fun t =>
        t.strm k = some { x with queue := x.queue ++
          [{ h := t.handleOf r.pool i, addr := r.base + i * r.size, len, tag := w 0x18 4
             cts := if bitN (w 0xB 1) 0 then w 0x10 8 else doorTime r.fetch r.doors, est := !bitN (w 0xB 1) 0
             discont := bitN (w 0xB 1) 1, start }] } ∧
        t.inRing k = some { r with fetch := (r.fetch + 1) % 2 ^ 32, doors := doorsFrom ((r.fetch + 1) % 2 ^ 32) r.doors } ∧
        (∀ j, j ≠ k → t.inRing j = s.inRing j ∧ t.strm j = s.strm j) ∧ t.bytes r.addr 4 = bytesOf 4 ((r.fetch + 1) % 2 ^ 32) ∧
        t.bytes (r.base + i * r.size) len = s.bytes a len ∧
        (∀ b, (b < r.addr ∨ r.addr + 4 ≤ b) → (b < r.base + i * r.size ∨ r.base + i * r.size + len ≤ b) → t.byte b = s.byte b) ∧
        (t.buf r.pool i).st = .alloc ∧ (t.buf r.pool i).count = 1 ∧ s.Keeps [.eng, .bpm, .dram] t)

/-- R8, R155, R156, R163, R165-R167, R173, R340: an idle engine takes the front access unit of its only ready stream; the picture is flagged
when a reference or a frame before it is missing; one before the stream's first start point is discarded and counted. When the picture's
writes are acknowledged it joins the decoded picture buffer, the pictures that are output join the ready queue with a reference, and the
bitstream buffer is released. Its samples are free values of the standard's decoding process. -/
def Obligations.PicturesAreDecodedAndOutput : Prop :=
  ∀ (s : State) (n k : Nat), n < 4 →
    (∀ x i a l h, s.blkRuns (vdecPage n) = true → (s.vdec n).job = none → s.boot.codecOk = true → s.Sound →
      s.eng.streams.filter (fun x => (x.2.bind (·.eng)) == some n) = [(k, some x)] → s.strm k = some x → x.detach = none →
      x.queue = a :: l → a.pic = .got h → i.sps = .same →
      (∀ p, a.twin.settled = true → x.sps = some p → x.st ≠ .refused → (x.st = .waitStart → i.start ≠ .no) → i.usesBad = false → i.rasl = false →
        (∀ b m, l = b :: m → b.pic ≠ .no) → Answers (.pictureDecodeStart n i) s fun t => ∃ j, (t.vdec n).job = some j ∧
          j.stream = k ∧ j.au = a ∧ j.sps = p ∧ j.refs = i.refs ∧ (t.vdec n).last = some k ∧
          (j.synth = true ↔ i.missing = true ∨ ((a.discont = true ∨ x.gap = true) ∧ i.start ≠ .key) ∨
            (∃ d ∈ x.dpb, d.bad = true ∧ d.pic.h ∈ i.refs) ∨ (i.start = .sei ∧ x.st = .waitStart)) ∧
          t.strm k = some { x with queue := l, gap := false
                                   st := if j.synth then .recovering else if i.start = .key ∨ x.st = .waitStart then .decoding else x.st } ∧
          t.rb (R.vdecStat n) 7 = true ∧ t.rf (R.vdecStat n) 8 12 = k % 4096 ∧ (∀ j, j ≠ k → t.strm j = s.strm j) ∧
          (∀ m, m ≠ n → t.vdec m = s.vdec m) ∧ s.Keeps [.eng, .draws, .reg (R.vdecStat n), .reg (R.vdecSwitchMax n)] t) ∧
      (a.twin = .no → x.st = .waitStart → i.start = .no → l = [] → s.Frees x.ctx a.h → s.Frees x.ctx h →
        (hPool a.h, hIdx a.h) ≠ (hPool h, hIdx h) → Answers (.pictureDecodeStart n i) s fun t =>
          t.strm k = some { x with queue := [], disc := min 65535 (x.disc + 1), gap := true } ∧ (∀ j, j ≠ k → t.strm j = s.strm j) ∧
          (∀ m, t.vdec m = s.vdec m) ∧ (t.buf (hPool a.h) (hIdx a.h)).st = .free ∧ (t.buf (hPool h) (hIdx h)).st = .free ∧
          s.Keeps [.eng, .bpm] t)) ∧
    ((s.blkRuns (vdecPage n) = false ∨ (s.vdec n).job ≠ none) → ∀ i, exec (.pictureDecodeStart n i) s = .next s) ∧
    (∀ x d h r, s.Sound → (s.vdec n).job = some d → d.stream = k → k ≠ clipKey → s.strm k = some x → x.dpb = [] → x.st = .decoding → x.twin = 0 →
      x.detach = none → x.ready.length < 8 → d.au.pic = .got h → d.au.twin = .no → h ≠ 0 → s.Frees x.ctx d.au.h →
      (hPool d.au.h, hIdx d.au.h) ≠ (hPool h, hIdx h) → s.hValid h = true → s.poolMay (hPool h) x.ctx = true →
      0 < (s.buf (hPool h) (hIdx h)).count → (s.buf (hPool h) (hIdx h)).count < 65535 → r.concealed = 0 → r.keep = true → r.drop = [] →
      r.recovered = false → r.out = [h] → Answers (.pictureDecodeDone n r) s fun t => ∃ p : Pic,
        p = { h, twin := 0, stream := k, w := d.sps.w, hgt := d.sps.h, crop := d.sps.crop, fmt := x.fmt, cts := d.au.cts, tag := d.au.tag
              est := d.au.est, noTwin := false, conc := 0 } ∧
        t.strm k = some { x with dpb := [{ pic := p, ref := true, wait := false, bad := false }], pics := (x.pics + 1) % 2 ^ 32
                                 ready := x.ready ++ [{ p with recov := false, n := (x.pics + 1) % 2 ^ 32 }] } ∧
        (t.vdec n).job = none ∧ t.rb (R.vdecStat n) 7 = false ∧ (∀ j, j ≠ k → t.strm j = s.strm j) ∧
        (t.buf (hPool h) (hIdx h)).count = (s.buf (hPool h) (hIdx h)).count + 1 ∧ (t.buf (hPool d.au.h) (hIdx d.au.h)).st = .free ∧
        t.ctx x.ctx = { s.ctx x.ctx with hbPics := (s.ctx x.ctx).hbPics + 1 } ∧
        (∀ b, b < s.hAddr h ∨ s.hAddr h + picBytes x.fmt d.sps.w d.sps.h ≤ b → t.byte b = s.byte b) ∧
        s.Keeps [.eng, .bpm, .dram, .draws, .ctx x.ctx, .reg (R.vdecStat n)] t) ∧
    ((s.vdec n).job = none → ∀ r, exec (.pictureDecodeDone n r) s = .next s)

/-- R196-R199, R212, R214, R216, R219-R223, R226, R338: a SEQ command that may issue executes: RECV releases slots, whose credits fly to the
sender, and waits; SIGNAL adds to a counter; WAIT and BARRIER wait, a BARRIER after signalling its first core; LOOP opens a loop, BRANCH
goes to its target when its condition holds, TIMEWAIT lets issue go on when its time is past, and later when it comes; END stops issue, and
with nothing issued left the program of a coach route ends its step. A wait that lasts SEQ_WAIT_TMO, or fields outside their ranges, stop
the program and fault its context. Issue then goes on on every core. -/
def Obligations.SequencerCommandsExecute : Prop :=
  ∀ (s : State) (k : Nat) (p : Prog) (w : List Word),
    (∀ o a j, s.Issues k 0x11 p w → s.chOwner k (cf w 1 0 5) = some o → o.route = p.route → cf w 2 0 16 ≤ s.chHeld k (cf w 1 0 5) →
      cf w 3 0 16 ≤ s.slotsOf k (cf w 1 0 5) → s.chKind k (cf w 1 0 5) = 0 → s.physCore p.route (s.chSender k (cf w 1 0 5)) = some a →
      s.localCore a = some j → (∀ x ∈ s.eng.notices, x.core ≠ k) → Steps (.recv k) s fun d =>
        d.prog k = some { p with wait := some { w, acted := true } } ∧
        d.relCnt k (cf w 1 0 5) = (s.relCnt k (cf w 1 0 5) + cf w 2 0 16) % 2 ^ 16 ∧ d.arrived k (cf w 1 0 5) = s.arrived k (cf w 1 0 5) ∧
        d.eng.credits = s.eng.credits ++ (if cf w 2 0 16 = 0 then [] else [{ core := j, route := p.route, dst := s.addr * 16 + k, ch := cf w 1 0 5, n := cf w 2 0 16, size := s.slotSize k (cf w 1 0 5) }]) ∧
        (∀ i, i ≠ k → d.core i = s.core i) ∧ d.out = s.out ∧ s.Keeps [.eng, .reg (R.mbxChStat k (cf w 1 0 5))] d) ∧
    (∀ a j b, s.Issues k 0x12 p w → p.ops = [] → s.physCore p.route (cf w 1 0 8) = some a → s.localCore a = some j →
      s.unitThere (a / 16) = true → s.coreIso j = false → (s.progOf j p.route).map (·.bank) = some b → Steps (.signal k) s fun d =>
        d.prog k = some ({ p with nextId := p.nextId + 1 } : Prog).advance ∧
        d.sig j b (cf w 1 8 4) = min (s.sig j b (cf w 1 8 4) + (cw w 2).toNat) 0xFFFFFFFF ∧
        (∀ i, i ≠ b * 16 + cf w 1 8 4 → Tab.get (fun _ => 0) (d.core j).sig i = Tab.get (fun _ => 0) (s.core j).sig i) ∧
        (∀ i, i ≠ k → i ≠ j → d.core i = s.core i) ∧ d.out = s.out ∧ s.Keeps [.eng, .reg (R.seqStat j)] d) ∧
    (s.Issues k 0x13 p w → Steps (.wait k) s fun d => d.prog k = some { p with wait := some { w, acted := true } } ∧
      (∀ i, i ≠ k → d.core i = s.core i) ∧ d.out = s.out ∧ s.Keeps [.eng] d) ∧
    (∀ q x d, cOp x.w = 0x13 → s.prog k = some q → s.tryWait k q x = some d → (cw x.w 2).toNat ≤ s.sig k q.bank (cf x.w 1 0 4) ∧
      d.sig k q.bank (cf x.w 1 0 4) = s.sig k q.bank (cf x.w 1 0 4) - (cw x.w 2).toNat ∧
      d.prog k = some ({ q with wait := none } : Prog).advance) ∧
    (s.Issues k 0x14 p w → p.ops = [] → cf w 1 0 8 = p.lcore → 0 < cf w 2 0 9 → Steps (.barrier k) s fun d =>
      d.prog k = some { p with wait := some { w, acted := true } } ∧ (∀ i, i ≠ k → d.core i = s.core i) ∧ d.out = s.out ∧ s.Keeps [.eng] d) ∧
    (∀ a j b, s.Issues k 0x14 p w → p.ops = [] → cf w 1 0 8 < p.lcore → p.lcore < cf w 1 0 8 + cf w 2 0 9 →
      s.physCore p.route (cf w 1 0 8) = some a → s.localCore a = some j → s.coreIso j = false →
      (s.progOf j p.route).map (·.bank) = some b → Steps (.barrier k) s fun d =>
        d.prog k = some { p with wait := some { w, acted := true } } ∧ d.sig j b 15 = min (s.sig j b 15 + 1) 0xFFFFFFFF ∧
        (∀ i, i ≠ k → i ≠ j → d.core i = s.core i) ∧ d.out = s.out ∧ s.Keeps [.eng, .reg (R.seqStat j)] d) ∧
    (s.Issues k 0x20 p w → p.loops.length < 4 → p.pc + 1 + cf w 2 0 12 ≤ p.len → Steps (.loop k) s fun d =>
      d.prog k = some { p with pc := p.pc + 1, lcs := Tab.set (fun _ => 0) p.lcs p.loops.length 0,
                               loops := { first := p.pc + 1, last := p.pc + 1 + cf w 2 0 12, count := cf w 1 0 16, lc := 0 } :: p.loops } ∧
      (∀ i, i ≠ k → d.core i = s.core i) ∧ d.out = s.out ∧ s.Keeps [.eng] d) ∧
    (∀ taken : Prop, s.Issues k 0x21 p w →
      (taken ↔ cXf w 0 3 = 0 ∨ (cXf w 0 3 = 1 ∧ p.lc (cf w 2 0 4) = (cw w 3).toNat) ∨ (cXf w 0 3 = 2 ∧ p.lc (cf w 2 0 4) ≠ (cw w 3).toNat) ∨
        (cXf w 0 3 = 3 ∧ (cw w 3).toNat ≤ s.sig k p.bank (cf w 2 0 4)) ∨ (cXf w 0 3 = 4 ∧ s.sig k p.bank (cf w 2 0 4) < (cw w 3).toNat)) →
      Steps (.branch k) s fun d =>
        (taken → ∃ l, d.prog k = some { p with pc := (cw w 1).toNat, loops := l } ∧ l <:+ p.loops ∧
          (∀ x ∈ l.head?, x.first ≤ (cw w 1).toNat ∧ (cw w 1).toNat < x.last)) ∧
        (¬taken → d.prog k = some p.advance) ∧ (∀ i, i ≠ k → d.core i = s.core i) ∧ d.out = s.out ∧ s.Keeps [.eng] d) ∧
    (s.Issues k 0x22 p w → Steps (.timewait k) s fun d =>
      d.prog k = some (if (cw w 1).toNat + (cw w 2).toNat * 2 ^ 32 ≤ s.ns then p.advance else { p with wait := some { w, acted := true } }) ∧
      (∀ i, i ≠ k → d.core i = s.core i) ∧ d.out = s.out ∧ s.Keeps [.eng] d) ∧
    (∀ x, s.Runs k p → p.wait = some x → cOp x.w = 0x22 → Steps (.timewaitReached k) s fun d =>
      d.prog k = some (if waitTime x.w ≤ s.ns then ({ p with wait := none } : Prog).advance else p) ∧
      (∀ i, i ≠ k → d.core i = s.core i) ∧ d.out = s.out ∧ s.Keeps [.eng] d) ∧
    (s.Issues k 0x3F p w → p.ops ≠ [] → Steps (.end_ k) s fun d => d.prog k = some { p with ending := true } ∧
      (∀ i, i ≠ k → d.core i = s.core i) ∧ d.out = s.out ∧ s.Keeps [.eng] d) ∧
    (∀ x u l, s.Issues k 0x3F p w → p.ops = [] → s.route p.route = some x → x.told = some true → x.coach ≠ none → x.steps = u :: l →
      Steps (.end_ k) s fun d => (d.core k).cur = none ∧ (d.progOf k p.route).map (·.st) = some .ended ∧
        d.route p.route = some { x with steps := { u with running := u.running.erase (s.addr * 16 + k) } :: l } ∧
        (∀ i, i ≠ k → d.core i = s.core i) ∧ d.out = s.out ∧ s.Keeps [.eng] d) ∧
    (∀ x, s.Runs k p → p.wait = some x → cOp x.w ≠ 0x22 → s.rn (R.seqWaitTmo k) ≠ 0 →
      Stops (.seqWaitTimeout k) s k p ⟨.ctxFaultTimeout, 0x20⟩ (s.rn (R.seqWaitTmo k)) fun d => s.Keeps [.eng] d) ∧
    (∀ op ∈ seqOps, s.Next k op p w → ccmdBad w p.len (s.nlOf p.route) = true →
      Stops (seqRow op k) s k p ⟨.ctxFaultCmd, 0x20⟩ (cTag w) fun d => s.Keeps [.eng] d)

/-- R197, R199, R202, R203, R205-R208, R211-R213, R216, R240, R335-R337, R348, R407: the oldest command of a queue executes: SEND takes a
credit and its message flies, and waits while it holds none; MOVE copies a row between the activation store and DRAM; WSTREAM fills its half
of the weight stage. A command that is done frees its slot. A credit that does not come in time, or a multicast group that does not join in
time, fails its command; PREEMPT asks a program to stop for one of higher priority, and RESUME takes a preempted one up again; a cut pass is
counted. SCHED_CORE_OFF takes an unused core out of service and refuses a used one. -/
def Obligations.QueueCommandsOfCoresExecute : Prop :=
  ∀ (s : State) (k : Nat) (p : Prog) (o : Op), o.done = false →
    (∀ halo a e j bs, s.Runs k p → (p.ops.find? fun o => o.q == 3 && !o.done && decide (cXf o.w 0 1 = bN halo)) = some o →
      s.opCheck p o = none →
      (s.sendTo k p.route (cf o.w 3 0 8) (cf o.w 3 8 5) (cf o.w 2 0 17) (cTag o.w) halo = .go a e → s.localCore a = some j →
        s.asRd k (cf o.w 1 0 23) (cf o.w 2 0 17) = .ok bs → Steps (.send k halo) s fun d =>
          d.eng.flights = s.eng.flights ++ [{ dst := j, ch := cf o.w 3 8 5, data := bs, core := k, op := o.id }] ∧
          d.prog k = some { p with ops := p.ops.map fun q => if q.id = o.id then { o with done := true, flight := 1 } else q } ∧
          (d.core k).outs = (s.core k).outs.map (fun x => if x = e then { x with credits := x.credits - 1 } else x) ∧
          (∀ i, i ≠ k → d.core i = s.core i) ∧ d.out = s.out ∧ s.Keeps [.eng] d) ∧
      (s.sendTo k p.route (cf o.w 3 0 8) (cf o.w 3 8 5) (cf o.w 2 0 17) (cTag o.w) halo = .wait → Steps (.send k halo) s fun d =>
        d = s.toDev)) ∧
    (∀ a b bs, s.Runs k p → p.front 2 5 = some o → s.opCheck p o = none → cf o.w 6 0 16 = 1 → s.Sound → s.asMarks = [] →
      bs.length = cf o.w 5 0 24 →
      (cXf o.w 2 2 = 0 → (cXf o.w 0 2 = 0 ∧ s.asRd k (cf o.w 1 0 23) bs.length = .ok bs ∨ cXf o.w 0 2 = 1 ∧
          s.operand p (cw o.w 1).toNat (cw o.w 2).toNat bs.length = .ok a ∧ bs = s.bytes a bs.length) →
        s.asAt k (cf o.w 3 0 23) bs.length = .ok b → Steps (.move k) s fun d => d.asBytes k b bs.length = bs ∧
          (∀ x, x < k * 2 ^ 23 + b ∨ k * 2 ^ 23 + b + bs.length ≤ x → Tab.get (fun _ => 0) d.as x = Tab.get (fun _ => 0) s.as x) ∧
          d.prog k = some { p with ops := p.ops.map fun q => if q.id = o.id then { o with done := true } else q } ∧
          (∀ i, i ≠ k → d.core i = s.core i) ∧ s.Keeps [.eng, .as] d) ∧
      (cXf o.w 0 2 = 0 → cXf o.w 2 2 = 1 → s.asRd k (cf o.w 1 0 23) bs.length = .ok bs →
        s.operand p (cw o.w 3).toNat (cw o.w 4).toNat bs.length = .ok a → Steps (.move k) s fun d => d.bytes a bs.length = bs ∧
          (∀ x, x < a ∨ a + bs.length ≤ x → d.byte x = s.byte x) ∧
          d.prog k = some { p with ops := p.ops.map fun q => if q.id = o.id then { o with done := true } else q } ∧
          (∀ i, i ≠ k → d.core i = s.core i) ∧ s.Keeps [.eng, .dram] d)) ∧
    (∀ a, s.Runs k p → p.wsFront = some o → s.opCheck p o = none → cXf o.w 1 1 = 0 → halfFree p o = true → s.Sound →
      s.operand p (cw o.w 1).toNat (cw o.w 2).toNat (cf o.w 3 0 21) = .ok a →
      ((cw o.w 1).toNat = 0 → ∀ q i, s.ownerOf p.image = some (q, i) → (s.buf q i).bad = false) →
      ((cw o.w 1).toNat ≠ 0 → (s.buf (hPool (cw o.w 1).toNat) (hIdx (cw o.w 1).toNat)).bad = false) → Steps (.wstream k) s fun d =>
        (∀ i, Tab.get (fun _ => 0) (d.core k).ws i =
          (if wsHalf o.w * 2 ^ 20 + cf o.w 4 0 20 ≤ i ∧ i < wsHalf o.w * 2 ^ 20 + cf o.w 4 0 20 + cf o.w 3 0 21
            then s.byte (a + (i - (wsHalf o.w * 2 ^ 20 + cf o.w 4 0 20))) else Tab.get (fun _ => 0) (s.core k).ws i)) ∧
        (∃ q, d.prog k = some q ∧ q.ops = p.ops.map (fun q => if q.id = o.id then { o with done := true } else q) ∧
          (if wsHalf o.w = 0 then q.wsA else q.wsB) = some o.w) ∧ (∀ i, i ≠ k → d.core i = s.core i) ∧ d.out = s.out ∧ s.Keeps [.eng] d) ∧
    (∀ g j, k < 16 → s.mcast g = some [k, j] → s.joined g k = some (p, o) → s.joined g j = none → s.rn (R.wsuMcastTmo k) ≠ 0 →
      Stops (.wsuMcastTimeout g) s k p ⟨.ctxFaultTimeout, 0x25⟩ (s.rn (R.wsuMcastTmo k)) fun d => d.rb (R.wsuStat k) 2 = false ∧
        s.Keeps [.eng, .reg (R.wsuStat k)] d) ∧
    (∀ i x, s.Runs k p → p.ops.find? (·.id == i) = some x →
      (x.done = true → x.flight = 0 → p.ending = false → Steps (.ccmdComplete k i) s fun d =>
        d.prog k = some { p with ops := p.ops.filter (·.id != i) } ∧ (∀ i, i ≠ k → d.core i = s.core i) ∧ d.out = s.out ∧ s.Keeps [.eng] d) ∧
      ((x.done = false ∨ x.flight ≠ 0) → Steps (.ccmdComplete k i) s fun d => d = s.toDev)) ∧
    (∀ sub, sub ≠ 5 → s.Runs k p → s.rn (R.mbxCreditTmo k) ≠ 0 → s.creditWaiter k sub p = some o →
      Stops (.creditTimeout k sub) s k p ⟨.creditTimeout, 0x24⟩ (s.rn (R.mbxCreditTmo k)) fun d =>
        d.rb (corePage k 4 + R.irqStat) 16 = true ∧ s.Keeps [.eng] d) ∧
    (s.Runs k p → p.halt = true → s.rn (R.mxuPreemptTmo k) ≠ 0 → (∃ x ∈ p.ops, x.q = 0 ∧ x.begun = true ∧ x.done = false) →
      Steps (.mxuPreemptTimeout k) s fun d => d.rb (corePage k 1 + R.irqStat) 18 = true ∧ s.Keeps [] d) ∧
    (∀ q, k < 16 → s.prog k = some p → p.st = .run → s.blkRuns (corePage k 0) = true → s.bestOn k = some q → p.halt = false →
      p.ending = false → s.schedDown = false →
      (s.prioOf p < s.prioOf q → Steps (.preempt k) s fun d => d.prog k = some { p with halt := true, since := s.ns } ∧
        (∀ i, i ≠ k → d.core i = s.core i) ∧ d.out = s.out ∧ s.Keeps [.eng] d) ∧
      (s.prioOf q ≤ s.prioOf p → Steps (.preempt k) s fun d => d = s.toDev)) ∧
    (∀ q, k < 16 → (s.core k).cur = none → s.rb R.schedCoreOff k = false → s.schedDown = false → s.bestOn k = some q → q.st = .parked →
      (s.core k).imemOf = some q.ctx → q.wsA = none → q.wsB = none → Steps (.resume k) s fun d =>
        d.prog k = some { q with st := .run, halt := false } ∧ d.asBase k = (s.window q.ctx).1 % 2 ^ 23 ∧ d.rn (R.seqProgOff k) = q.off % 2 ^ 32 ∧
        (∀ i, i ≠ k → d.core i = s.core i) ∧ d.out = s.out ∧
        s.Keeps [.eng, .reg (R.seqAsBase k), .reg (R.seqAsLimit k), .reg (R.seqProgOff k)] d) ∧
    (∀ v, s.pfUp = true → s.islOn (islOf 0x7000) = true → s.rb (0x7000 + R.ctl) 1 = false → k < 16 → s.rb R.schedCoreOff k = false →
      v = s.reg R.schedCoreOff ||| Word.ofNat (2 ^ k) →
      ((s.core k).progs = [] → Answers (.schedCoreOff (.host 0) v) s fun t => t.reg R.schedCoreOff = v ∧ t.eng = s.eng ∧
        s.Keeps [.reg R.schedCoreOff] t) ∧
      ((s.core k).progs ≠ [] → Answers (.schedCoreOff (.host 0) v) s fun t => t.reg R.schedCoreOff = s.reg R.schedCoreOff ∧
        t.rb R.schedCoreRefused k = true ∧ t.rb (0x7000 + R.irqStat) 0 = true ∧ s.Keeps [.reg R.schedCoreRefused] t))

/-- R228-R231, R234, R236-R239, R243, R249-R251, R260, R267: a MATMUL of one STORE stage starts and delivers its pass: element (i, j) of the
product, with its seed, lies at the packed address afterwards. A started MATMUL, CONV or DWCONV delivers its next pass where STORE places
it, ADG_PASS names the pass after it, and the command is done with its last. Fields outside their ranges stop the program and fault its
context. -/
def Obligations.MatrixCommandsDeliverTheirPasses : Prop :=
  ∀ (s : State) (k sub : Nat) (p : Prog) (o : Op),
    (∀ m n a b x st blk seeds, s.Runs k p → p.mxuPick sub = some o → cOp o.w = 1 → p.halt = false → s.blkRuns (corePage k 1) = true →
      s.opCheck p o = none → o.done = false → o.begun = false → o.pass = 0 → (cf o.w 2 29 2 = 2 ∨ weightsReady p o = true) →
      m = cf o.w 3 0 9 → n = cf o.w 3 9 9 → epiKind o.w = 1 → epiN o.w = 1 → s.asRd k (epiAddr o.w) 24 = .ok blk →
      natOf (blk.take 8) = 0 → epiStages (passOf o 0) 1 (accType (opAcc o)) blk = .ok [st] → st.k = 8 → s.asMarks = [] →
      s.matA k o.w = .ok x → s.matB k o.w (cf o.w 4 0 16) = .ok b → s.matSeed k o.w m = .ok seeds →
      a = s.asBase k + st.addr → a + (m - 1) * packed n 4 + n * 4 ≤ s.asLimit k → Steps (.matmul k sub false) s fun d =>
        (∀ i j, i < m → j < n → d.asBytes k (a + i * packed n 4 + j * 4) 4 = bytesOf 4
          (cell (cf o.w 4 22 3) (cf o.w 4 25 3) (cf o.w 4 28 1) (cellOf seeds i j) (x.getD i []) (b.getD j [])).1.toNat) ∧
        (∀ y, y < k * 2 ^ 23 + a ∨ k * 2 ^ 23 + a + (m - 1) * packed n 4 + n * 4 ≤ y →
          Tab.get (fun _ => 0) d.as y = Tab.get (fun _ => 0) s.as y) ∧
        (∃ q, d.prog k = some q ∧ ∃ y ∈ q.ops, y.id = o.id ∧ y.done = true ∧ y.pass = 1) ∧
        d.rn (R.mxuPassCnt k) = (s.rn (R.mxuPassCnt k) + 1) % 2 ^ 32 ∧ (∀ j, j ≠ k → d.core j = s.core j) ∧
        s.Keeps [.eng, .as, .draws, .page (corePage k 1)] d) ∧
    (∀ op st x l pads b seeds u, op = 1 ∨ op = 2 → s.Runs k p → p.mxuPick sub = some o → cOp o.w = op → p.halt = false →
      s.blkRuns (corePage k 1) = true → s.opCheck p o = none → o.begun = true → o.pass < opPasses o →
      (cf o.w 2 29 2 = 2 ∨ weightsReady p o = true) → epiKind o.w = 1 →
      epiStages (passOf o o.pass) (epiN o.w) (accType (opAcc o)) o.epi = .ok [st] → st.k = 8 → s.passA k o (passOf o o.pass) = .ok (x, l, pads) →
      s.matB k o.w (if op = 1 then cf o.w 4 0 16 else (AdgDesc.ofBytes o.desc).k) = .ok b →
      s.matSeed k o.w (passOf o o.pass).mb = .ok seeds →
      s.putCells k st.addr (wtSize st.t) false (placeAt (passOf o o.pass) (wtSize st.t) st.tr (fldN (natOf (o.epi.take 4)) 0 16 * 64)
          (fldN (natOf ((o.epi.drop 4).take 4)) 0 18 * 64) (fldN (natOf (o.epi.take 4)) 16 16)) (elemOrder (passOf o o.pass) st.tr)
        ((matProd (cf o.w 4 22 3) (cf o.w 4 25 3) (opAcc o) seeds x b).map fun r => r.map (·.1)) = .ok u →
      Steps (if op = 1 then .matmul k sub false else .conv k sub false) s fun d => d.as = u.as ∧ d.asMarks = u.asMarks ∧
        (∃ q, d.prog k = some q ∧ ∃ y ∈ q.ops, y.id = o.id ∧ y.pass = o.pass + 1 ∧ (y.done = true ↔ o.pass + 1 = opPasses o)) ∧
        (op = 2 → d.rn (R.adgPass k) = (o.pass + 1) % 2 ^ 32) ∧ d.rn (R.mxuPassCnt k) = (s.rn (R.mxuPassCnt k) + 1) % 2 ^ 32 ∧
        (∀ j, j ≠ k → d.core j = s.core j) ∧ s.Keeps [.eng, .as, .asMarks, .draws, .page (corePage k 1), .page (corePage k 3)] d) ∧
    (∀ g st cols u, s.Runs k p → p.front 1 3 = some o → s.blkRuns (corePage k 2) = true → s.opCheck p o = none → o.begun = true →
      o.pass < opPasses o → epiKind o.w = 1 → g = AdgDesc.ofBytes o.desc →
      epiStages (passOf o o.pass) (epiN o.w) (accType (opAcc o)) o.epi = .ok [st] → st.k = 8 →
      (List.range g.noc).mapM (s.dwCol k o g (passOf o o.pass)) = .ok cols →
      s.putCells k st.addr (wtSize st.t) false (placeAt (passOf o o.pass) (wtSize st.t) st.tr (fldN (natOf (o.epi.take 4)) 0 16 * 64)
          (fldN (natOf ((o.epi.drop 4).take 4)) 0 18 * 64) (fldN (natOf (o.epi.take 4)) 16 16)) (elemOrder (passOf o o.pass) st.tr)
        ((List.range (passOf o o.pass).mb).map fun i => cols.map fun c => c.1.getD i 0) = .ok u →
      Steps (.dwconv k) s fun d => d.as = u.as ∧ d.asMarks = u.asMarks ∧
        (∃ q, d.prog k = some q ∧ ∃ y ∈ q.ops, y.id = o.id ∧ y.pass = o.pass + 1 ∧ (y.done = true ↔ o.pass + 1 = opPasses o)) ∧
        d.rn (R.adgPass k) = (o.pass + 1) % 2 ^ 32 ∧ (∀ j, j ≠ k → d.core j = s.core j) ∧
        s.Keeps [.eng, .as, .asMarks, .draws, .page (corePage k 3)] d) ∧
    (∀ op par, op = 1 ∨ op = 2 → s.Runs k p → p.mxuPick sub = some o → cOp o.w = op → p.halt = false → s.blkRuns (corePage k 1) = true →
      ccmdBad o.w p.len (s.nlOf p.route) = true →
      Stops (if op = 1 then .matmul k sub par else .conv k sub par) s k p ⟨.ctxFaultCmd, 0x21⟩ (cTag o.w) fun d => s.Keeps [.eng] d)

/-- R254, R255, R272, R273: a VEC command starts its program in bank 0, with the iteration and ARG in s0 and s1; a tile of a vector-program
epilogue starts its program in bank 1, with its rows and columns, its coordinates and ARG in s0 to s8. VEND ends the iteration, after the
last one the command, or the tile, after which the next one is due. -/
def Obligations.VectorProgramsStartAndEnd : Prop :=
  ∀ (s : State) (k : Nat) (p : Prog) (o : Op),
    (s.Runs k p → p.front 1 4 = some o → s.blkRuns (corePage k 2) = true → p.bank0.on = false → p.halt = false → s.opCheck p o = none →
      vIllegal 0 (s.imem k (cf o.w 1 0 12)) = false → Steps (.vec k) s fun d => ∃ q, d.prog k = some q ∧ q.bank0.on = true ∧
        q.bank0.pc = cf o.w 1 0 12 ∧ q.bank0.sc 0 = Word.ofNat o.pass ∧ q.bank0.sc 1 = Word.ofNat (cf o.w 3 0 23) ∧
        (∀ n, 1 < n → n < 16 → q.bank0.sc n = p.bank0.sc n) ∧ q.bank0.v = p.bank0.v ∧ q.bank0.p = p.bank0.p ∧ q.bank1 = p.bank1 ∧
        (∀ j, j ≠ k → d.core j = s.core j) ∧ d.out = s.out ∧ s.Keeps [.eng] d) ∧
    (∀ e, s.Runs k p → (s.core k).epi = some e → p.bank1.on = false → e.tile < e.tiles → s.blkRuns (corePage k 2) = true →
      p.ops.find? (·.id == e.op) = some o → e.entry < 4096 → vIllegal 1 (s.imem k e.entry) = false → Steps (.epilogueTile k) s fun d =>
        ∃ q, d.prog k = some q ∧ q.bank0 = p.bank0 ∧ q.bank1.on = true ∧ q.bank1.pc = e.entry ∧ q.bank1.n = 0 ∧
          (List.range 9).map q.bank1.sc = [min 64 (e.nr - 64 * e.rb), min 64 (e.nc - 64 * e.cb), e.p, e.oy, e.ox, e.rb, e.cb, e.arg, e.sub].map
            Word.ofNat ∧
          (e.tile = 0 → o.pass = 1 → q.bank1.v = [] ∧ q.bank1.p = [] ∧ ∀ n, 9 ≤ n → n < 16 → q.bank1.sc n = 0) ∧
          ((e.tile ≠ 0 ∨ o.pass ≠ 1) → q.bank1.v = p.bank1.v ∧ q.bank1.p = p.bank1.p ∧ ∀ n, 9 ≤ n → n < 16 → q.bank1.sc n = p.bank1.sc n) ∧
          (∀ j, j ≠ k → d.core j = s.core j) ∧ d.out = s.out ∧ s.Keeps [.eng] d) ∧
    (∀ i, s.Lanes k 0x63 0 p o i → cf o.w 2 0 16 ≤ o.pass + 1 → Steps (.vend k) s fun d => ∃ q, d.prog k = some q ∧ q.bank0.on = false ∧
      q.ops = p.ops.map (fun x => if x.id = o.id then { o with pass := o.pass + 1, done := true } else x) ∧
      (∀ j, j ≠ k → d.core j = s.core j) ∧ d.out = s.out ∧ s.Keeps [.eng] d) ∧
    (∀ i e, s.Lanes k 0x63 1 p o i → (s.core k).epi = some e →
      (e.tile + 1 < e.tiles → Steps (.vend k) s fun d => (d.core k).epi = some { e with tile := e.tile + 1 } ∧
        d.prog k = some { p with bank1 := { p.bank1 with on := false } } ∧ (∀ j, j ≠ k → d.core j = s.core j) ∧ d.out = s.out ∧
        s.Keeps [.eng] d) ∧
      (e.tiles ≤ e.tile + 1 → Steps (.vend k) s fun d => (d.core k).epi = none ∧ (∃ q, d.prog k = some q ∧ q.bank1.on = false ∧
        q.ops = p.ops.map (fun x => if x.id = o.id then { o with done := o.pass == opPasses o } else x)) ∧
        (∀ j, j ≠ k → d.core j = s.core j) ∧ d.out = s.out ∧ s.Keeps [.eng] d))

/-- R256-R258: an instruction on lanes writes its function of operands A and B to the active lanes of v[D]; inactive lanes keep their value,
or become 0 with PZ. With a TYPE for which the table states no result the lanes are free values. -/
def Obligations.LaneInstructionsWriteTheirActiveLanes : Prop :=
  ∀ (s : State) (k bank : Nat) (p : Prog) (o : Op) (i : Nat), ∀ r ∈ vecRows s.toDev k,
    (r.2.2.1 i = true → VecDoes r.2.1 s k r.1 bank p o i ((p.bankOf bank).pc + 1) fun b c =>
      b.GetsActive c i fun l => r.2.2.2 i (b.lane (vA i) l) (b.opB i l)) ∧
    (r.2.2.1 i = false → s.Lanes k r.1 bank p o i →
      s.Comes k bank { p.bankOf bank with pc := (p.bankOf bank).pc + 1, n := (p.bankOf bank).n + 1 } → Steps r.2.1 s fun d =>
        ∃ b g, d.prog k = some (p.setBank bank b) ∧ (p.bankOf bank).Onward ((p.bankOf bank).pc + 1) b ∧ (p.bankOf bank).GetsActive b i g ∧
          (∀ j, j ≠ k → d.core j = s.core j) ∧ s.Keeps [.eng, .draws] d)

/-- R254, R256-R258: scalar instructions write s[D]; VFMA, VBCAST, VPERM, VINS, VIOTA and VSEL write v[D], VEXT and VRED s[D]; VCMP and the
predicate instructions write p[D], of which p0 stays all ones; jumps go to IMM when their condition holds; VNOP changes nothing. That GE of
VCMP is code 5 is the model's reading (notes/assumptions/12). -/
def Obligations.ScalarPredicateAndLaneMovesWriteTheirRegister : Prop :=
  ∀ (s : State) (k bank : Nat) (p : Prog) (o : Op) (i pc : Nat), pc = (p.bankOf bank).pc + 1 →
    (∀ r ∈ scalarRows k, VecDoes r.2.1 s k r.1 bank p o i pc fun b c =>
      b.GetsScalar c (vD i) (r.2.2 i (b.sc (vA i)) (if vBi i then vImm i else b.sc (vB i)))) ∧
    VecDoes (.vnop k) s k 0x00 bank p o i pc (fun b c => c.v = b.v ∧ c.s = b.s ∧ c.p = b.p) ∧
    VecDoes (.vfma k) s k 0x04 bank p o i pc (fun b c => b.GetsActive c i fun l =>
      ffma (b.lane (vA i) l) (b.opB i l) (b.lane ((vImm i).fld 0 5) l)) ∧
    VecDoes (.vbcast k) s k 0x32 bank p o i pc (fun b c => b.GetsActive c i fun _ => b.sc (vA i)) ∧
    VecDoes (.vperm k) s k 0x31 bank p o i pc (fun b c => b.GetsActive c i fun l => b.lane (vA i) ((b.opB i l).toNat % 64)) ∧
    VecDoes (.viota k) s k 0x36 bank p o i pc (fun b c => b.GetsActive c i fun l => Word.ofNat l) ∧
    VecDoes (.vins k) s k 0x34 bank p o i pc (fun b c => b.GetsActive c i fun l =>
      if l = (vImm i).fld 0 6 then b.sc (vA i) else b.lane (vD i) l) ∧
    VecDoes (.vsel k) s k 0x30 bank p o i pc (fun b c => b.GetsLanes c (vD i) fun l =>
      if bitN (b.pr (vPred i)) l then b.lane (vA i) l else b.opB i l) ∧
    VecDoes (.vext k) s k 0x33 bank p o i pc (fun b c => b.GetsScalar c (vD i) (b.lane (vA i) ((vImm i).fld 0 6))) ∧
    VecDoes (.vred k) s k 0x35 bank p o i pc (fun b c =>
      ((∀ l, l < 64 → bitN (b.pr (vPred i)) l = false) → b.GetsScalar c (vD i) 0) ∧
      ((vImm i).fld 0 2 = 0 → vTy i ≠ 2 → vSat i = false → b.GetsScalar c (vD i)
        (((List.range 64).filter fun l => bitN (b.pr (vPred i)) l).map (b.lane (vA i))).sum)) ∧
    VecDoes (.vcmp k) s k 0x20 bank p o i pc (fun b c =>
      b.GetsPred c i (fun l => laneCmp (vTy i) ((vImm i).fld 0 3) (b.lane (vA i) l) (b.opB i l)) ∧
      (vTy i ≠ 2 → (vImm i).fld 0 3 = 5 → b.GetsPred c i fun l => decide (vNum i (b.opB i l) ≤ vNum i (b.lane (vA i) l)))) ∧
    VecDoes (.pand k) s k 0x28 bank p o i pc (fun b c => b.GetsPred c i fun l => bitN (b.pr (vA i)) l && bitN (b.pr (vB i)) l) ∧
    VecDoes (.por k) s k 0x29 bank p o i pc (fun b c => b.GetsPred c i fun l => bitN (b.pr (vA i)) l || bitN (b.pr (vB i)) l) ∧
    VecDoes (.pnot k) s k 0x2A bank p o i pc (fun b c => b.GetsPred c i fun l => !bitN (b.pr (vA i)) l) ∧
    VecDoes (.pfirst k) s k 0x2B bank p o i pc (fun b c => b.GetsPred c i fun l => decide (l < (b.sc (vA i)).toNat)) ∧
    VecDoes (.jmp k) s k 0x60 bank p o i ((vImm i).fld 0 12) (fun b c => c.v = b.v ∧ c.s = b.s ∧ c.p = b.p) ∧
    VecDoes (.bz k) s k 0x61 bank p o i (if (p.bankOf bank).sc (vA i) = 0 then (vImm i).fld 0 12 else pc)
      (fun b c => c.v = b.v ∧ c.s = b.s ∧ c.p = b.p) ∧
    VecDoes (.bnz k) s k 0x62 bank p o i (if (p.bankOf bank).sc (vA i) = 0 then pc else (vImm i).fld 0 12)
      (fun b c => c.v = b.v ∧ c.s = b.s ∧ c.p = b.p)

/-- R213, R256, R259, R272: VLD loads an element to each active lane and VST stores one from each, SLD and SST a word of a scalar; VTIN reads a
row of the tile; VSEND sends a message for a credit, and waits without one. A scalar access that is not
aligned stops the program and faults its context; that VEC_ERR names it with reason 4 is the model's reading (notes/assumptions/58). -/
def Obligations.VectorLoadsStoresAndSends : Prop :=
  ∀ (s : State) (k bank : Nat) (p : Prog) (o : Op) (i pc e : Nat) (b : VBank), pc = b.pc + 1 → b = p.bankOf bank →
    e = elemSize ((vImm i).fld 23 3) →
    (∀ bs : Nat → List Byte, (∀ l, l < 64 → bitN (b.pr (vPred i)) l = true → b.elemAddr i l % e = 0 ∧ s.asRd k (b.elemAddr i l) e = .ok (bs l)) →
      VecDoes (.vld k) s k 0x40 bank p o i pc fun b c => b.GetsActive c i fun l => laneOf ((vImm i).fld 23 3) (natOf (bs l))) ∧
    (s.Lanes k 0x41 bank p o i → s.Comes k bank { b with pc, n := b.n + 1 } → s.asMarks = [] → s.tilePoison k bank = false → 0 < e →
      (∀ l, l < 64 → bitN (b.pr (vPred i)) l = true → b.elemAddr i l % e = 0 ∧ s.asBase k + b.elemAddr i l + e ≤ s.asLimit k) →
      (∀ l m, l < 64 → m < 64 → l ≠ m → bitN (b.pr (vPred i)) l = true → bitN (b.pr (vPred i)) m = true →
        b.elemAddr i l ≠ b.elemAddr i m) → Steps (.vst k) s fun d =>
        (∀ l, l < 64 → bitN (b.pr (vPred i)) l = true → d.asBytes k (s.asBase k + b.elemAddr i l) e =
          bytesOf e (storeCode ((vImm i).fld 23 3) (vTy i) ((vImm i).bit 27) (b.lane (vD i) l))) ∧
        (∀ x, (∀ l, l < 64 → bitN (b.pr (vPred i)) l = true → x < k * 2 ^ 23 + s.asBase k + b.elemAddr i l ∨
          k * 2 ^ 23 + s.asBase k + b.elemAddr i l + e ≤ x) → Tab.get (fun _ => 0) d.as x = Tab.get (fun _ => 0) s.as x) ∧
        d.prog k = some (p.setBank bank { b with pc, n := b.n + 1, wait := false }) ∧ (∀ j, j ≠ k → d.core j = s.core j) ∧
        s.Keeps [.eng, .as] d) ∧
    (∀ w, b.scAddr i % 4 = 0 → s.asWord k (b.scAddr i) = .ok w → VecDoes (.sld k) s k 0x42 bank p o i pc fun b c => b.GetsScalar c (vD i) w) ∧
    (s.Lanes k 0x43 bank p o i → s.Comes k bank { b with pc, n := b.n + 1 } → s.asMarks = [] → s.tilePoison k bank = false →
      b.scAddr i % 4 = 0 → s.asBase k + b.scAddr i + 4 ≤ s.asLimit k → Steps (.sst k) s fun d =>
        d.asBytes k (s.asBase k + b.scAddr i) 4 = bytesOf 4 (b.sc (vD i)).toNat ∧
        (∀ x, x < k * 2 ^ 23 + s.asBase k + b.scAddr i ∨ k * 2 ^ 23 + s.asBase k + b.scAddr i + 4 ≤ x →
          Tab.get (fun _ => 0) d.as x = Tab.get (fun _ => 0) s.as x) ∧
        d.prog k = some (p.setBank bank { b with pc, n := b.n + 1, wait := false }) ∧ (∀ j, j ≠ k → d.core j = s.core j) ∧
        s.Keeps [.eng, .as] d) ∧
    (∀ y, (s.core k).epi = some y → (b.sc (vA i)).toNat < min 64 (y.nr - 64 * y.rb) → VecDoes (.vtin k) s k 0x48 bank p o i pc fun b c =>
      b.GetsActive c i fun l => cellOf y.rows (64 * y.rb + (b.sc (vA i)).toNat) (64 * y.cb + l)) ∧
    (∀ a x j bs, s.Lanes k 0x49 bank p o i →
      s.sendTo k p.route ((vImm i).fld 0 8) ((vImm i).fld 8 5) (b.sc (vB i)).toNat (cTag o.w) ((vImm i).bit 13) = .go a x →
      s.localCore a = some j → s.asRd k (b.sc (vA i)).toNat (b.sc (vB i)).toNat = .ok bs → s.Comes k bank { b with pc, n := b.n + 1 } →
      Steps (.vsend k) s fun d =>
        d.eng.flights = s.eng.flights ++ [{ dst := j, ch := (vImm i).fld 8 5, data := bs, core := k, op := o.id }] ∧
        (∃ q, d.prog k = some q ∧ q.bankOf bank = { b with pc, n := b.n + 1, wait := false } ∧
          q.ops = p.ops.map fun y => if y.id = o.id then { o with flight := o.flight + 1 } else y) ∧
        (d.core k).outs = (s.core k).outs.map (fun y => if y = x then { y with credits := y.credits - 1 } else y) ∧
        (∀ j, j ≠ k → d.core j = s.core j) ∧ d.out = s.out ∧ s.Keeps [.eng] d) ∧
    (s.Lanes k 0x49 bank p o i →
      s.sendTo k p.route ((vImm i).fld 0 8) ((vImm i).fld 8 5) (b.sc (vB i)).toNat (cTag o.w) ((vImm i).bit 13) = .wait →
      Steps (.vsend k) s fun d => d.prog k = some (p.setBank bank { b with wait := true }) ∧ d.out = s.out ∧ s.Keeps [.eng] d) ∧
    (b.scAddr i % 4 ≠ 0 → (s.Lanes k 0x42 bank p o i → Stops (.sld k) s k p ⟨.ctxFaultAddr, 0x22⟩ (b.scAddr i) fun d =>
        d.rf (R.vecErr k) 0 16 = b.pc % 4096 + 4 * 4096 + bank * 32768 ∧ s.Keeps [.eng, .reg (R.vecErr k)] d) ∧
      (s.Lanes k 0x43 bank p o i → Stops (.sst k) s k p ⟨.ctxFaultAddr, 0x22⟩ (b.scAddr i) fun d =>
        d.rf (R.vecErr k) 0 16 = b.pc % 4096 + 4 * 4096 + bank * 32768 ∧ s.Keeps [.eng, .reg (R.vecErr k)] d))

/-- R177, R178, R277, R294: a push of a descriptor by the driver is accepted while the queue has a place for it: the descriptor is read and its
references are taken; with no place, or with a descriptor address that is misaligned or outside DRAM, it is counted and reported with bit
1. Eight places of each PPU are TIME's; a solver record of OP BUNDLE goes to the BUNDLE queue of two places. -/
def Obligations.PushedJobsAreAcceptedOrRefused : Prop :=
  ∀ (s : State) (q r a : Nat) (v : Word) (d : List Byte), q ≤ 4 → s.pfUp = true → s.islOn (islOf (jqPage q)) = true →
    s.rb (jqPage q + R.ctl) 1 = false → a = s.rn (jqPage q + 0x100) + v.toNat * 2 ^ 32 → s.Sound →
    d = s.bytes a (descLen q (s.bytes a 128)) → r = (if q = 4 ∧ dF d 0 8 3 = 4 then 5 else q) →
    (s.descBad q a = false → (s.jq r).jobs.length < (if r = 5 then 2 else if r = 1 ∨ r = 2 then 56 else 64) →
      s.Holds (s.byte a).toNat 0 (jobHandles r d) → Answers (pushRow q v) s fun t =>
        (∃ j, (t.jq r).jobs = (s.jq r).jobs ++ [j] ∧ j.desc = d ∧ j.addr = some a ∧ j.ctx = (s.byte a).toNat ∧ j.by_ = .host ∧ j.phase = 0 ∧
          j.bad = none ∧ j.refs = jobHandles r d ∧ j.id = (s.jq r).next) ∧
        (∀ h ∈ jobHandles r d, (t.buf (hPool h) (hIdx h)).count = (s.buf (hPool h) (hIdx h)).count + 1) ∧
        (∀ p, p ≠ r → t.jq p = s.jq p) ∧ t.out = s.out ∧ s.Keeps [.eng, .bpm, .reg (jqPage q + 0x108)] t) ∧
    ((s.descBad q a = true ∨ (if r = 5 then 2 else 64) ≤ (s.jq r).jobs.length ∨
        ((r = 1 ∨ r = 2) ∧ 56 ≤ ((s.jq r).jobs.filter fun x => !x.timed).length)) → Answers (pushRow q v) s fun t =>
      t.rn (jqPage q + 0x110) = min 0xFFFFFFFF (s.rn (jqPage q + 0x110) + 1) ∧ t.rb (jqPage q + R.irqStat) 1 = true ∧ t.eng = s.eng ∧
      s.Keeps [.reg (jqPage q + 0x110)] t)

/-- R178, R180, R182, R185-R194: the first JPEG job that passes its checks asks for its buffer and starts, and completes with its picture in
the buffer, whose reference passes to the slot of its context; the samples are free values of the standard's decoding process. The first
PPU job that passes its checks starts, and completes with the rows of its destination in the activation store, each element what sampling,
conversion and normalisation give. -/
def Obligations.JpegAndPpuJobsStartAndComplete : Prop :=
  ∀ (s : State) (q a k n : Nat) (j : Job),
    (∀ x y, s.jobFirst 0 = some j → j.phase = 0 → s.blkRuns 0x50000 = true → s.Sound → j.bad = none → s.jpegBad j.desc = false →
      dQ j.desc 8 + dN j.desc 0x10 ≤ s.usable → jpegCheck (s.bytes (dQ j.desc 8) (min (dN j.desc 0x10) 65536)) = .ok x y → x.sof ≠ 0xC2 →
      picBytes 0 (roundUp x.w 2) (roundUp x.h 2) ≤ s.poolSize (dF j.desc 4 0 4) → s.eng.tags < 2 ^ 47 → Answers .jpegJobStart s fun t =>
        (t.jq 0).jobs = (s.jq 0).jobs.map (fun i => if i.id = j.id then { j with phase := 1 } else i) ∧ t.eng.jpeg.head = some x ∧
        t.eng.jpeg.scratch = .no ∧ (∀ p, p ≠ 0 → t.jq p = s.jq p) ∧ s.Keeps [.eng, .bpm, .reg 0x50108] t) ∧
    (∀ x h, s.jobFirst 0 = some j → j.phase = 1 → s.eng.jpeg.head = some x → s.eng.jpeg.out = .got h → s.eng.jpeg.scratch = .no →
      s.MayEnd 0 j a → s.slotOf j.ctx = some k → s.ledgerFull = false → Coaches (.jpegJobDone 0) s fun d =>
        s.Ended 0 j a .ok (jpegWords (some x) h .ok 0) d ∧ (∃ e ∈ d.bpm.ledger, e.slot = k ∧ e.h = h ∧ 1 ≤ e.n) ∧ d.eng.jpeg = {} ∧
        (∀ b, (b < a + 0x20 ∨ a + 0x40 ≤ b) → (b < s.hAddr h ∨ s.hAddr h + picBytes 0 (roundUp x.w 2) (roundUp x.h 2) ≤ b) →
          d.byte b = s.byte b) ∧ s.Keeps (jobParts 0) d) ∧
    (n < 2 → q = n + 1 → s.jobFirst q = some j → j.phase = 0 → s.blkRuns (jqPage q) = true → j.bad = none → ppuBad j.desc = false →
      s.ppuAddr j.desc = none → Coaches (.ppuJobStart n) s fun d =>
        (d.jq q).jobs = (s.jq q).jobs.map (fun i => if i.id = j.id then { j with phase := 1 } else i) ∧ (∀ p, p ≠ q → d.jq p = s.jq p) ∧
        d.out = s.out ∧ s.Keeps [.eng, .reg (jqPage q + 0x108)] d) ∧
    (∀ x p y, n < 2 → q = n + 1 → s.jobFirst q = some j → j.phase = 1 → s.MayEnd q j a → ppuBad j.desc = false → ppuN j.desc = 1 →
      x = Ppu.ofDesc j.desc → y = PpuDst.ofDesc j.desc 0 → s.poolCore (hPool y.h) = k → s.coreIso k = false →
      p = (s.ppuSource j.ctx x (s.hAddr (dN j.desc 4))).2.1 → Coaches (.ppuJobDone n) s fun d =>
        s.Ended q j a .ok (blankSector q .ok) d ∧
        (∀ c r, c < x.planes → r < y.y1 - y.y0 → d.asBytes k (s.hAddr y.h + y.off + c * y.plane + r * y.row) (x.ow * x.esz) =
          (List.range x.ow).flatMap fun i => x.elem c ((x.pixel p i (y.y0 + r)).getD c 0)) ∧
        (∀ o, (∀ c r, c < x.planes → r < y.y1 - y.y0 → o < k * 2 ^ 23 + s.hAddr y.h + y.off + c * y.plane + r * y.row ∨
          k * 2 ^ 23 + s.hAddr y.h + y.off + c * y.plane + r * y.row + x.ow * x.esz ≤ o) →
          Tab.get (fun _ => 0) d.as o = Tab.get (fun _ => 0) s.as o) ∧
        (∀ b, (b < a + 0x60 ∨ a + 0x80 ≤ b) → d.byte b = s.byte b) ∧ s.Keeps (.as :: jobParts q) d) ∧
    ((s.jobFirst 0 = none → exec .jpegJobStart s = .next s) ∧
      (n < 2 → s.jobFirst (n + 1) = none → Coaches (.ppuJobStart n) s (fun d => d = s.toDev) ∧ Coaches (.ppuJobDone n) s fun d => d = s.toDev))

/-- R178, R274, R275, R278-R287, R290, R292: DECODE_NMS keeps, in the order of their scores, the entries that no kept entry suppresses, at
most MAX_OUT of them, and writes the kept list; EMIT's records, stamped, wait for acceptance. A computed job whose records are accepted
completes. A HEARTBEAT record carries its sequence number, the units and streams that are up, and the counts since the last one. -/
def Obligations.DetectionsAreKeptAndRecordsEmitted : Prop :=
  (∀ aware th mx l kept extra, nmsWalk aware th mx l [] 0 = (kept, extra) → kept.length ≤ mx ∧ kept.Sublist l ∧
    kept.Pairwise fun a b => (aware = true → a.cls = b.cls) → suppresses th a.box b.box = false) ∧
  ∀ (s : State) (j : Job) (a c : Nat),
    (∀ bad cands u all kept, s.dppNext = some j → isEmit j.desc = false → s.blkRuns 0x60000 = true → dppBad j.desc = false → j.bad = none →
      s.dppAddr j.desc = none → s.Sound → s.asMarks = [] → dF j.desc 0 11 1 = 0 → s.poolAs (hPool (dN j.desc 0x2C)) = false →
      s.dppCands j (dppLevelList j.desc) 0 = (bad, cands, u) →
      all = (cands.flatMap (Cand.ents (dF j.desc 0 13 1 == 1))).filter (fun e => !isNaN e.score && !flt e.score (dW j.desc 8)) →
      nmsWalk (dF j.desc 0 12 1 == 1) (dW j.desc 0xC) (dMaxOut j.desc) ((all.mergeSort entLe).take (dPreK j.desc)) [] 0 = (kept, 0) →
      Answers .decodeNms s fun t => t.bytes (s.hAddr (dN j.desc 0x2C) + dN j.desc 0x30) (32 * kept.length) = kept.flatMap Scored.bytes ∧
        (∀ b, b < s.hAddr (dN j.desc 0x2C) + dN j.desc 0x30 ∨ s.hAddr (dN j.desc 0x2C) + dN j.desc 0x30 + 32 * kept.length ≤ b →
          t.byte b = s.byte b) ∧
        (t.jq 3).jobs = (s.jq 3).jobs.map (fun i => if i.id = j.id then { j with phase := 2, st := .ok, d2 := 0, out := [0, Word.ofNat kept.length, 0, Word.ofNat (min all.length (dPreK j.desc)), Word.ofNat (all.length - dPreK j.desc), 0, 0, 0] } else i) ∧
        (∀ p, p ≠ 3 → t.jq p = s.jq p) ∧ s.Keeps [.eng, .dram, .reg 0x60108] t) ∧
    (∀ recs, s.dppNext = some j → isEmit j.desc = true → s.blkRuns 0x60000 = true → dppBad j.desc = false → j.bad = none →
      s.dppAddr j.desc = none → s.Sound → s.poolAs (hPool (dN j.desc 0x48)) = false → s.isMgr = true →
      recs = (List.range (dNrec j.desc)).map (fun i => wordsOf (s.bytes (s.hAddr (dN j.desc 0x48) + dN j.desc 0x4C + 64 * i) 64)) →
      recs.any recBad = false → Answers .emit s fun t =>
        (t.ctx j.ctx).mqWait = (s.ctx j.ctx).mqWait ++ recs.map (fun w => { ctx := j.ctx, words := recStamp s.addr w, blk := 0x11, job := j.id }) ∧
        (∃ i ∈ (t.jq 3).jobs, i.id = j.id ∧ i.phase = 2 ∧ i.st = .ok) ∧ (∀ p, p ≠ 3 → t.jq p = s.jq p) ∧ t.out = s.out ∧
        s.Keeps [.eng, .ctx j.ctx, .reg 0x60108] t) ∧
    ((s.jq 3).jobs.find? (fun i => i.phase == 2 && ((s.jq 3).jobs.find? (·.ctx == i.ctx)) == some i &&
        s.outbox.all (fun r => !(r.ctx == i.ctx && r.job == i.id))) = some j → s.MayEnd 3 j a → j.st = .ok → j.out.length = 8 →
      Coaches .dppJobDone s fun d => s.Ended 3 j a .ok j.out d ∧ (∀ b, (b < a + 0x60 ∨ a + 0x80 ≤ b) → d.byte b = s.byte b) ∧
        s.Keeps (jobParts 3) d) ∧
    (s.isMgr = true → s.ctxSt c = 1 → s.rf (R.ctxHbPeriod c) 0 16 ≠ 0 → s.mgmtUp = true → (s.ctx c).mqWait.find? (·.blk == 6) = none →
      Answers (.heartbeat c) s fun t => (t.ctx c).mqWait = (s.ctx c).mqWait ++ [{ ctx := c, blk := 6, words := recHead s.addr 8 0 0xFFF 0xFFFF 0 s.ns ++ [Word.ofNat (s.ctx c).hbSeq, Word.ofNat (s.unitsUp + s.streamsOf c * 65536),
            Word.ofNat (s.ctx c).hbRecs, Word.ofNat (s.ctx c).hbPics] ++ List.replicate 8 0 }] ∧
        (t.ctx c).hbSeq = ((s.ctx c).hbSeq + 1) % 2 ^ 32 ∧ (t.ctx c).hbRecs = 0 ∧ (t.ctx c).hbPics = 0 ∧ t.out = s.out ∧ s.Keeps [.ctx c] t) ∧
    ((s.isMgr = false ∨ s.ctxSt c ≠ 1 ∨ s.rf (R.ctxHbPeriod c) 0 16 = 0) → exec (.heartbeat c) s = .next s)

/-- R294-R296, R301-R303, R306-R312, R346: the oldest queued job of the solver computes what its OP says: FACTOR factors A, and solves and refines each
column, in fixed point with its range checked; ASSEMBLE accumulates the normal block and, with SOLVE_AFTER, solves the damped block; TRIANGULATE iterates from its starting point; TRACK_UPDATE
updates entries in order. A computed job that emits hands over its record; the others complete. A BUNDLE starts on its cores, and goes on
by sub-operations when no other job waits. A row whose OP is not the oldest job's changes nothing. -/
def Obligations.SolverJobsComputeAndComplete : Prop :=
  ∀ (s : State) (j : Job) (d : List Byte) (a q : Nat), d = j.desc →
    (∀ A B f cols, s.Solves 4 0 j → slvFixed d = false →
      A = (facRows d (dN d 0x48)).map (fun x => wordsOf (s.bytes (s.hAddr (dN d 0x44) + x.1) x.2)) →
      B = (facColsAt d (dN d 0x54)).map (fun x => wordsOf (s.bytes (s.hAddr (dN d 0x50) + x.1) x.2)) →
      f = ldlOf (slvTau d) (slvLam d) A → cols = solveCols A f.rows (slvTol d) (slvMaxref d) B → Answers .factor s fun t =>
        s.solved t 4 j [(2, normOf cols), (3, Word.ofNat (min f.cnt.n 0xFFFF + min (f.cnt.first.getD 0xFFFF) 0xFFFF * 2 ^ 16))] ∧
        (dN d 0x64 = 0 → 4 * facN d ≤ facBp d → (∀ c < facRhs d, t.bytes (s.hAddr (dN d 0x5C) + dN d 0x60 + c * facBp d) (4 * facN d) =
            bytesOfWords ((cols.map (·.x)).getD c [])) ∧
          ∀ b, (∀ c < facRhs d, b < s.hAddr (dN d 0x5C) + dN d 0x60 + c * facBp d ∨
            s.hAddr (dN d 0x5C) + dN d 0x60 + c * facBp d + 4 * facN d ≤ b) → t.byte b = s.byte b) ∧
        (dN d 0x64 ≠ 0 → 4 * facN d ≤ facAp d → ∀ i < facN d, t.bytes (s.hAddr (dN d 0x64) + dN d 0x68 + i * facAp d) (4 * (i + 1)) =
            bytesOfWords ((f.rows.map fun r => r.l ++ [r.d]).getD i [])) ∧ s.Keeps slvParts t) ∧
    (s.Solves 4 0 j → slvFixed d = true → Answers .factor s fun t =>
        (∃ i ∈ (t.jq 4).jobs, i.id = j.id ∧ i.phase = 2 ∧ (i.st = .ok ∨ (i.st = ⟨.rangeExceeded, 0x12⟩ ∧ dF d 0 15 1 = 0))) ∧
        (∀ p, p ≠ 4 → t.jq p = s.jq p) ∧ (dN d 0x64 = 0 → ∀ b, (∀ c < facRhs d, b < s.hAddr (dN d 0x5C) + dN d 0x60 + c * facBp d ∨
            s.hAddr (dN d 0x5C) + dN d 0x60 + c * facBp d + 4 * facN d ≤ b) → t.byte b = s.byte b) ∧
        s.Keeps (.reg R.slvRangeCnt :: slvParts) t) ∧
    (∀ o n m old cam, s.Solves 4 1 j → o = s.hAddr (dN d 0x58) + dN d 0x5C → n = (paramsOf (asmIntr d)).length →
      old = (if dF d 0x40 10 1 = 1 then Normal.ofWords n (wordsOf (s.bytes o 1024)) else Normal.zero n) →
      cam = wordsOf (s.bytes (s.hAddr (dN d 0x44) + dN d 0x48) 64) →
      m = ((List.range (dF d 0x54 0 13)).map fun i => wordsOf (s.bytes (s.hAddr (dN d 0x4C) + dN d 0x50 + 32 * i) 32)).foldl (fun m w =>
        m.take (evalObs (paramsOf (asmIntr d)) (dW d 0x64) (dW d 0x68) cam (w.take 3) (w.getD 3 0) (w.getD 4 0) (w.getD 5 0))) old →
      Answers .assemble s fun t => s.solved t 4 j [(4, Word.ofNat (min m.rej 0xFFFFFF))] ∧
        (dF d 0x40 9 1 = 0 → (∀ p r, r ≤ p → p < n → t.bytes (o + 64 * p + 4 * r) 4 = bytesOfWords [(m.h.getD p []).getD r 0]) ∧
          (∀ p < n, t.bytes (o + 960 + 4 * p) 4 = bytesOfWords [m.g.getD p 0]) ∧ t.bytes (o + 1020) 4 = bytesOfWords [m.cost] ∧
          ∀ b, (b < o ∨ o + 1024 ≤ b) → t.byte b = s.byte b) ∧
        (∀ H x, dF d 0x40 9 1 = 1 → H = dampDiag (dW d 0x60) m.h →
          x = solveCols H (ldlOf (slvTau d) (slvLam d) H).rows (slvTol d) (slvMaxref d) [m.g.map fneg] →
          t.bytes (s.hAddr (dN d 0x6C) + dN d 0x70) (4 * n) = bytesOfWords ((x.map (·.x)).headD [])) ∧ s.Keeps slvParts t) ∧
    (∀ o views x, s.Solves 4 2 j → o = s.hAddr (dN d 0x64) + dN d 0x68 →
      views = (List.range (dF d 0x40 0 6)).map (fun i => wordsOf (s.bytes (s.hAddr (dN d 0x44) + dN d 0x48 + 128 * i) 128)) →
      x = triSteps d views (dF d 0x40 6 4) (if dF d 0x40 10 1 = 1 then triInit (slvTau d) (slvLam d) views
        else { x := [dW d 0x4C, dW d 0x50, dW d 0x54] }) → Answers .triangulate s fun t =>
        s.solved t 4 j [(4, Word.ofNat (min x.nrej 0xFFFFFF))] ∧ t.bytes o 12 = bytesOfWords x.x ∧
        (∀ b, (b < o ∨ o + 32 ≤ b) → t.byte b = s.byte b) ∧ s.Keeps slvParts t) ∧
    (∀ o cap x, s.Solves 4 3 j → o = s.hAddr (dN d 0x40) + dN d 0x44 → cap = dF (s.bytes o 64) 4 16 16 →
      x = trackRun d cap ((List.range (dF d 0x50 0 13)).map fun i => wordsOf (s.bytes (s.hAddr (dN d 0x48) + dN d 0x4C + 32 * i) 32))
        (0, fun i => wordsOf (s.bytes (o + 64 + 128 * i) 128)) → Answers .trackUpdate s fun t =>
        s.solved t 4 j [(4, Word.ofNat (min x.1 0xFFFFFF))] ∧ (∀ i < cap, t.bytes (o + 64 + 128 * i) 128 = bytesOfWords (x.2 i)) ∧
        (∀ b, (b < o + 64 ∨ o + 64 + 128 * cap ≤ b) → t.byte b = s.byte b) ∧ s.Keeps slvParts t) ∧
    ((q = 4 ∨ (q = 5 ∧ s.slvStage 4 = none)) → s.jobFirst q = some j → s.MayEnd q j a → j.out.length = 16 →
      (j.phase = 2 → slvSends j = false → j.st = .ok → Coaches .slvJobDone s fun t => s.Ended q j a .ok j.out t ∧
        (∀ b, (b < a + 0xC0 ∨ a + 0x100 ≤ b) → t.byte b = s.byte b) ∧ s.Keeps (jobParts q) t) ∧
      (j.phase = 2 → slvSends j = true → s.isMgr = true → Coaches .slvJobDone s fun t =>
        (t.ctx j.ctx).mqWait = (s.ctx j.ctx).mqWait ++ [{ ctx := j.ctx, words := s.slvRecord j, blk := 0x12, job := slvKey q j }] ∧
        (∃ i ∈ (t.jq q).jobs, i.id = j.id ∧ i.phase = 5 ∧ i.refs = []) ∧ t.bytes (a + 0xC0) 64 = bytesOfWords j.out ∧
        (∀ b, (b < a + 0xC0 ∨ a + 0x100 ≤ b) → t.byte b = s.byte b) ∧ s.Keeps (.ctx j.ctx :: jobParts q) t) ∧
      (j.phase = 5 → j.st = .ok → s.slvHeld q j = false → Coaches .slvJobDone s fun t =>
        (t.jq q).jobs = (s.jq q).jobs.filter (·.id != j.id) ∧ t.reg (jqPage q + 0x10C) = Word.ofNat Status.ok.code ∧
        (jobIrq q d = true → t.rb (jqPage q + R.irqStat) 0 = true) ∧ s.SameBytes t ∧ s.Keeps (jobParts q) t)) ∧
    (s.slvStage 4 = none → s.slvStage 5 = none → Coaches .slvJobDone s fun t => t = s.toDev) ∧
    (s.Solves 5 4 j → s.eng.bundle = none → Answers .bundle s fun t =>
      (∃ b, t.eng.bundle = some b ∧ b.id = j.id ∧ b.ctx = j.ctx ∧ b.phase = 1 ∧ b.it = 0 ∧ b.cores = bunCores d ∧ b.mu = dW d 0x70) ∧
      (∀ k, (t.core k).progs = (s.core k).progs ++ if k ∈ coresOf (bunCores d) then
        [{ route := 256, ctx := j.ctx, lcore := 0, bank := 0, st := .ended }] else []) ∧
      (t.jq 5).jobs = (s.jq 5).jobs.map (fun i => if i.id = j.id then { j with phase := 1 } else i) ∧ (∀ p, p ≠ 5 → t.jq p = s.jq p) ∧
      (∀ b, (b < s.hAddr (dN d 0x64) + dN d 0x68 ∨ s.hAddr (dN d 0x64) + dN d 0x68 + bunWork d ≤ b) → t.byte b = s.byte b) ∧ t.out = s.out ∧
      s.Keeps [.eng, .dram, .draws, .reg 0x68108, .reg R.slvBaStat] t) ∧
    (∀ (b : Bundle) l c r, s.eng.bundle = some b → (s.jq 5).jobs.find? (fun i => i.id == b.id && i.phase == 1) = some j →
      (s.jq 4).jobs.any (·.phase == 0) = false → s.blkRuns 0x68000 = true →
      (b.phase = 1 → l = (b.obs.drop (256 * b.sub)).take 256 → b.sub = 0 → (b.it = 0 → obsBad b.ncam b.pts.length l = false) →
        b.obs.length ≤ 256 → b.obs ≠ [] → b.costOver b.cams b.pts l b.sum = (c, r) → Answers .bundleSubop s fun t =>
        t.eng.bundle = some { b with sum := c, nrej := b.nrej + r, phase := 2, cost := c, cost0 := if b.it = 0 then c else b.cost0 } ∧
        s.SameBytes t ∧ s.Keeps subopParts t) ∧
      (b.phase = 2 → Answers .bundleSubop s fun t => t.eng.bundle = some { b with phase := 3, sub := 0 } ∧ s.SameBytes t ∧ s.Keeps subopParts t) ∧
      (b.phase = 4 → Answers .bundleSubop s fun t => t.eng.bundle = some { b.diagStep (slvTau d) (slvLam d) with
        phase := if b.k + 1 < b.nb then 5 else 7, sub := 0 } ∧ s.SameBytes t ∧ s.Keeps subopParts t) ∧
      (b.phase = 5 → b.k + 2 + b.sub < b.nb → Answers .bundleSubop s fun t =>
        t.eng.bundle = some { b.panelStep (b.k + 1 + b.sub) with sub := b.sub + 1 } ∧ s.SameBytes t ∧ s.Keeps subopParts t) ∧
      (b.phase = 7 → b.nb ≤ b.sub + 1 → Answers .bundleSubop s fun t =>
        t.eng.bundle = some { b.camStep (slvTol d) (slvMaxref d) with phase := 8, sub := 0 } ∧ s.SameBytes t ∧ s.Keeps subopParts t)) ∧
    (((s.jq 4).jobs.any (·.phase == 0) = true ∨ s.eng.bundle = none) → exec .bundleSubop s = .next s) ∧
    (∀ n o (c : Instr), (n, c) ∈ [(1, Instr.assemble), (2, .triangulate), (3, .trackUpdate)] →
      (s.jq 4).jobs.find? (·.phase == 0) = o → (∀ i, o = some i → slvOp i.desc ≠ n) → exec c s = .next s)

/-- R317-R328: VENC accepts the oldest waiting clip with its span and its references, which completes its request with the clip ID; an accepted clip
runs when none does, its span decoded by the engine with the fewest streams; WAIT_MS ends a growing span. A decoded picture is masked, scaled
and added to the index, or the clip is full. A clip that is done is built with its header, its payload and its tag (both free values of the
cipher), copied to DEST, and reported; one that failed is reported without a copy. -/
def Obligations.ClipsAreAcceptedEncodedAndReported : Prop :=
  ∀ (s : State) (q : Clip) (id bytes qp c n a h : Nat),
    (∀ x l cl e z r span, s.blkRuns 0x48000 = true → s.boot.codecOk = true → s.isMgr = true → s.eng.venc.reqs.filter (·.id == 0) = [] →
      s.eng.venc.clips.find? (fun i => !i.acc) = some q → s.runClip = some z → s.strm q.stream = some x → spanOf q.startCts x.retain = (l, cl) →
      span = (l.takeWhile fun u => decide (u.cts ≤ q.endCts)).map (fun u => ({ u with pic := .no, twin := .no } : Au)) →
      s.Holds q.ctx 0 (span.map (·.h)) → s.eng.venc.reqs.find? (·.id == q.id) = some r → r.by_ = .cmd c n → q.id / 2 ^ 28 = s.addr →
      (s.ctx c).run.find? (·.seq == n) = some e → e.dups = [] → Answers .clipStart s fun t =>
        t.eng.venc.clips = s.eng.venc.clips.map (fun i => if i.id = q.id then { i with acc := true, span, grow := span.length == l.length, clamped := cl } else i) ∧
        t.eng.venc.reqs = s.eng.venc.reqs.filter (·.n != r.n) ∧
        (∀ k ∈ span.map (·.h), (t.buf (hPool k) (hIdx k)).count = (s.buf (hPool k) (hIdx k)).count + 1) ∧
        t.reg (R.ctxWinResult c (n % 64)) = Word.ofNat q.id ∧ t.reg (R.ctxWinStatus c (n % 64)) = Word.ofNat (Status.ok.code + 0x80000000) ∧
        (t.ctx c).run = (s.ctx c).run.filter (·.seq != n) ∧ s.SameBytes t ∧
        s.Keeps [.eng, .bpm, .ctx c, .reg (R.ctxWinResult c (n % 64)), .reg (R.ctxWinStatus c (n % 64))] t) ∧
    (∀ l, s.blkRuns 0x48000 = true → s.boot.codecOk = true → s.eng.venc.reqs.filter (·.id == 0) = [] → s.eng.venc.clips = q :: l →
      (∀ i ∈ q :: l, i.acc = true ∧ i.run = false) → s.eng.tags < 2 ^ 47 → Answers .clipStart s fun t =>
        (∃ b, t.eng.venc.clips.head? = some { q with run := true, span := [], buf := b }) ∧ t.reg R.vencCurClip = Word.ofNat q.id ∧
        (∃ y, t.strm clipKey = some y ∧ y.clip = some q.stream ∧ y.eng = some s.leastEngine ∧ y.ctx = q.ctx ∧ y.picPool = q.picPool ∧
          y.queue.map (·.h) = q.span.map (·.h)) ∧
        s.SameBytes t ∧ s.Keeps [.eng, .bpm, .reg R.vencStat, .reg R.vencCurClip, .reg R.vencCurPic] t) ∧
    Answers (.clipWaitExpiry id) s (fun t => t.eng.venc.clips = s.eng.venc.clips.map (fun i =>
        if i.id = id ∧ i.acc = true ∧ i.grow = true then { i with grow := false, short := true } else i) ∧ t.out = s.out ∧ s.Keeps [.eng] t) ∧
    (∀ x p l, s.blkRuns 0x48000 = true → s.boot.codecOk = true → s.runClip = some q → q.buf = .got h → q.pics = p :: l → s.Sound →
      (∀ y, s.strm clipKey = some y → y.dpb.filter (·.wait) = []) → x = q.scaler p.w p.hgt → x.sx + x.sw ≤ p.w → x.sy + x.sh ≤ p.hgt →
      (objBytes (q.index.length + 1) (q.size + bytes) ≤ min q.maxBytes (s.poolSize (hPool h)) → s.Holds q.ctx 1 [p.h] →
        Answers (.encodePicture bytes qp) s fun t =>
          (∃ z, t.runClip = some z ∧ z.id = q.id ∧ z.pics = l ∧ z.size = q.size + bytes ∧ z.intra = q.intraCols q.index.length ∧
            z.index = q.index ++ [{ cts := p.cts, off := q.size, qp := q.nextQp qp, recov := p.recov, conc := p.conc != 0 }] ∧
            z.srcY = q.lumaSrc x (q.mask (q.masksAt p.cts) (s.ppuSource q.ctx x (s.hAddr p.h)).2.1)) ∧
          (t.buf (hPool p.h) (hIdx p.h)).count = (s.buf (hPool p.h) (hIdx p.h)).count - 1 ∧ t.rn R.vencCurPic = (q.index.length + 1) % 2 ^ 32 ∧
          s.SameBytes t ∧ s.Keeps [.eng, .bpm, .draws, .reg R.vencEncMax, .reg R.vencStat, .reg R.vencCurClip, .reg R.vencCurPic] t) ∧
      (min q.maxBytes (s.poolSize (hPool h)) < objBytes (q.index.length + 1) (q.size + bytes) → s.Holds q.ctx 1 (q.pics.map (·.h)) →
        s.strm clipKey = none → Answers (.encodePicture bytes qp) s fun t =>
          (∃ z, t.runClip = some z ∧ z.id = q.id ∧ z.full = true ∧ z.short = true ∧ z.pics = [] ∧ z.index = q.index ∧ z.size = q.size) ∧
          s.SameBytes t ∧ s.Keeps [.eng, .bpm] t)) ∧
    (s.blkRuns 0x48000 = true → s.isMgr = true → s.eng.venc.clips = [q] → q.run = true → s.strm clipKey = none → q.span = [] → q.pics = [] →
      q.buf = .got h → s.bpmDown = false → s.bpm.waiters = [] → s.hValid h = true → s.poolMay (hPool h) q.ctx = true → s.poolAs (hPool h) = false →
      1 ≤ (s.buf (hPool h) (hIdx h)).count → (s.buf (hPool h) (hIdx h)).poisoned = false → (s.buf (hPool h) (hIdx h)).bad = false → s.Sound →
      (∀ iv len, q.st.nm = .success → q.stage = 0 → s.spanDone q = true → s.eng.venc.iv = some iv → iv < 2 ^ 64 → len = objBytes q.index.length q.size →
        s.ctxSt q.ctx = 1 → len ≤ s.poolSize (hPool h) → Answers .clipClose s fun t =>
          (∃ pay tag obj, pay.length = 16 * q.index.length + q.size ∧ tag.length = 16 ∧ obj = q.header s.sec.serial iv ++ pay ++ tag ∧
            (bitN (dQ q.desc 0x18) 63 = false → s.hifHeld (s.ctxVec q.ctx).1 = false →
              .hostWr (s.ctxVec q.ctx).1 (dQ q.desc 0x18 % 2 ^ 63) obj ∈ t.out) ∧
            (bitN (dQ q.desc 0x18) 63 = true → s.ctxDram q.ctx (dQ q.desc 0x18 % 2 ^ 63) len = some a →
              (a + len ≤ s.hAddr h ∨ s.hAddr h + s.poolSize (hPool h) ≤ a) → t.bytes a len = obj)) ∧
          t.eng.venc.clips = [] ∧ t.eng.venc.iv = some ((iv + 1) % 2 ^ 64) ∧ t.rb (0x48000 + R.irqStat) 0 = true ∧
          (t.ctx q.ctx).mqWait = (s.ctx q.ctx).mqWait ++ [{ ctx := q.ctx, words := s.clipRecord q, blk := 0xE, job := q.id }] ∧
          s.Keeps [.eng, .bpm, .dram, .marks, .draws, .hif, .ctx q.ctx, .reg R.vencStat, .reg R.vencCurClip, .reg R.vencCurPic] t) ∧
      (q.st.nm ≠ .success → Answers .clipClose s fun t =>
          t.eng.venc.clips = [] ∧ t.rb (0x48000 + R.irqStat) 16 = true ∧ (t.ctx q.ctx).mqWait = (s.ctx q.ctx).mqWait ++ [{ ctx := q.ctx, words := s.clipRecord q, blk := 0xE, job := q.id }] ∧
          s.Keeps [.eng, .bpm, .dram, .marks, .ctx q.ctx, .reg R.vencStat, .reg R.vencCurClip, .reg R.vencCurPic] t)) ∧
    (s.eng.venc.clips = [] → exec (.encodePicture bytes qp) s = .next s ∧ exec .clipClose s = .next s)

/-- R334, R341, R343: the first boarded step of a route starts when none runs: its seat table is written and its programs are ready at command 0. A seat
whose jobs have completed releases its picture. A step whose cores and seats are done ends. Each row does nothing else. -/
def Obligations.CoachStepsStartReleaseTheirSeatsAndEnd : Prop :=
  ∀ (s : State) (r q : Nat) (x : Route) (co : Coach) (u : Step) (l : List Step) (e : Seat), s.route r = some x →
    (x.coach = some co → x.steps = u :: l → u.started = false → s.schedDown = false → (∀ y ∈ x.map, y / 16 = s.addr) → s.asMarks = [] →
      (s.window x.ctx).1 + co.seatAddr + (co.table u).length ≤ 2 ^ 23 → Answers (.stepStart r) s fun t => ∃ d : Dev,
        t = (d.coachPump r).pumpAll ∧ d.route r = some { x with steps := { u with started := true } :: l } ∧
        (∀ y ∈ s.hereOf x.map, d.asBytes y.2 ((s.window x.ctx).1 + co.seatAddr) (co.table u).length = co.table u ∧
          ∀ p, s.progOf y.2 r = some p → d.progOf y.2 r =
            some { p with st := .ready, since := s.ns, pc := 0, loops := [], lcs := [], wait := none }) ∧
        (∀ i, i ≠ r → d.route i = s.route i) ∧ d.out = s.out ∧ s.Keeps [.eng, .as] d) ∧
    (x.seats.find? (·.q == q) = some e → e.done = true → e.released = false → s.listeners r = [] → e.twin = 0 → s.Holds x.ctx 1 [e.pic] →
      Answers (.seatRelease r q) s fun t =>
        (t.buf (hPool e.pic) (hIdx e.pic)).count = (s.buf (hPool e.pic) (hIdx e.pic)).count - 1 ∧
        t.route r = some { x with steps := x.steps.map fun y => { y with seats := y.seats.map fun i => if i.q = q then { i with released := true } else i } } ∧
        (∀ i, i ≠ r → t.route i = s.route i) ∧ t.out = s.out ∧ s.SameBytes t ∧ s.Keeps [.eng, .bpm] t) ∧
    ((∀ i, x.seats.find? (·.q == q) = some i → i.done = false ∨ i.released = true ∨ s.listeners r ≠ []) → exec (.seatRelease r q) s = .next s) ∧
    (x.coach = some co → x.steps = u :: l → u.started = true → u.running = [] → (∀ i ∈ u.seats, i.done = true ∧ i.released = true) → s.listeners r = [] →
      x.held = [] → x.stopping = false → x.waiting = [] → x.deferred = false → x.closes = [] → Answers (.stepEnd r) s fun t => ∃ d : Dev,
        t = d.coachPump r ∧ d.route r = some { x with steps := l, ended := (x.ended + 1) % 2 ^ 32 } ∧ (∀ i, i ≠ r → d.route i = s.route i) ∧
        d.out = s.out ∧ s.SameBytes d ∧ s.Keeps [.eng] d) ∧
    ((x.coach = none ∨ x.steps = [] ∨ (x.steps.head?.map (·.started)) = some true) → exec (.stepStart r) s = .next s) ∧
    ((x.steps = [] ∨ (x.steps.head?.map (·.started)) = some false) → exec (.stepEnd r) s = .next s)

/-- R384, R386-R393: PWR measures power and energy; the governor and the thermal ladder move their levels by their rules, and every
island follows; a sensor at T_TRIP drives THERMTRIP_N low, switches every island off but the always-on one and records the sensor and
the temperature; a profile sets the cap and the floor of the level. -/
def Obligations.PowerAndTemperatureFollowTheirLadders : Prop :=
  ∀ (s : State) (mw : Nat) (l : List Int) (v : Word) (j : Nat),
    (s.inD3 = false → (s.isMgr = true ∨ s.chain.asleep = false) → s.govEn = true → s.mgmtUp = true → mw < 2 ^ 18 →
      Answers (.governorEval mw) s fun t => t.rn R.pwrPower = mw ∧
        (t.pwr.gov, t.pwr.govLow) = govStep mw (s.rf R.pwrCap 0 10 * 250) s.pwr.gov s.pwr.govLow ∧ t.pwr.therm = s.pwr.therm ∧
        s.Keeps [.pwr, .mctp, .page 0x1000, .page 0x2000] t) ∧
    (s.inD3 = false → (s.isMgr = true ∨ s.chain.asleep = false) → s.govEn = false → Answers (.governorEval mw) s fun t =>
      t.pwr.gov = 0 ∧ t.pwr.govLow = 0 ∧ s.Keeps [.pwr, .mctp, .page 0x1000, .page 0x2000] t) ∧
    (s.boot.powered = true → s.pwr.tripped = false → l ≠ [] →
      (∀ x ∈ l.take 26, x < 4 * ((s.rf R.pwrThermCfg 24 8 : Nat) : Int)) → Answers (.thermalSample l) s fun t =>
        (t.pwr.therm, t.pwr.thermLow) = thermStep (s.reg R.pwrThermCfg) (hottest l).2 s.pwr.therm s.pwr.thermLow ∧
        t.pwr.gov = s.pwr.gov ∧ t.pwr.tripped = false ∧ s.Keeps [.pwr, .mctp, .page 0x1000, .page 0x2000] t) ∧
    (s.boot.powered = true → s.pwr.tripped = false → (l.take 26).findIdx? (fun x => decide ((4 * (s.reg R.pwrThermCfg).fld 24 8 : Int) ≤ x)) = some j →
      Answers (.thermalSample l) s fun t =>
        t.pwr.tripped = true ∧ t.out = .pin .thermtripN false :: s.out ∧ t.rf R.pwrTripRec 1 5 = j ∧ t.rb R.pwrTripRec 0 = true ∧
        (∀ i, i < 25 → t.islRuns i = false) ∧
        s.Keeps [.pwr, .page 0x1000, .page 0x2000, .reg (R.glkStat 0), .reg (R.glkStat 1)] t) ∧
    ((s.boot.powered = false ∨ s.pwr.tripped = true ∨ l = []) → exec (.thermalSample l) s = .next s) ∧
    (s.inD3 = false → v.fld 0 2 = 1 → Answers (.pwrProfile v) s fun t => t.reg R.pwrCap = 600 ∧ t.reg R.pwrLvlMin = 0 ∧
      t.reg R.pwrProfile = 1 ∧ s.Keeps [.page 0x1000, .page 0x2000] t) ∧
    (s.inD3 = false → v.fld 0 2 = 2 → Answers (.pwrProfile v) s fun t => t.reg R.pwrCap = 240 ∧ t.reg R.pwrLvlMin = 8 ∧
      t.reg R.pwrProfile = 2 ∧ s.Keeps [.page 0x1000, .page 0x2000] t)

/-- R70, R394-R400: Fumarole is entered when no other core, no codec and no D-state forbids it: the chain sleeps, the other cores are
gated and out of service, and PWR_STAT reads it; it is refused otherwise with the reason; its exit gives the cores back. D3hot
discards every read-ahead line, and D0 ends it. A wake source that is enabled sets its bit in D3 and, with PME_En, asks for a wake. -/
def Obligations.SleepAndWake : Prop :=
  ∀ (s : State) (v : Word) (pin : Nat) (rising : Bool),
    (s.isMgr = true → v.bit 0 = true → s.pwr.fum = false → s.fumRefuse (v.fld 4 4) = 0 → Answers (.fumarole v) s fun t =>
      t.pwr.fum = true ∧ t.pwr.fumCore = v.fld 4 4 ∧ t.rf R.pwrStat 0 3 = 2 ∧
      (∀ k, k < 16 → k ≠ v.fld 4 4 → t.rb R.schedCoreOff k = true ∧ (s.islRuns k = true → t.islRuns k = false ∧ t.core k = {})) ∧
      t.bpm = s.bpm ∧ t.dram = s.dram ∧ t.ctxs = s.ctxs ∧ t.sec = s.sec ∧ t.boot = s.boot) ∧
    (s.isMgr = true → v.bit 0 = true → s.pwr.fum = false → s.fumRefuse (v.fld 4 4) ≠ 0 → Answers (.fumarole v) s fun t =>
      t.pwr = s.pwr ∧ t.rf R.pwrStat 17 2 = s.fumRefuse (v.fld 4 4) ∧ s.Keeps [.reg R.pwrStat, .reg R.pwrStateReq] t) ∧
    (s.isMgr = true → v.bit 0 = false → s.pwr.fum = true → s.inD3 = false → Answers (.fumaroleExit (some v)) s fun t =>
      t.pwr.fum = false ∧ t.pwr.gated = [] ∧ t.reg R.schedCoreOff = Word.ofNat s.pwr.coreOff ∧
      (∀ i ∈ s.pwr.gated, i < 26 → t.islRuns i = true) ∧ t.bpm = s.bpm ∧ t.dram = s.dram ∧ t.ctxs = s.ctxs ∧ t.boot = s.boot) ∧
    (s.pwr.wakeDet = true → s.pwr.fum = true → s.inD3 = false → Answers (.fumaroleExit none) s fun t =>
      t.pwr.fum = false ∧ t.reg R.schedCoreOff = Word.ofNat s.pwr.coreOff) ∧
    (s.isMgr = false → exec (.fumarole v) s = .next s) ∧
    (s.isMgr = true → s.inD3 = false → Answers .d3hot s fun t =>
      t.inD3 = true ∧ (t.cfg 0 0x11).fld 0 2 = 3 ∧ (∀ r ∈ t.hif.ahead, r.lines = []) ∧ t.chain.asleep = true ∧
      t.rb R.timeStat 1 = true ∧ t.rf R.pwrStat 0 3 = 3 ∧ t.eng = s.eng ∧ t.bpm = s.bpm ∧ t.dram = s.dram ∧ t.as = s.as ∧
      t.ctxs = s.ctxs ∧ t.pwr = s.pwr) ∧
    (s.isMgr = true → s.inD3 = true → Answers .pmcsrD0 s fun t =>
      t.inD3 = false ∧ (t.cfg 0 0x11).fld 0 2 = 0 ∧ t.rb R.timeStat 1 = false ∧ t.pwr = s.pwr ∧ t.sec = s.sec ∧ t.boot = s.boot) ∧
    (pin < 4 → s.rb R.pwrWakeEn (if rising then pin else 4 + pin) = true → (s.inD3 = true ∨ s.boot.powered = false) →
      Answers (.gpioWakeEdge pin rising) s fun t => t.rb R.pwrWakeStat (if rising then pin else 4 + pin) = true ∧
        (s.isMgr = true → (s.cfg 0 0x11).bit 8 = true → s.boot.powered = false → t.boot.wakeLow = true) ∧
        (s.isMgr = true → (s.cfg 0 0x11).bit 8 = true → s.boot.powered = true → t.out = .pcie .pme :: s.out) ∧
        s.Keeps [.boot, .hif, .reg R.pwrWakeStat] t) ∧
    (s.rn R.pwrWakeTimer ≠ 0 → Answers .wakeTimerExpiry s fun t => t.reg R.pwrWakeTimer = 0 ∧
      (s.rb R.pwrWakeEn 8 = true → (s.inD3 = true ∨ s.boot.powered = false) → t.rb R.pwrWakeStat 8 = true) ∧
      s.Keeps [.boot, .hif, .reg R.pwrWakeStat, .reg R.pwrWakeTimer] t)

/-- R349-R363, R407: an occurrence that is due launches when its target is up, and its entry goes one period on or is disarmed: SUBMIT moves the owner's
SQ tail, CLOSE seats the picture of its window, PPU and CLIP push their descriptors, SYNC drives SYNC_OUT. One whose target is down waits and is
then late; a refused push is retried under RUN_LATE. Shop time steps, is captured and is read as its registers say; TIME frames carry it
down the chain, and a worker measures its error and its lock by them, as the manager does by PTM. A read of VENT_LAST_ADDR_LO restarts the capture.
The servo's rate is a free value. -/
def Obligations.TimeIsKeptAndTheTimetableLaunches : Prop :=
  ∀ (s : State) (e p n a q c origin corr delay master req : Nat) (x : Ent) (src : Src) (v : Word) (err : Int),
    (∀ y, c = x.owner → y = s.ctx c → s.Due e 1 x → s.ctxSt c = 2 → Answers (.submit e) s fun t => t.ent e = x.after ∧
      t.ctx c = { y with latched := (y.latched.filter (·.1 != 0)) ++ [(0, (y.sqTail + fldN x.arg 0 16) % 2 ^ 32)] } ∧
      t.out = s.out ∧ s.Keeps [.tim, .reg R.timeArmed, .ctx c] t) ∧
    (∀ y tag, c = x.owner → y = s.ctx c → s.Due e 1 x → s.ctxSt c = 1 → fldN x.arg 0 16 = 1 → y.sqTail < 2 ^ 32 → s.isMgr = true → s.rb (R.ctxCtl c) 3 = false →
      s.ringFull c 1 = false → y.sq = [] → y.sqIssued = y.sqTail → (y.sqTail + 1 + 2 ^ 32 - s.rn (R.ctxRingCnt c 0)) % 2 ^ 32 ≤ s.ringLen c 0 →
      s.hifHeld (s.ctxVec c).1 = false → s.nextTag = some tag → Answers (.submit e) s fun t => t.ent e = x.after ∧
        t.ctx c = { y with sqTail := (y.sqTail + 1) % 2 ^ 32, sqIssued := (y.sqTail + 1) % 2 ^ 32 } ∧
        t.hif.reads = s.hif.reads ++ [{ tag, fn := (s.ctxVec c).1, for_ := .sq c y.sqTail, addr := s.sqAddr c y.sqTail, len := 64 }] ∧
        s.Keeps [.tim, .reg R.timeArmed, .ctx c, .hif, .reg R.hifTagStat] t) ∧
    (s.Due e 2 x → s.route (fldN x.arg 0 8) = none → Answers (.close e) s fun t => t.ent e = x.after ∧
      t.rn R.timeNopCnt = min 0xFFFFFFFF (s.rn R.timeNopCnt + 1) ∧ t.out = s.out ∧ s.Keeps [.tim, .reg R.timeArmed, .reg R.timeNopCnt] t) ∧
    (∀ (y : Route) (co : Coach) (k : Nat) (z : Stream) (pic : Pic) (r : Nat) (hi : Int), s.Due e 2 x → r = fldN x.arg 0 8 → s.route r = some y → y.ctx = x.owner →
      y.coach = some co → co.kind = 1 → 1 ≤ co.seats → y.stopping = false → y.steps = [] → y.waiting = [] → s.eng.streams = [(k, some z)] →
      k ≠ clipKey → z.ctx = x.owner → z.route = r → z.ready = [pic] → hi = (x.t : Int) - fldN x.arg 14 7 * 16000000 + fldN x.arg 8 6 * 16000000 →
      hi - x.per ≤ pic.cts * 16 → (pic.cts * 16 : Int) < hi → Answers (.close e) s fun t => ∃ d : Dev, t = d.coachAll.pushTaken e ∧
        d.ent e = { x with t := x.t + x.per } ∧ d.strm k = some { z with ready := [] } ∧
        d.route r = some { y with steps := [{ n := y.stepN, seats := [{ Waiting.seat { pic, camera := z.camera } with q := y.q }], running := y.map }]
                                  q := y.q + 1, stepN := y.stepN + 1, deferred := false } ∧
        d.out = s.out ∧ s.Keeps [.eng, .tim, .reg R.timeArmed, .reg R.timeInstExtra, .reg R.timeInstStale] d) ∧
    (q = s.ppuFor → s.Due e 3 x → s.ctxDram x.owner (x.arg * 128) 128 = some a → (s.byte a).toNat = x.owner → s.descBad q a = false → s.Sound →
      ((s.jq q).jobs.length < 64 → s.Holds x.owner 0 (jobHandles q (s.bytes a (descLen q (s.bytes a 128)))) → Answers (.ppu e) s fun t =>
        (∃ j, (t.jq q).jobs = (s.jq q).jobs ++ [j] ∧ j.by_ = .time e ∧ j.addr = some a ∧ j.desc = s.bytes a (descLen q (s.bytes a 128)) ∧ j.phase = 0 ∧
          j.bad = none) ∧ t.ent e = x.after ∧ (∀ i, i ≠ q → t.jq i = s.jq i) ∧ s.Keeps [.eng, .bpm, .tim, .reg R.timeArmed, .reg (jqPage q + 0x108)] t) ∧
      (64 ≤ (s.jq q).jobs.length → x.late = 1 → Answers (.ppu e) s fun t =>
        t.ent e = { x with t := x.t + x.per, retry := some (x.t, 0) } ∧ t.rn (jqPage q + 0x110) = min 0xFFFFFFFF (s.rn (jqPage q + 0x110) + 1) ∧
        t.eng = s.eng ∧ s.Keeps [.tim, .reg R.timeArmed, .reg (jqPage q + 0x110)] t)) ∧
    (∀ d k r, s.Due e 4 x → s.ctxDram x.owner (x.arg * 128) 128 = some a → s.Sound → d = s.bytes a 128 → clipBad d = false → dF d 0 14 1 = 0 →
      dF d 0x38 0 13 = 0 → bitN (dQ d 0x18) 63 = false → k = dF d 0 0 12 → s.inRing k = some r → r.ctx = x.owner → r.unit = s.addr →
      s.vencRefuse x.owner d true = none → Answers (.clip e) s fun t =>
        (∃ i, t.eng.venc.clips = s.eng.venc.clips ++ [i] ∧ i.id = s.addr * 2 ^ 28 + Tab.get (fun _ => 1) s.eng.venc.counts s.addr ∧ i.ctx = x.owner ∧
          i.stream = k ∧ i.desc = d ∧ i.timed = true ∧ i.acc = false) ∧ t.ent e = { x with t := x.t + x.per } ∧ t.clipOpen e = true ∧
        s.Keeps [.eng, .tim, .reg R.timeArmed, .reg R.vencStat, .reg R.vencCurClip, .reg R.vencCurPic] t) ∧
    (s.Due e 5 x → Answers (.sync e) s fun t => t.ent e = x.after ∧ t.tim.pulses = s.tim.pulses ++ [s.ns + fldN x.arg 0 20 * 1000] ∧
      t.tim.high = s.rb R.timeCtl 3 ∧ t.out = (if s.tim.high = s.rb R.timeCtl 3 then [] else [.pin .syncOut (s.rb R.timeCtl 3)]) ++ s.out ∧
      s.Keeps [.tim, .reg R.timeArmed] t) ∧
    (∀ w ∈ entRows e, (256 ≤ e ∨ (s.ent e).action ≠ w.1 ∨ s.now16 < (s.ent e).t ∨ s.rb R.timeStat 1 = true) → exec w.2 s = .next s) ∧
    (∀ w ∈ entRows e, e < 256 → s.ent e = x → x.action = w.1 → x.t ≤ s.now16 → s.rb R.timeStat 1 = false → x.per ≠ 0 →
      (s.targetDown x = true → Answers w.2 s fun t => t.ent e = { x with down := true } ∧ t.out = s.out ∧ s.Keeps [.tim, .reg R.timeArmed] t) ∧
      (s.targetDown x = false → x.down = true → x.late = 2 → n = (s.now16 - x.t) / x.per + 1 → Answers w.2 s fun t =>
        (t.ent e).t = x.t + n * x.per ∧ (t.ent e).w = x.w ∧ (t.ent e).down = false ∧ t.rn R.timeLateCnt = min 0xFFFFFFFF (s.rn R.timeLateCnt + n) ∧
        t.eng = s.eng ∧ s.Keeps [.tim, .reg R.timeArmed, .reg R.timeLateCnt] t)) ∧
    Answers .syncPulseEnd s (fun t => t.tim.pulses = s.tim.pulses.filter (fun i => decide (s.ns < i)) ∧ t.tim.ents = s.tim.ents ∧
      ((∀ i ∈ s.tim.pulses, i ≤ s.ns) → t.tim.high = false ∧ (s.tim.high = true → t.out = .pin .syncOut false :: s.out)) ∧ s.Keeps [.tim] t) ∧
    (∀ t0, e < 256 → s.ent e = x → x.action = 3 → x.retry = some (t0, n) → x.late = 1 → s.rb R.timeStat 1 = false → s.clipOpen e = false →
      s.targetDown x = false → q = s.ppuFor → s.ctxDram x.owner (x.arg * 128) 128 = some a → (s.byte a).toNat = x.owner → s.descBad q a = false →
      s.Sound → (s.jq q).jobs.length < 64 → s.Holds x.owner 0 (jobHandles q (s.bytes a (descLen q (s.bytes a 128)))) → Answers (.lateRetry e) s fun t =>
        (∃ j, (t.jq q).jobs = (s.jq q).jobs ++ [j] ∧ j.by_ = .time e ∧ j.addr = some a) ∧ (t.ent e).retry = none ∧ (t.ent e).t = x.t ∧
        t.rn R.timeLateCnt = min 0xFFFFFFFF (s.rn R.timeLateCnt + n) ∧
        s.Keeps [.eng, .bpm, .tim, .reg R.timeArmed, .reg R.timeLateCnt, .reg (jqPage q + 0x108)] t) ∧
    ((256 ≤ e ∨ (s.ent e).retry = none) → exec (.lateRetry e) s = .next s) ∧
    (e < 256 → (s.ent e).held ≠ none → Answers (.heldReportRelease e) s fun t => t.ent e = { s.ent e with held := none, lastRep := some s.ns } ∧
      s.Keeps [.tim, .reg R.timeArmed] t) ∧
    ((256 ≤ e ∨ (s.ent e).held = none) → exec (.heldReportRelease e) s = .next s) ∧
    (s.rb R.timeCtl 4 = true → Answers .syncIn s fun t => t.rq R.timeSyncinLo = s.ns ∧ t.rn R.timeSyncinCnt = (s.rn R.timeSyncinCnt + 1) % 2 ^ 32 ∧
      t.rb (0x70000 + R.irqStat) 2 = true ∧ s.Keeps [.reg R.timeSyncinLo, .reg (R.timeSyncinLo + 4), .reg R.timeSyncinCnt] t) ∧
    (s.rb R.timeCtl 4 = false → exec .syncIn s = .next s) ∧
    (s.islOn (islOf 0x70000) = true → s.rb (0x70000 + R.ctl) 1 = false → s.unarmed →
      ((src = .mgmt ∨ (src = .host 0 ∧ s.pfUp = true ∧ s.timeSrc = 1)) → Answers (.timeStepHi src v) s fun t =>
        t.shop = s.shopPlus (toSigned 64 (s.rn R.timeStepLo + v.toNat * 2 ^ 32)) ∧ t.tim.ents = s.tim.ents ∧ t.out = s.out ∧ s.Keeps [.shop, .tim] t) ∧
      (src = .host 0 → s.timeSrc ≠ 1 → Answers (.timeStepHi src v) s fun t => t.out = s.out ∧ s.Keeps [] t)) ∧
    ((s.glk 0).queue = [] → (s.glk 1).queue = [] →
      (s.isMgr = true → Answers .timeFrameSend s fun t => (∀ i < 2, s.glkSt i = 2 → ∃ f, .frame i f ∈ t.out ∧ f.cls = 1 ∧ f.hops = 15 ∧
        f.payload = bytesOf 8 s.ns ++ bytesOf 8 0) ∧ s.Keeps [] t) ∧
      (s.isMgr = false → s.tim.rxAt = some p → s.glkSt (otherPort p) = 2 → Answers .timeFrameSend s fun t =>
        (∃ f d, t.out = .frame (otherPort p) f :: s.out ∧ f.cls = 1 ∧ f.payload = bytesOf 8 s.tim.origin ++ bytesOf 8 (s.tim.corr + d)) ∧ s.Keeps [.draws] t)) ∧
    (p < 2 → s.isMgr = false → s.glkSt p = 2 → s.chain.addressed = true → s.upstream p = p → s.rb R.timeStat 1 = false → s.mgmtUp = true → s.unarmed →
      err = (s.ns : Int) - (origin + corr + delay : Nat) → Answers (.time p origin corr delay) s fun t =>
        t.tim.origin = origin ∧ t.tim.corr = corr ∧ t.tim.rxAt = some p ∧ t.reg R.timeErr = errWord err ∧ t.reg R.timeLinkDelay = Word.ofNat (delay % 2 ^ 24) ∧
        (err.natAbs ≤ 12 → t.rf R.timeStat 8 8 = min 255 (s.rf R.timeStat 8 8 + 1) ∧ (7 ≤ s.rf R.timeStat 8 8 → t.rb R.timeStat 0 = true)) ∧
        (12 < err.natAbs → t.rf R.timeStat 8 8 = 0) ∧ (20 < err.natAbs → t.tim.bad = s.tim.bad + 1 ∧ (1 ≤ s.tim.bad → t.rb R.timeStat 0 = false)) ∧
        t.shop = (if 1000 < err.natAbs then s.shopPlus (-err) else s.shop) ∧
        s.Keeps [.tim, .shop, .draws, .reg R.timeErr, .reg R.timeStat, .reg R.timeRate, .reg R.timeLinkDelay] t) ∧
    ((2 ≤ p ∨ (p < 2 ∧ s.isMgr = true)) → Answers (.time p origin corr delay) s fun t => t.out = s.out ∧ s.Keeps [] t) ∧
    (s.isMgr = false → Answers .timeFrameLoss s fun t => t.rb R.timeStat 0 = false ∧ t.rf R.timeStat 8 8 = 0 ∧ s.Keeps [.reg R.timeStat] t) ∧
    (s.isMgr = true → exec .timeFrameLoss s = .next s) ∧
    (s.hif.ptmOut = true → s.timeSrc = 2 → s.rb R.timeStat 1 = false → s.mgmtUp = true → s.unarmed →
      err = (s.ns : Int) - master - toSigned 64 (s.rq R.timePtmOffLo) → Answers (.ptmResponse master) s fun t =>
        t.hif.ptmOut = false ∧ t.reg R.timeErr = errWord err ∧ (err.natAbs ≤ 1000 → 7 ≤ s.rf R.timeStat 8 8 → t.rb R.timeStat 0 = true) ∧
        (10000 < err.natAbs → t.rb R.timeStat 0 = false) ∧ t.shop = (if 1000000 < err.natAbs then s.shopPlus (-err) else s.shop) ∧
        s.Keeps [.tim, .hif, .shop, .draws, .reg R.timeErr, .reg R.timeStat, .reg R.timeRate] t) ∧
    (s.pageUp R.timeNowLo = true → Answers (.timeNowLo req) s fun t => t.out = .cpl req (bytesOf 4 (s.ns % 2 ^ 32)) false :: s.out ∧
      t.rn R.timeNowHi = s.ns / 2 ^ 32 ∧ t.rn R.timeNowFrac = s.shop / 2 ^ 32 % 2 ^ 16 ∧ s.Keeps [.reg R.timeNowHi, .reg R.timeNowFrac] t) ∧
    (a = s.vent.cap.getD 0 → s.pageUp R.ventLastAddrLo = true → Answers (.ventLastAddrLo req) s fun t =>
      t.out = .cpl req (bytesOf 4 (a % 2 ^ 32)) false :: s.out ∧ t.reg R.ventLastAddrHi = Word.ofNat (a / 2 ^ 32) ∧ t.vent = { s.vent with cap := none } ∧
      s.Keeps [.vent, .reg R.ventLastAddrHi] t)

/-- R401, R405-R410, R413-R415: a lifecycle request moves the state forward, or is refused with the reason; a read of
DBG_CHAL0 draws a nonce; an unlock whose token passes every check waits for its resets and its zeroisation and then opens its level, any other is
counted with its reason; DBG_LOCK lowers the level; a DBG read returns zeros in place of blocked bytes; the SPDM responder answers, or holds its
request. Verdicts of the cryptography come with the row; digests, chains and signatures are free values; the codes of the messages
are presumed (notes/assumptions/31), and so is the order of a lifecycle request's refusals. -/
def Obligations.LifecycleDebugAndAttestation : Prop :=
  ∀ (s : State) (auth kek tap sig sign : Bool) (owner dbgMax ev req a len lv why slot off i : Nat) (v : Word) (tok tok' : List Byte)
    (lcRows : List (Instr × List Lc)) (spdmRows : List (Nat × List Nat × Instr)),
    lcRows = [(.secLcReqProvisioned auth owner dbgMax ev kek, [.provisioned, .sealed, .decommissioned]),
      (.secLcReqSealed auth, [.blank, .sealed, .decommissioned]), (.secLcReqDecommissioned auth, [.decommissioned])] →
    spdmRows = [(0x84, [], .getVersion), (0xE1, [], .getCapabilities), (0xE3, [], .negotiateAlgorithms), (0x81, [], .getDigests),
      (0x82, [slot, off, len], .getCertificate slot off len), (0x83, [slot], .challenge slot), (0xE0, [i, bN sign], .getMeasurements i sign)] →
    (∀ w ∈ lcRows,
      (s.lcBlock ≠ 0 → Answers w.1 s fun t => t.sec = { s.sec with refuse := s.lcBlock } ∧ t.out = s.out ∧ s.Keeps [.sec] t) ∧
      (s.lcBlock = 0 → s.sec.lc ∈ w.2 → Answers w.1 s fun t => t.sec = { s.sec with refuse := 1 } ∧ t.out = s.out ∧ s.Keeps [.sec] t) ∧
      (s.lcBlock = 0 → s.sec.lc ∉ w.2 → auth = false → Answers w.1 s fun t => t.sec = { s.sec with refuse := 2 } ∧ t.out = s.out ∧ s.Keeps [.sec] t)) ∧
    (s.lcBlock = 0 → auth = true →
      (s.sec.lc = .blank → Answers (.secLcReqProvisioned auth owner dbgMax ev kek) s fun t =>
        t.sec = { s.sec with lc := .provisioned, owner := owner % 128, dbgMax := dbgMax % 4, evFused := ev % 16, kekFused := kek, evLoaded := ev % 16,
                             kekLoaded := kek, refuse := 0, audit := s.sec.audit + 1 } ∧ t.rb (0x3000 + R.irqStat) 0 = true ∧ s.Keeps [.sec] t) ∧
      (s.sec.lc = .provisioned → Answers (.secLcReqSealed auth) s fun t =>
        t.sec = { s.sec with sealPending := true, refuse := 0 } ∧ t.out = s.out ∧ s.Keeps [.sec] t) ∧
      (s.sec.lc ≠ .decommissioned → s.slots = [] → Answers (.secLcReqDecommissioned auth) s fun t =>
        t.sec = { s.sec with lc := .decommissioned, owner := 0, evFused := 0, kekFused := false, evLoaded := 0, kekLoaded := false, refuse := 0,
                             audit := s.sec.audit + 1 } ∧ t.as = [] ∧ t.boot = { s.boot with zero := [allDram] } ∧ t.rb R.topStat 4 = true ∧
        s.Keeps [.sec, .as, .asMarks, .boot, .reg R.topStat] t)) ∧
    Answers (.dbgChal0 req) s (fun t => t.sec.nonce.length = 8 ∧ (∀ x ∈ t.sec.nonce, x < 2 ^ 32) ∧ t.sec = { s.sec with nonce := t.sec.nonce } ∧
      t.out = .cpl req (bytesOf 4 (t.sec.nonce.headD 0)) false :: s.out ∧ s.Keeps [.sec, .draws] t) ∧
    (s.sec.unlocking = none → tok' = (if s.isMgr && !tap then s.bytes (s.rq R.dbgTokenLo) 256 else tok) → why = s.dbgWhy tok' sig →
      (why ≠ 0 → Answers (.dbgUnlock tap tok sig) s fun t => t.rf R.dbgRefuse 0 8 = min 255 (s.rf R.dbgRefuse 0 8 + 1) ∧ t.rf R.dbgRefuse 8 4 = why ∧
        t.sec = { s.sec with audit := s.sec.audit + 1 } ∧ t.rb (0x4000 + R.irqStat) 16 = true ∧ s.Keeps [.sec, .reg R.dbgRefuse] t) ∧
      (why = 0 → (s.slots = [] ∨ natOf ((tok'.drop 4).take 1) % 4 < 2) → Answers (.dbgUnlock tap tok sig) s fun t =>
        t.sec = { s.sec with unlocking := some (natOf ((tok'.drop 4).take 1) % 4), nonce := [], tap := s.sec.tap || tap } ∧ t.out = s.out ∧
        s.Keeps [.sec] t)) ∧
    (s.sec.unlocking ≠ none → exec (.dbgUnlock tap tok sig) s = .next s) ∧
    (s.sec.unlocking = some lv → (lv < 2 ∨ ∀ x ∈ s.slots, x.2 = 0) → Answers .debugUnlocked s fun t =>
      t.sec.unlocking = none ∧ t.sec.dbgLevel = lv ∧ t.sec.unlocks = min 255 (s.sec.unlocks + 1) ∧ t.sec.audit = s.sec.audit + 1 ∧ t.sec.lc = s.sec.lc ∧
      t.rb (0x4000 + R.irqStat) 0 = true ∧ (lv < 2 → t.as = s.as ∧ t.dram = s.dram) ∧ (2 ≤ lv → t.as = []) ∧
      (2 ≤ lv → s.sec.lc = .provisioned → t.dram = s.dram) ∧
      (2 ≤ lv → s.sec.lc = .sealed → t.sec.evLoaded = 0 ∧ t.sec.kekLoaded = false ∧ t.sec.keysLocked = true ∧
        ∀ e ∈ s.guardedExtents, e.cls ≠ 3 → ∀ b, e.base ≤ b → b < e.base + e.len → t.byte b = 0) ∧
      s.Keeps [.sec, .as, .asMarks, .dram, .marks, .ras, .reg R.rasInjCtl] t) ∧
    ((s.sec.unlocking = none ∨ ∃ l, s.sec.unlocking = some l ∧ 2 ≤ l ∧ ∃ x ∈ s.slots, x.2 ≠ 0) → exec .debugUnlocked s = .next s) ∧
    (v.fld 0 2 < s.sec.dbgLevel → Answers (.dbgLock v) s fun t => t.sec.dbgLevel = v.fld 0 2 ∧ t.sec.lc = s.sec.lc ∧
      t.sec.audit = s.sec.audit + (if v.fld 0 2 = 0 then 1 else 0) ∧ (v.fld 0 2 = 0 → t.sec.tap = false) ∧ t.out = s.out ∧ s.Keeps [.sec] t) ∧
    (s.sec.dbgLevel ≤ v.fld 0 2 → exec (.dbgLock v) s = .next s) ∧
    (∀ core, s.sec.dbgLevel < 2 → exec (.dbgMemoryRead req core a len) s = .next s) ∧
    (2 ≤ s.sec.dbgLevel → s.inD3 = false →
      (a + len ≤ s.usable → Answers (.dbgMemoryRead req none a len) s fun t =>
        t.out.head? = some (.cpl req ((List.range len).map fun j => if (s.dbgByte (a + j)).2 then 0 else s.byte (a + j)) false) ∧
        ((∃ j < len, (s.dbgByte (a + j)).2 = true) → t.rn R.ventBlockCnt = min 0xFFFFFFFF (s.rn R.ventBlockCnt + 1)) ∧ s.SameBytes t ∧
        s.Keeps [.draws, .vent, .sec, .reg R.ventBlockCnt, .reg R.ventLastInfo] t) ∧
      (s.pwr.fum = false → s.dbgOpen = true → a + len ≤ 2 ^ 23 → i < 16 → Answers (.dbgMemoryRead req (some i) a len) s fun t =>
        t.out = .cpl req (s.asBytes i a len) false :: s.out ∧ s.SameBytes t ∧ s.Keeps [.draws] t)) ∧
    (∀ w ∈ spdmRows,
      ((s.isMgr = false ∨ s.mctp.doe ≠ none) → exec w.2.2 s = .next s) ∧
      (s.isMgr = true → s.mctp.doe = none → s.doeHolds = true → Answers w.2.2 s fun t =>
        t.mctp = { s.mctp with doe := some (w.1, w.2.1) } ∧ t.out = s.out ∧ s.Keeps [.mctp] t)) ∧
    (s.isMgr = true → s.mctp.doe = none → s.doeHolds = false →
      (∀ w ∈ spdmRows, Answers w.2.2 s fun t => ∃ st data,
        t.out = .mgmtMsg { proto := 0, code := w.1, status := st, data } :: s.out ∧
        (st = 1 ↔ (w.1 = 0x82 ∨ w.1 = 0x83) ∧ s.certSlot slot = false ∨ w.1 = 0xE0 ∧ 7 < i ∧ i ≠ 0xFF) ∧ (st = 1 → data = []) ∧
        (w.1 = 0x84 → data = [0x12]) ∧ (w.1 = 0x81 → data.head? = some (if s.certSlot 1 then 3 else 1)) ∧
        (w.1 = 0xE0 → i = 0 → sign = false → data = [7]) ∧
        (w.1 = 0xE0 → i = 4 → sign = false →
          data = [s.sec.lc.num, s.sec.dbgLevel, bN s.sec.fumForce, bN s.sec.keysLocked, s.sec.unlocks, s.sec.audit]) ∧
        s.Keeps [.draws] t))

/-- R424, R429-R432: MGMT_UPD_CTL starts one update, which ends PENDING in the slot that is not ACTIVE, or FAILED with the slots unchanged. The SMBus
target reads STATUS, ALERT, SERIAL and TRIP whenever the always-on hardware has power, clears alerts unless the PEC is bad, and answers the
Alert Response Address while it drives ALERT_N. MCTP and PLDM commands are answered while MGMT runs and an endpoint ID is set, which SET_ENDPOINT_ID
does. Codes of the messages and the second start's refusal are presumed (notes/assumptions/31). -/
def Obligations.UpdatesAndManagementMessages : Prop :=
  ∀ (s : State) (v : Word) (img : ImageCheck) (flashOk withPec : Bool) (eid type h id u k : Nat) (smbRows : List (Nat × List Byte × Instr))
    (mctpRows : List (MgmtReply × Instr)),
    smbRows = [(1, s.smbStatus, .status withPec), (2, bytesOf 4 (s.rn R.topAlertStat), .alert withPec), (3, bytesOf 8 s.sec.serial, .serial withPec),
      (4, bytesOf 4 (s.rn R.pwrTripRec), .trip withPec)] →
    mctpRows = [({ proto := 1, code := 2, status := 0, data := [s.mctp.eid] }, .getEndpointId),
      ({ proto := 1, code := 4, status := 0, data := [Config.freeNat 98 0] }, .getMctpVersionSupport),
      ({ proto := 1, code := 5, status := 0, data := [0, 1] }, .getMessageTypeSupport), ({ proto := 2, code := 2, status := 0, data := [Config.freeNat 98 1] }, .gettid),
      ({ proto := 2, code := 3, status := 0, data := [Config.freeNat 98 2] }, .getpldmversion), ({ proto := 2, code := 4, status := 0, data := [0, 2] }, .getpldmtypes),
      ({ proto := 2, code := 5, status := if pldmOf type = [] then 1 else 0, data := pldmOf type }, .getpldmcommands type),
      ({ proto := 2, code := 0x50, status := 0, data := [s.sensorIds.length] }, .getpdrrepositoryinfo),
      ({ proto := 2, code := 0x51, status := (s.pdrSays h).1, data := (s.pdrSays h).2 }, .getpdr h)] →
    ((v.bit 0 = false ∨ s.isMgr = false) → exec (.mgmtUpdCtl v) s = .next s) ∧
    (∀ why, v.bit 0 = true → s.isMgr = true →
      why = (if s.mgmt.updBusy then 7 else if s.rf R.mgmtStat 0 2 ≠ 0 then 6 else if s.rn R.mgmtUpdLen = 0 ∨ 16777216 < s.rn R.mgmtUpdLen then 4 else 0) →
      (why ≠ 0 → Answers (.mgmtUpdCtl v) s fun t => t.rf R.mgmtUpdStat 0 2 = 3 ∧ t.rf R.mgmtUpdStat 4 4 = why ∧ t.rb (0x5000 + R.irqStat) 16 = true ∧
        t.mgmt = s.mgmt ∧ s.Keeps [.reg R.mgmtUpdStat] t) ∧
      (why = 0 → Answers (.mgmtUpdCtl v) s fun t => t.mgmt = { s.mgmt with updBusy := true } ∧
        t.reg R.mgmtUpdStat = Word.ofNat (1 + (if s.mgmt.slotA.st = .active then 1 else 0) * 256) ∧ t.out = s.out ∧
        s.Keeps [.mgmt, .reg R.mgmtUpdStat] t)) ∧
    (∀ why, s.mgmt.updBusy = true → why = (if !img.ok || !img.codec then img.reason
        else if img.mgmtSvn < s.sec.floorM ∨ img.codecSvn < s.sec.floorC then 2 else if flashOk then 0 else 5) →
      ((!img.ok || !img.codec) = true ∨ why ≠ 0 → Answers (.updDone img flashOk) s fun t => t.mgmt = { s.mgmt with updBusy := false } ∧
        t.rf R.mgmtUpdStat 0 2 = 3 ∧ t.rf R.mgmtUpdStat 4 4 = why % 16 ∧ t.rb (0x5000 + R.irqStat) 16 = true ∧ s.Keeps [.mgmt, .reg R.mgmtUpdStat] t) ∧
      (img.ok = true → img.codec = true → why = 0 → Answers (.updDone img flashOk) s fun t =>
        (s.mgmt.slotA.st = .active → t.mgmt = { s.mgmt with updBusy := false, slotB := { st := .pending, svn := img.mgmtSvn, csvn := img.codecSvn, version := img.version } } ∧
          t.reg R.mgmtUpdStat = Word.ofNat 258) ∧
        (s.mgmt.slotA.st ≠ .active → t.mgmt = { s.mgmt with updBusy := false, slotA := { st := .pending, svn := img.mgmtSvn, csvn := img.codecSvn, version := img.version } } ∧
          t.reg R.mgmtUpdStat = Word.ofNat 2) ∧ t.rb (0x5000 + R.irqStat) 0 = true ∧ s.Keeps [.mgmt, .reg R.mgmtUpdStat] t)) ∧
    (s.mgmt.updBusy = false → exec (.updDone img flashOk) s = .next s) ∧
    (∀ w ∈ smbRows, (s.aonUp = false → exec w.2.2 s = .next s) ∧
      (s.aonUp = true → Answers w.2.2 s fun t => (∃ p : List Byte, t.out = .smbus (BitVec.ofNat 8 w.2.1.length :: w.2.1 ++ p) :: s.out ∧ p.length = bN withPec ∧
        (withPec = true → pec ([s.smbAddr * 2, w.1, s.smbAddr * 2 + 1] ++ (BitVec.ofNat 8 w.2.1.length :: w.2.1 ++ p).map (·.toNat)) = 0)) ∧
        s.Keeps [] t)) ∧
    (∀ b : Option Byte, s.aonUp = false → exec (.alertClear v b) s = .next s) ∧
    (s.aonUp = true → Answers (.alertClear v none) s fun t => t.reg R.topAlertStat = s.reg R.topAlertStat &&& ~~~v ∧
      ((s.reg R.topAlertStat &&& ~~~v &&& s.reg R.topAlertEn) = 0 → t.out = .pin .alertN true :: s.out) ∧ s.Keeps [] t) ∧
    (∀ b : Byte, s.aonUp = true → pec ([s.smbAddr * 2, 2, 4] ++ (bytesOf 4 v.toNat).map (·.toNat)) ≠ b.toNat → Answers (.alertClear v (some b)) s fun t =>
      t.out = .smbusNack :: s.out ∧ t.reg R.topAlertStat = s.reg R.topAlertStat ∧ s.Keeps [] t) ∧
    (s.aonUp = true →
      ((s.reg R.topAlertStat &&& s.reg R.topAlertEn) ≠ 0 → s.mctp.alertHeld = false → Answers .alertResponseAddress s fun t =>
        t.out = .pin .alertN true :: .smbus [BitVec.ofNat 8 (s.smbAddr * 2)] :: s.out ∧ t.mctp.alertHeld = true ∧ s.Keeps [] t) ∧
      (((s.reg R.topAlertStat &&& s.reg R.topAlertEn) = 0 ∨ s.mctp.alertHeld = true) → Answers .alertResponseAddress s fun t =>
        t.out = .smbusNack :: s.out ∧ s.Keeps [] t)) ∧
    (s.aonUp = false → exec .alertResponseAddress s = .next s) ∧
    (s.aonUp = true → s.mctpUp = true →
      (0 < eid → eid < 255 → Answers (.setEndpointId eid) s fun t => t.mctp = { s.mctp with eid } ∧
        t.out = .mgmtMsg { proto := 1, code := 1, status := 0, data := [eid] } :: s.out ∧ s.Keeps [.mctp] t) ∧
      ((eid = 0 ∨ eid = 255) → Answers (.setEndpointId eid) s fun t => t.mctp = s.mctp ∧ ∃ x, t.out = .mgmtMsg x :: s.out ∧ x.status ≠ 0) ∧
      (s.mctp.eid ≠ 0 → (∀ w ∈ mctpRows, Answers w.2 s fun t => t.out = .mgmtMsg w.1 :: s.out ∧ s.Keeps [] t) ∧
        Answers (.seteventreceiver eid) s (fun t => t.mctp = { s.mctp with receiver := some (eid % 256) } ∧
          t.out = .mgmtMsg { proto := 2, code := 4, status := 0, data := [] } :: s.out ∧ s.Keeps [.mctp] t) ∧
        (id = 0x100 * u + k → 1 ≤ k → k ≤ 4 → u < 16 → s.isMgr = true → Answers (.getsensorreading id) s fun t =>
          (∃ d, t.out = .mgmtMsg { proto := 2, code := 0x11, status := 0, data := d } :: s.out ∧ (s.isJoined u = false → d = [2]) ∧
            (s.isJoined u = true → d.head? = some 0) ∧ (s.isJoined u = true → u = 0 → d = [0, s.sensorState k, ofSigned 32 (s.sensor k).1])) ∧
          s.Keeps [.draws] t)) ∧
      (s.mctp.eid = 0 → (∀ w ∈ mctpRows, exec w.2 s = .next s) ∧ exec (.seteventreceiver eid) s = .next s)) ∧
    (s.aonUp = true → s.mctpUp = false → (∀ w ∈ mctpRows, Answers w.2 s fun t => t.out = .smbusNack :: s.out ∧ s.Keeps [] t) ∧
      Answers (.setEndpointId eid) s (fun t => t.out = .smbusNack :: s.out ∧ s.Keeps [] t)) ∧
    (s.aonUp = false → (∀ w ∈ mctpRows, exec w.2 s = .next s) ∧ exec (.setEndpointId eid) s = .next s ∧
      exec (.seteventreceiver eid) s = .next s)
end

