-- ==== Sys2Proof/Laws/Bits.lean ====
section
/-! SUPPORT. What a field of a word reads after a field was written. -/

namespace Sys2Proof

theorem Word.fld_eq (w : Word) (lo len : Nat) : w.fld lo len = w.toNat / 2 ^ lo % 2 ^ len := by
  simp [Word.fld, Nat.shiftRight_eq_div_pow]

theorem Word.fld_lt (w : Word) (lo len : Nat) : w.fld lo len < 2 ^ len := by
  rw [Word.fld_eq]; exact Nat.mod_lt _ (Nat.two_pow_pos _)

/-- A number taken apart at a field: what lies above it, the field, what lies below. -/
theorem nat_split (n lo len : Nat) :
    n = n / 2 ^ (lo + len) * 2 ^ (lo + len) + n / 2 ^ lo % 2 ^ len * 2 ^ lo + n % 2 ^ lo := by
  have e1 := Nat.div_add_mod n (2 ^ lo)
  have e2 := Nat.div_add_mod (n / 2 ^ lo) (2 ^ len)
  rw [Nat.div_div_eq_div_mul, ← pow_add] at e2
  calc n = 2 ^ lo * (n / 2 ^ lo) + n % 2 ^ lo := e1.symm
    _ = 2 ^ lo * (2 ^ len * (n / 2 ^ (lo + len)) + n / 2 ^ lo % 2 ^ len) + n % 2 ^ lo := by rw [e2]
    _ = _ := by rw [pow_add]; ring

/-- The number of a word with a field replaced. -/
theorem Word.toNat_setFld (w : Word) {lo len : Nat} (v : Nat) (h : lo + len ≤ 32) :
    (w.setFld lo len v).toNat = w.toNat / 2 ^ (lo + len) * 2 ^ (lo + len) + v % 2 ^ len * 2 ^ lo + w.toNat % 2 ^ lo := by
  have hw := w.isLt
  have h1 := nat_split w.toNat lo len
  rw [← Word.fld_eq] at h1
  have hv : v % 2 ^ len < 2 ^ len := Nat.mod_lt _ (Nat.two_pow_pos _)
  have hl : w.toNat % 2 ^ lo < 2 ^ lo := Nat.mod_lt _ (Nat.two_pow_pos _)
  have hle : v % 2 ^ len * 2 ^ lo + w.toNat % 2 ^ lo < 2 ^ (lo + len) := by
    have : (v % 2 ^ len + 1) * 2 ^ lo ≤ 2 ^ len * 2 ^ lo := Nat.mul_le_mul_right _ hv
    rw [pow_add, mul_comm (2 ^ lo)]; linarith [add_mul (v % 2 ^ len) 1 (2 ^ lo)]
  have hd : w.toNat / 2 ^ (lo + len) < 2 ^ (32 - (lo + len)) := by
    rw [Nat.div_lt_iff_lt_mul (Nat.two_pow_pos _), ← pow_add]
    have : 32 - (lo + len) + (lo + len) = 32 := by omega
    rw [this]; exact hw
  have ht : w.toNat / 2 ^ (lo + len) * 2 ^ (lo + len) + 2 ^ (lo + len) ≤ 2 ^ 32 := by
    have : (w.toNat / 2 ^ (lo + len) + 1) * 2 ^ (lo + len) ≤ 2 ^ (32 - (lo + len)) * 2 ^ (lo + len) := Nat.mul_le_mul_right _ hd
    rw [← pow_add] at this
    have e : 32 - (lo + len) + (lo + len) = 32 := by omega
    rw [e] at this; linarith [add_mul (w.toNat / 2 ^ (lo + len)) 1 (2 ^ (lo + len))]
  unfold Word.setFld Word.ofNat
  rw [BitVec.toNat_ofNat]
  have : w.toNat - w.fld lo len * 2 ^ lo = w.toNat / 2 ^ (lo + len) * 2 ^ (lo + len) + w.toNat % 2 ^ lo := by omega
  rw [this, Nat.mod_eq_of_lt (by omega)]
  omega

theorem nat_fld_of_split {n a v b lo len : Nat} (hb : b < 2 ^ lo) (hv : v < 2 ^ len) (h : n = a * 2 ^ (lo + len) + v * 2 ^ lo + b) :
    n / 2 ^ lo % 2 ^ len = v := by
  have e : n = b + (a * 2 ^ len + v) * 2 ^ lo := by rw [h, pow_add]; ring
  rw [e, Nat.add_mul_div_right _ _ (Nat.two_pow_pos _), Nat.div_eq_of_lt hb, zero_add, mul_comm a, Nat.mul_add_mod, Nat.mod_eq_of_lt hv]

/-- A field reads what was written to it. -/
theorem Word.fld_setFld_same (w : Word) {lo len : Nat} (v : Nat) (h : lo + len ≤ 32) :
    (w.setFld lo len v).fld lo len = v % 2 ^ len := by
  rw [Word.fld_eq]
  exact nat_fld_of_split (Nat.mod_lt _ (Nat.two_pow_pos _)) (Nat.mod_lt _ (Nat.two_pow_pos _)) (Word.toNat_setFld w v h)

/-- A field below a written one is left alone. -/
theorem Word.fld_setFld_below (w : Word) {lo len i n : Nat} (v : Nat) (h : lo + len ≤ 32) (hd : i + n ≤ lo) :
    (w.setFld lo len v).fld i n = w.fld i n := by
  have key : ∀ m : Nat, m / 2 ^ i % 2 ^ n = m % 2 ^ lo / 2 ^ i % 2 ^ n := by
    intro m
    have e : 2 ^ lo = 2 ^ i * (2 ^ n * 2 ^ (lo - i - n)) := by rw [← pow_add, ← pow_add]; congr 1; omega
    rw [e, Nat.mod_mul_right_div_self, Nat.mod_mul_right_mod]
  rw [Word.fld_eq, Word.fld_eq, key, key w.toNat, Word.toNat_setFld w v h]
  congr 2
  have : w.toNat / 2 ^ (lo + len) * 2 ^ (lo + len) + v % 2 ^ len * 2 ^ lo + w.toNat % 2 ^ lo
      = w.toNat % 2 ^ lo + 2 ^ lo * (w.toNat / 2 ^ (lo + len) * 2 ^ len + v % 2 ^ len) := by rw [pow_add]; ring
  rw [this, Nat.add_mul_mod_self_left, Nat.mod_mod]

/-- A field above a written one is left alone. -/
theorem Word.fld_setFld_above (w : Word) {lo len i n : Nat} (v : Nat) (h : lo + len ≤ 32) (hd : lo + len ≤ i) :
    (w.setFld lo len v).fld i n = w.fld i n := by
  rw [Word.fld_eq, Word.fld_eq]
  congr 1
  have e : i = (lo + len) + (i - (lo + len)) := by omega
  rw [e, pow_add, ← Nat.div_div_eq_div_mul, ← Nat.div_div_eq_div_mul, Word.toNat_setFld w v h]
  congr 1
  have hv : v % 2 ^ len < 2 ^ len := Nat.mod_lt _ (Nat.two_pow_pos _)
  have hl : w.toNat % 2 ^ lo < 2 ^ lo := Nat.mod_lt _ (Nat.two_pow_pos _)
  have hle : v % 2 ^ len * 2 ^ lo + w.toNat % 2 ^ lo < 2 ^ (lo + len) := by
    have : (v % 2 ^ len + 1) * 2 ^ lo ≤ 2 ^ len * 2 ^ lo := Nat.mul_le_mul_right _ hv
    rw [pow_add, mul_comm (2 ^ lo)]; linarith [add_mul (v % 2 ^ len) 1 (2 ^ lo)]
  rw [add_assoc, add_comm, Nat.add_mul_div_right _ _ (Nat.two_pow_pos _), Nat.div_eq_of_lt hle, zero_add]

/-- A bit is a field of length 1. -/
theorem Word.bit_eq_fld (w : Word) (i : Nat) : w.bit i = decide (w.fld i 1 = 1) := by
  simp only [Word.bit, Word.fld, BitVec.getLsbD, Nat.testBit, Nat.one_and_eq_mod_two, pow_one]
  generalize w.toNat >>> i = x
  rcases Nat.mod_two_eq_zero_or_one x with h | h <;> simp [h]

@[simp] theorem bN_mod_two (b : Bool) : bN b % 2 = bN b := by cases b <;> rfl

/-- A bit reads what was written to it. -/
theorem Word.bit_setFld_same (w : Word) {i : Nat} (b : Bool) (h : i < 32) : (w.setFld i 1 (bN b)).bit i = b := by
  rw [Word.bit_eq_fld, Word.fld_setFld_same w _ (by omega)]; cases b <;> rfl

theorem Word.bit_setFld_below (w : Word) {lo len i : Nat} (v : Nat) (h : lo + len ≤ 32) (hd : i < lo) :
    (w.setFld lo len v).bit i = w.bit i := by
  rw [Word.bit_eq_fld, Word.bit_eq_fld, Word.fld_setFld_below w v h (by omega)]

theorem Word.bit_setFld_above (w : Word) {lo len i : Nat} (v : Nat) (h : lo + len ≤ 32) (hd : lo + len ≤ i) :
    (w.setFld lo len v).bit i = w.bit i := by
  rw [Word.bit_eq_fld, Word.bit_eq_fld, Word.fld_setFld_above w v h hd]

/-- A field of a word made of a number. -/
theorem Word.fld_ofNat (v : Nat) {lo len : Nat} (h : lo + len ≤ 32) : (Word.ofNat v).fld lo len = v / 2 ^ lo % 2 ^ len := by
  rw [Word.fld_eq, Word.ofNat, BitVec.toNat_ofNat]
  have e : 2 ^ 32 = 2 ^ lo * (2 ^ len * 2 ^ (32 - lo - len)) := by rw [← pow_add, ← pow_add]; congr 1; omega
  rw [e, Nat.mod_mul_right_div_self, Nat.mod_mul_right_mod]

end Sys2Proof
end

