-- ==== Sys2Proof/Laws/Tab.lean ====
section
/-! SUPPORT. What a table reads after a write, and that every operation on a table keeps its canonical form. -/

namespace Sys2Proof.Machine

variable {α : Type}

theorem Tab.get_put_same (d : Nat → α) (t : Tab α) (k : Nat) (v : α) : Tab.get d (Tab.put k v t) k = v := by
  induction t with
  | nil => simp [Tab.put, Tab.get]
  | cons x r ih =>
    obtain ⟨j, w⟩ := x
    simp only [Tab.put]
    split
    · simp [Tab.get]
    · split
      · simp [Tab.get]
      · rename_i h1 h2; simp [Tab.get, h2, ih]

theorem Tab.get_put_ne (d : Nat → α) (t : Tab α) {k j : Nat} (v : α) (h : j ≠ k) :
    Tab.get d (Tab.put k v t) j = Tab.get d t j := by
  induction t with
  | nil => simp [Tab.put, Tab.get, h]
  | cons x r ih =>
    obtain ⟨i, w⟩ := x
    simp only [Tab.put]
    split
    · simp [Tab.get, h]
    · split
      · rename_i h1 h2; subst h2; simp [Tab.get, h]
      · simp only [Tab.get, ih]

theorem Tab.get_del_ne (d : Nat → α) (t : Tab α) {k j : Nat} (h : j ≠ k) : Tab.get d (Tab.del k t) j = Tab.get d t j := by
  induction t with
  | nil => rfl
  | cons x r ih =>
    obtain ⟨i, w⟩ := x
    simp only [Tab.del]
    split
    · rename_i h1; subst h1; simp [Tab.get, h, ih]
    · simp only [Tab.get, ih]

theorem Tab.get_del_same (d : Nat → α) (t : Tab α) (k : Nat) : Tab.get d (Tab.del k t) k = d k := by
  induction t with
  | nil => rfl
  | cons x r ih =>
    obtain ⟨i, w⟩ := x
    simp only [Tab.del]
    split
    · exact ih
    · rename_i h1; simp [Tab.get, h1, ih]

/-- A key reads what was last written to it. -/
@[simp] theorem Tab.get_set_same [DecidableEq α] (d : Nat → α) (t : Tab α) (k : Nat) (v : α) :
    Tab.get d (Tab.set d t k v) k = v := by
  unfold Tab.set; split
  · rename_i h; rw [Tab.get_del_same, h]
  · exact Tab.get_put_same d t k v

/-- A write leaves every other key alone. -/
theorem Tab.get_set_ne [DecidableEq α] (d : Nat → α) (t : Tab α) {k j : Nat} (v : α) (h : j ≠ k) :
    Tab.get d (Tab.set d t k v) j = Tab.get d t j := by
  unfold Tab.set; split
  · exact Tab.get_del_ne d t h
  · exact Tab.get_put_ne d t v h

/-- A read after a write, in one equation. -/
theorem Tab.get_set [DecidableEq α] (d : Nat → α) (t : Tab α) (k j : Nat) (v : α) :
    Tab.get d (Tab.set d t k v) j = if j = k then v else Tab.get d t j := by
  split
  · rename_i h; subst h; simp
  · rename_i h; exact Tab.get_set_ne d t v h

/-! ### The canonical form -/

theorem Tab.above_mono [DecidableEq α] (d : Nat → α) {n m : Nat} (h : m ≤ n) (t : Tab α) (ht : Tab.above d n t = true) :
    Tab.above d m t = true := by
  cases t with
  | nil => rfl
  | cons x r =>
    obtain ⟨j, w⟩ := x
    simp only [Tab.above, Bool.and_eq_true, decide_eq_true_eq] at ht ⊢
    exact ⟨⟨by omega, ht.1.2⟩, ht.2⟩

theorem Tab.above_put [DecidableEq α] (d : Nat → α) {n k : Nat} (v : α) (hn : n < k) (hv : v ≠ d k) (t : Tab α)
    (ht : Tab.above d n t = true) : Tab.above d n (Tab.put k v t) = true := by
  induction t generalizing n with
  | nil => simp [Tab.put, Tab.above, hn, hv]
  | cons x r ih =>
    obtain ⟨j, w⟩ := x
    simp only [Tab.above, Bool.and_eq_true, decide_eq_true_eq] at ht
    simp only [Tab.put]
    split
    · rename_i h; simp [Tab.above, hn, hv, h, ht.1.2, ht.2]
    · split
      · rename_i h1 h2; subst h2; simp [Tab.above, hn, hv, ht.2]
      · rename_i h1 h2
        simp only [Tab.above, Bool.and_eq_true, decide_eq_true_eq]
        exact ⟨ht.1, ih (by omega) ht.2⟩

theorem Tab.above_del [DecidableEq α] (d : Nat → α) {n : Nat} (k : Nat) (t : Tab α) (ht : Tab.above d n t = true) :
    Tab.above d n (Tab.del k t) = true := by
  induction t generalizing n with
  | nil => rfl
  | cons x r ih =>
    obtain ⟨j, w⟩ := x
    simp only [Tab.above, Bool.and_eq_true, decide_eq_true_eq] at ht
    simp only [Tab.del]
    split
    · exact ih (Tab.above_mono d (by omega) r ht.2)
    · simp only [Tab.above, Bool.and_eq_true, decide_eq_true_eq]; exact ⟨ht.1, ih ht.2⟩

theorem Tab.wf_of_above [DecidableEq α] (d : Nat → α) {n : Nat} (t : Tab α) (ht : Tab.above d n t = true) : Tab.wf d t = true := by
  cases t with
  | nil => rfl
  | cons x r =>
    obtain ⟨j, w⟩ := x
    simp only [Tab.above, Tab.wf, Bool.and_eq_true, decide_eq_true_eq] at ht ⊢
    exact ⟨ht.1.2, ht.2⟩

theorem Tab.wf_put [DecidableEq α] (d : Nat → α) (k : Nat) (v : α) (hv : v ≠ d k) (t : Tab α) (ht : Tab.wf d t = true) :
    Tab.wf d (Tab.put k v t) = true := by
  cases t with
  | nil => simp [Tab.put, Tab.wf, Tab.above, hv]
  | cons x r =>
    obtain ⟨j, w⟩ := x
    simp only [Tab.wf, Bool.and_eq_true, decide_eq_true_eq] at ht
    simp only [Tab.put]
    split
    · rename_i h; simp [Tab.wf, Tab.above, hv, h, ht.1, ht.2]
    · split
      · rename_i h1 h2; subst h2; simp [Tab.wf, hv, ht.2]
      · rename_i h1 h2
        simp only [Tab.wf, Bool.and_eq_true, decide_eq_true_eq]
        exact ⟨ht.1, Tab.above_put d v (by omega) hv r ht.2⟩

theorem Tab.wf_del [DecidableEq α] (d : Nat → α) (k : Nat) (t : Tab α) (ht : Tab.wf d t = true) : Tab.wf d (Tab.del k t) = true := by
  cases t with
  | nil => rfl
  | cons x r =>
    obtain ⟨j, w⟩ := x
    simp only [Tab.wf, Bool.and_eq_true, decide_eq_true_eq] at ht
    simp only [Tab.del]
    split
    · exact Tab.wf_of_above d _ (Tab.above_del d k r ht.2)
    · simp only [Tab.wf, Bool.and_eq_true, decide_eq_true_eq]; exact ⟨ht.1, Tab.above_del d k r ht.2⟩

/-- A write keeps the canonical form. -/
theorem Tab.wf_set [DecidableEq α] (d : Nat → α) (t : Tab α) (k : Nat) (v : α) (ht : Tab.wf d t = true) :
    Tab.wf d (Tab.set d t k v) = true := by
  unfold Tab.set; split
  · exact Tab.wf_del d k t ht
  · rename_i h; exact Tab.wf_put d k v h t ht

theorem Tab.above_filter [DecidableEq α] (d : Nat → α) {n : Nat} (p : Nat × α → Bool) (t : Tab α) (ht : Tab.above d n t = true) :
    Tab.above d n (t.filter p) = true := by
  induction t generalizing n with
  | nil => rfl
  | cons x r ih =>
    obtain ⟨j, w⟩ := x
    simp only [Tab.above, Bool.and_eq_true, decide_eq_true_eq] at ht
    simp only [List.filter_cons]
    split
    · simp only [Tab.above, Bool.and_eq_true, decide_eq_true_eq]; exact ⟨ht.1, ih ht.2⟩
    · exact ih (Tab.above_mono d (by omega) r ht.2)

/-- Dropping entries keeps the canonical form. -/
theorem Tab.wf_filter [DecidableEq α] (d : Nat → α) (p : Nat × α → Bool) (t : Tab α) (ht : Tab.wf d t = true) :
    Tab.wf d (t.filter p) = true := by
  cases t with
  | nil => rfl
  | cons x r =>
    obtain ⟨j, w⟩ := x
    simp only [Tab.wf, Bool.and_eq_true, decide_eq_true_eq] at ht
    simp only [List.filter_cons]
    split
    · simp only [Tab.wf, Bool.and_eq_true, decide_eq_true_eq]; exact ⟨ht.1, Tab.above_filter d p r ht.2⟩
    · exact Tab.wf_of_above d _ (Tab.above_filter d p r ht.2)

/-- A key above which the table starts reads its default. -/
theorem Tab.get_of_above [DecidableEq α] (d : Nat → α) {n k : Nat} (t : Tab α) (ht : Tab.above d n t = true) (hk : k ≤ n) :
    Tab.get d t k = d k := by
  induction t generalizing n with
  | nil => rfl
  | cons x r ih =>
    obtain ⟨j, w⟩ := x
    simp only [Tab.above, Bool.and_eq_true, decide_eq_true_eq] at ht
    have : k ≠ j := by omega
    simp only [Tab.get, this, if_false]
    exact ih ht.2 (by omega)

theorem Tab.ext_above [DecidableEq α] (d : Nat → α) {n : Nat} (t u : Tab α) (ht : Tab.above d n t = true)
    (hu : Tab.above d n u = true) (h : ∀ k, Tab.get d t k = Tab.get d u k) : t = u := by
  induction t generalizing n u with
  | nil =>
    cases u with
    | nil => rfl
    | cons y v =>
      obtain ⟨j, w⟩ := y
      simp only [Tab.above, Bool.and_eq_true, decide_eq_true_eq] at hu
      have := h j; simp [Tab.get] at this; exact absurd this.symm hu.1.2
  | cons x r ih =>
    obtain ⟨i, a⟩ := x
    simp only [Tab.above, Bool.and_eq_true, decide_eq_true_eq] at ht
    cases u with
    | nil => have := h i; simp [Tab.get] at this; exact absurd this ht.1.2
    | cons y v =>
      obtain ⟨j, w⟩ := y
      simp only [Tab.above, Bool.and_eq_true, decide_eq_true_eq] at hu
      have hij : i = j := by
        rcases Nat.lt_trichotomy i j with hlt | heq | hgt
        · have := h i
          simp only [Tab.get, if_true, Nat.ne_of_lt hlt, if_false] at this
          rw [Tab.get_of_above d v hu.2 (by omega)] at this
          exact absurd this ht.1.2
        · exact heq
        · have := h j
          simp only [Tab.get, if_true, Nat.ne_of_lt hgt, if_false] at this
          rw [Tab.get_of_above d r ht.2 (by omega)] at this
          exact absurd this.symm hu.1.2
      subst hij
      have hv := h i
      simp only [Tab.get, if_true] at hv
      subst hv
      congr 1
      refine ih v ht.2 hu.2 fun k => ?_
      by_cases hk : k = i
      · subst hk; rw [Tab.get_of_above d r ht.2 (by omega), Tab.get_of_above d v hu.2 (by omega)]
      · have := h k; simpa [Tab.get, hk] using this

/-- Reading a table filtered by its keys. -/
theorem Tab.get_filter (d : Nat → α) (p : Nat → Bool) (t : Tab α) (k : Nat) :
    Tab.get d (t.filter fun x => p x.1) k = if p k then Tab.get d t k else d k := by
  induction t with
  | nil => simp [Tab.get]
  | cons x r ih =>
    obtain ⟨j, v⟩ := x
    simp only [List.filter_cons]
    by_cases h : p j
    · simp only [h, if_true, Tab.get]
      by_cases e : k = j
      · subst e; simp [h]
      · simp [e, ih]
    · simp only [h, Tab.get]
      by_cases e : k = j
      · subst e; simp [h, ih]
      · simp [e, ih]

end Sys2Proof.Machine
end

