-- ==== Sys2Proof/Laws/State.lean ====
section
/-! SUPPORT. One lemma per field of the unit and named update of it: an update changes the field it names and no other. Then
what each update's own read gives. -/

namespace Sys2Proof.Machine

/-! ### setReg: only `regs` -/

@[simp] theorem Dev.setReg_out (s : Dev) (off : Nat) (v : Word) : (s.setReg off v).out = s.out := rfl
@[simp] theorem Dev.setReg_draws (s : Dev) (off : Nat) (v : Word) : (s.setReg off v).draws = s.draws := rfl
@[simp] theorem Dev.setReg_shop (s : Dev) (off : Nat) (v : Word) : (s.setReg off v).shop = s.shop := rfl
@[simp] theorem Dev.setReg_staged (s : Dev) (off : Nat) (v : Word) : (s.setReg off v).staged = s.staged := rfl
@[simp] theorem Dev.setReg_lost (s : Dev) (off : Nat) (v : Word) : (s.setReg off v).lost = s.lost := rfl
@[simp] theorem Dev.setReg_ctxs (s : Dev) (off : Nat) (v : Word) : (s.setReg off v).ctxs = s.ctxs := rfl
@[simp] theorem Dev.setReg_hif (s : Dev) (off : Nat) (v : Word) : (s.setReg off v).hif = s.hif := rfl
@[simp] theorem Dev.setReg_bpm (s : Dev) (off : Nat) (v : Word) : (s.setReg off v).bpm = s.bpm := rfl
@[simp] theorem Dev.setReg_dram (s : Dev) (off : Nat) (v : Word) : (s.setReg off v).dram = s.dram := rfl
@[simp] theorem Dev.setReg_marks (s : Dev) (off : Nat) (v : Word) : (s.setReg off v).marks = s.marks := rfl
@[simp] theorem Dev.setReg_ras (s : Dev) (off : Nat) (v : Word) : (s.setReg off v).ras = s.ras := rfl
@[simp] theorem Dev.setReg_as (s : Dev) (off : Nat) (v : Word) : (s.setReg off v).as = s.as := rfl
@[simp] theorem Dev.setReg_asMarks (s : Dev) (off : Nat) (v : Word) : (s.setReg off v).asMarks = s.asMarks := rfl
@[simp] theorem Dev.setReg_boot (s : Dev) (off : Nat) (v : Word) : (s.setReg off v).boot = s.boot := rfl
@[simp] theorem Dev.setReg_chain (s : Dev) (off : Nat) (v : Word) : (s.setReg off v).chain = s.chain := rfl
@[simp] theorem Dev.setReg_glk0 (s : Dev) (off : Nat) (v : Word) : (s.setReg off v).glk0 = s.glk0 := rfl
@[simp] theorem Dev.setReg_glk1 (s : Dev) (off : Nat) (v : Word) : (s.setReg off v).glk1 = s.glk1 := rfl
@[simp] theorem Dev.setReg_sec (s : Dev) (off : Nat) (v : Word) : (s.setReg off v).sec = s.sec := rfl
@[simp] theorem Dev.setReg_vent (s : Dev) (off : Nat) (v : Word) : (s.setReg off v).vent = s.vent := rfl
@[simp] theorem Dev.setReg_pwr (s : Dev) (off : Nat) (v : Word) : (s.setReg off v).pwr = s.pwr := rfl
@[simp] theorem Dev.setReg_mctp (s : Dev) (off : Nat) (v : Word) : (s.setReg off v).mctp = s.mctp := rfl
@[simp] theorem Dev.setReg_mgmt (s : Dev) (off : Nat) (v : Word) : (s.setReg off v).mgmt = s.mgmt := rfl
@[simp] theorem Dev.setReg_slots (s : Dev) (off : Nat) (v : Word) : (s.setReg off v).slots = s.slots := rfl
@[simp] theorem Dev.setReg_tim (s : Dev) (off : Nat) (v : Word) : (s.setReg off v).tim = s.tim := rfl
@[simp] theorem Dev.setReg_eng (s : Dev) (off : Nat) (v : Word) : (s.setReg off v).eng = s.eng := rfl

/-! ### setRf: only `regs` -/

@[simp] theorem Dev.setRf_out (s : Dev) (off lo len v : Nat) : (s.setRf off lo len v).out = s.out := rfl
@[simp] theorem Dev.setRf_draws (s : Dev) (off lo len v : Nat) : (s.setRf off lo len v).draws = s.draws := rfl
@[simp] theorem Dev.setRf_shop (s : Dev) (off lo len v : Nat) : (s.setRf off lo len v).shop = s.shop := rfl
@[simp] theorem Dev.setRf_staged (s : Dev) (off lo len v : Nat) : (s.setRf off lo len v).staged = s.staged := rfl
@[simp] theorem Dev.setRf_lost (s : Dev) (off lo len v : Nat) : (s.setRf off lo len v).lost = s.lost := rfl
@[simp] theorem Dev.setRf_ctxs (s : Dev) (off lo len v : Nat) : (s.setRf off lo len v).ctxs = s.ctxs := rfl
@[simp] theorem Dev.setRf_hif (s : Dev) (off lo len v : Nat) : (s.setRf off lo len v).hif = s.hif := rfl
@[simp] theorem Dev.setRf_bpm (s : Dev) (off lo len v : Nat) : (s.setRf off lo len v).bpm = s.bpm := rfl
@[simp] theorem Dev.setRf_dram (s : Dev) (off lo len v : Nat) : (s.setRf off lo len v).dram = s.dram := rfl
@[simp] theorem Dev.setRf_marks (s : Dev) (off lo len v : Nat) : (s.setRf off lo len v).marks = s.marks := rfl
@[simp] theorem Dev.setRf_ras (s : Dev) (off lo len v : Nat) : (s.setRf off lo len v).ras = s.ras := rfl
@[simp] theorem Dev.setRf_as (s : Dev) (off lo len v : Nat) : (s.setRf off lo len v).as = s.as := rfl
@[simp] theorem Dev.setRf_asMarks (s : Dev) (off lo len v : Nat) : (s.setRf off lo len v).asMarks = s.asMarks := rfl
@[simp] theorem Dev.setRf_boot (s : Dev) (off lo len v : Nat) : (s.setRf off lo len v).boot = s.boot := rfl
@[simp] theorem Dev.setRf_chain (s : Dev) (off lo len v : Nat) : (s.setRf off lo len v).chain = s.chain := rfl
@[simp] theorem Dev.setRf_glk0 (s : Dev) (off lo len v : Nat) : (s.setRf off lo len v).glk0 = s.glk0 := rfl
@[simp] theorem Dev.setRf_glk1 (s : Dev) (off lo len v : Nat) : (s.setRf off lo len v).glk1 = s.glk1 := rfl
@[simp] theorem Dev.setRf_sec (s : Dev) (off lo len v : Nat) : (s.setRf off lo len v).sec = s.sec := rfl
@[simp] theorem Dev.setRf_vent (s : Dev) (off lo len v : Nat) : (s.setRf off lo len v).vent = s.vent := rfl
@[simp] theorem Dev.setRf_pwr (s : Dev) (off lo len v : Nat) : (s.setRf off lo len v).pwr = s.pwr := rfl
@[simp] theorem Dev.setRf_mctp (s : Dev) (off lo len v : Nat) : (s.setRf off lo len v).mctp = s.mctp := rfl
@[simp] theorem Dev.setRf_mgmt (s : Dev) (off lo len v : Nat) : (s.setRf off lo len v).mgmt = s.mgmt := rfl
@[simp] theorem Dev.setRf_slots (s : Dev) (off lo len v : Nat) : (s.setRf off lo len v).slots = s.slots := rfl
@[simp] theorem Dev.setRf_tim (s : Dev) (off lo len v : Nat) : (s.setRf off lo len v).tim = s.tim := rfl
@[simp] theorem Dev.setRf_eng (s : Dev) (off lo len v : Nat) : (s.setRf off lo len v).eng = s.eng := rfl

/-! ### setRb: only `regs` -/

@[simp] theorem Dev.setRb_out (s : Dev) (off i : Nat) (b : Bool) : (s.setRb off i b).out = s.out := rfl
@[simp] theorem Dev.setRb_draws (s : Dev) (off i : Nat) (b : Bool) : (s.setRb off i b).draws = s.draws := rfl
@[simp] theorem Dev.setRb_shop (s : Dev) (off i : Nat) (b : Bool) : (s.setRb off i b).shop = s.shop := rfl
@[simp] theorem Dev.setRb_staged (s : Dev) (off i : Nat) (b : Bool) : (s.setRb off i b).staged = s.staged := rfl
@[simp] theorem Dev.setRb_lost (s : Dev) (off i : Nat) (b : Bool) : (s.setRb off i b).lost = s.lost := rfl
@[simp] theorem Dev.setRb_ctxs (s : Dev) (off i : Nat) (b : Bool) : (s.setRb off i b).ctxs = s.ctxs := rfl
@[simp] theorem Dev.setRb_hif (s : Dev) (off i : Nat) (b : Bool) : (s.setRb off i b).hif = s.hif := rfl
@[simp] theorem Dev.setRb_bpm (s : Dev) (off i : Nat) (b : Bool) : (s.setRb off i b).bpm = s.bpm := rfl
@[simp] theorem Dev.setRb_dram (s : Dev) (off i : Nat) (b : Bool) : (s.setRb off i b).dram = s.dram := rfl
@[simp] theorem Dev.setRb_marks (s : Dev) (off i : Nat) (b : Bool) : (s.setRb off i b).marks = s.marks := rfl
@[simp] theorem Dev.setRb_ras (s : Dev) (off i : Nat) (b : Bool) : (s.setRb off i b).ras = s.ras := rfl
@[simp] theorem Dev.setRb_as (s : Dev) (off i : Nat) (b : Bool) : (s.setRb off i b).as = s.as := rfl
@[simp] theorem Dev.setRb_asMarks (s : Dev) (off i : Nat) (b : Bool) : (s.setRb off i b).asMarks = s.asMarks := rfl
@[simp] theorem Dev.setRb_boot (s : Dev) (off i : Nat) (b : Bool) : (s.setRb off i b).boot = s.boot := rfl
@[simp] theorem Dev.setRb_chain (s : Dev) (off i : Nat) (b : Bool) : (s.setRb off i b).chain = s.chain := rfl
@[simp] theorem Dev.setRb_glk0 (s : Dev) (off i : Nat) (b : Bool) : (s.setRb off i b).glk0 = s.glk0 := rfl
@[simp] theorem Dev.setRb_glk1 (s : Dev) (off i : Nat) (b : Bool) : (s.setRb off i b).glk1 = s.glk1 := rfl
@[simp] theorem Dev.setRb_sec (s : Dev) (off i : Nat) (b : Bool) : (s.setRb off i b).sec = s.sec := rfl
@[simp] theorem Dev.setRb_vent (s : Dev) (off i : Nat) (b : Bool) : (s.setRb off i b).vent = s.vent := rfl
@[simp] theorem Dev.setRb_pwr (s : Dev) (off i : Nat) (b : Bool) : (s.setRb off i b).pwr = s.pwr := rfl
@[simp] theorem Dev.setRb_mctp (s : Dev) (off i : Nat) (b : Bool) : (s.setRb off i b).mctp = s.mctp := rfl
@[simp] theorem Dev.setRb_mgmt (s : Dev) (off i : Nat) (b : Bool) : (s.setRb off i b).mgmt = s.mgmt := rfl
@[simp] theorem Dev.setRb_slots (s : Dev) (off i : Nat) (b : Bool) : (s.setRb off i b).slots = s.slots := rfl
@[simp] theorem Dev.setRb_tim (s : Dev) (off i : Nat) (b : Bool) : (s.setRb off i b).tim = s.tim := rfl
@[simp] theorem Dev.setRb_eng (s : Dev) (off i : Nat) (b : Bool) : (s.setRb off i b).eng = s.eng := rfl

/-! ### setRq: only `regs` -/

@[simp] theorem Dev.setRq_out (s : Dev) (lo v : Nat) : (s.setRq lo v).out = s.out := rfl
@[simp] theorem Dev.setRq_draws (s : Dev) (lo v : Nat) : (s.setRq lo v).draws = s.draws := rfl
@[simp] theorem Dev.setRq_shop (s : Dev) (lo v : Nat) : (s.setRq lo v).shop = s.shop := rfl
@[simp] theorem Dev.setRq_staged (s : Dev) (lo v : Nat) : (s.setRq lo v).staged = s.staged := rfl
@[simp] theorem Dev.setRq_lost (s : Dev) (lo v : Nat) : (s.setRq lo v).lost = s.lost := rfl
@[simp] theorem Dev.setRq_ctxs (s : Dev) (lo v : Nat) : (s.setRq lo v).ctxs = s.ctxs := rfl
@[simp] theorem Dev.setRq_hif (s : Dev) (lo v : Nat) : (s.setRq lo v).hif = s.hif := rfl
@[simp] theorem Dev.setRq_bpm (s : Dev) (lo v : Nat) : (s.setRq lo v).bpm = s.bpm := rfl
@[simp] theorem Dev.setRq_dram (s : Dev) (lo v : Nat) : (s.setRq lo v).dram = s.dram := rfl
@[simp] theorem Dev.setRq_marks (s : Dev) (lo v : Nat) : (s.setRq lo v).marks = s.marks := rfl
@[simp] theorem Dev.setRq_ras (s : Dev) (lo v : Nat) : (s.setRq lo v).ras = s.ras := rfl
@[simp] theorem Dev.setRq_as (s : Dev) (lo v : Nat) : (s.setRq lo v).as = s.as := rfl
@[simp] theorem Dev.setRq_asMarks (s : Dev) (lo v : Nat) : (s.setRq lo v).asMarks = s.asMarks := rfl
@[simp] theorem Dev.setRq_boot (s : Dev) (lo v : Nat) : (s.setRq lo v).boot = s.boot := rfl
@[simp] theorem Dev.setRq_chain (s : Dev) (lo v : Nat) : (s.setRq lo v).chain = s.chain := rfl
@[simp] theorem Dev.setRq_glk0 (s : Dev) (lo v : Nat) : (s.setRq lo v).glk0 = s.glk0 := rfl
@[simp] theorem Dev.setRq_glk1 (s : Dev) (lo v : Nat) : (s.setRq lo v).glk1 = s.glk1 := rfl
@[simp] theorem Dev.setRq_sec (s : Dev) (lo v : Nat) : (s.setRq lo v).sec = s.sec := rfl
@[simp] theorem Dev.setRq_vent (s : Dev) (lo v : Nat) : (s.setRq lo v).vent = s.vent := rfl
@[simp] theorem Dev.setRq_pwr (s : Dev) (lo v : Nat) : (s.setRq lo v).pwr = s.pwr := rfl
@[simp] theorem Dev.setRq_mctp (s : Dev) (lo v : Nat) : (s.setRq lo v).mctp = s.mctp := rfl
@[simp] theorem Dev.setRq_mgmt (s : Dev) (lo v : Nat) : (s.setRq lo v).mgmt = s.mgmt := rfl
@[simp] theorem Dev.setRq_slots (s : Dev) (lo v : Nat) : (s.setRq lo v).slots = s.slots := rfl
@[simp] theorem Dev.setRq_tim (s : Dev) (lo v : Nat) : (s.setRq lo v).tim = s.tim := rfl
@[simp] theorem Dev.setRq_eng (s : Dev) (lo v : Nat) : (s.setRq lo v).eng = s.eng := rfl

/-! ### satInc: only `regs` -/

@[simp] theorem Dev.satInc_out (s : Dev) (off d : Nat) : (s.satInc off d).out = s.out := rfl
@[simp] theorem Dev.satInc_draws (s : Dev) (off d : Nat) : (s.satInc off d).draws = s.draws := rfl
@[simp] theorem Dev.satInc_shop (s : Dev) (off d : Nat) : (s.satInc off d).shop = s.shop := rfl
@[simp] theorem Dev.satInc_staged (s : Dev) (off d : Nat) : (s.satInc off d).staged = s.staged := rfl
@[simp] theorem Dev.satInc_lost (s : Dev) (off d : Nat) : (s.satInc off d).lost = s.lost := rfl
@[simp] theorem Dev.satInc_ctxs (s : Dev) (off d : Nat) : (s.satInc off d).ctxs = s.ctxs := rfl
@[simp] theorem Dev.satInc_hif (s : Dev) (off d : Nat) : (s.satInc off d).hif = s.hif := rfl
@[simp] theorem Dev.satInc_bpm (s : Dev) (off d : Nat) : (s.satInc off d).bpm = s.bpm := rfl
@[simp] theorem Dev.satInc_dram (s : Dev) (off d : Nat) : (s.satInc off d).dram = s.dram := rfl
@[simp] theorem Dev.satInc_marks (s : Dev) (off d : Nat) : (s.satInc off d).marks = s.marks := rfl
@[simp] theorem Dev.satInc_ras (s : Dev) (off d : Nat) : (s.satInc off d).ras = s.ras := rfl
@[simp] theorem Dev.satInc_as (s : Dev) (off d : Nat) : (s.satInc off d).as = s.as := rfl
@[simp] theorem Dev.satInc_asMarks (s : Dev) (off d : Nat) : (s.satInc off d).asMarks = s.asMarks := rfl
@[simp] theorem Dev.satInc_boot (s : Dev) (off d : Nat) : (s.satInc off d).boot = s.boot := rfl
@[simp] theorem Dev.satInc_chain (s : Dev) (off d : Nat) : (s.satInc off d).chain = s.chain := rfl
@[simp] theorem Dev.satInc_glk0 (s : Dev) (off d : Nat) : (s.satInc off d).glk0 = s.glk0 := rfl
@[simp] theorem Dev.satInc_glk1 (s : Dev) (off d : Nat) : (s.satInc off d).glk1 = s.glk1 := rfl
@[simp] theorem Dev.satInc_sec (s : Dev) (off d : Nat) : (s.satInc off d).sec = s.sec := rfl
@[simp] theorem Dev.satInc_vent (s : Dev) (off d : Nat) : (s.satInc off d).vent = s.vent := rfl
@[simp] theorem Dev.satInc_pwr (s : Dev) (off d : Nat) : (s.satInc off d).pwr = s.pwr := rfl
@[simp] theorem Dev.satInc_mctp (s : Dev) (off d : Nat) : (s.satInc off d).mctp = s.mctp := rfl
@[simp] theorem Dev.satInc_mgmt (s : Dev) (off d : Nat) : (s.satInc off d).mgmt = s.mgmt := rfl
@[simp] theorem Dev.satInc_slots (s : Dev) (off d : Nat) : (s.satInc off d).slots = s.slots := rfl
@[simp] theorem Dev.satInc_tim (s : Dev) (off d : Nat) : (s.satInc off d).tim = s.tim := rfl
@[simp] theorem Dev.satInc_eng (s : Dev) (off d : Nat) : (s.satInc off d).eng = s.eng := rfl

/-! ### wrapInc: only `regs` -/

@[simp] theorem Dev.wrapInc_out (s : Dev) (off d : Nat) : (s.wrapInc off d).out = s.out := rfl
@[simp] theorem Dev.wrapInc_draws (s : Dev) (off d : Nat) : (s.wrapInc off d).draws = s.draws := rfl
@[simp] theorem Dev.wrapInc_shop (s : Dev) (off d : Nat) : (s.wrapInc off d).shop = s.shop := rfl
@[simp] theorem Dev.wrapInc_staged (s : Dev) (off d : Nat) : (s.wrapInc off d).staged = s.staged := rfl
@[simp] theorem Dev.wrapInc_lost (s : Dev) (off d : Nat) : (s.wrapInc off d).lost = s.lost := rfl
@[simp] theorem Dev.wrapInc_ctxs (s : Dev) (off d : Nat) : (s.wrapInc off d).ctxs = s.ctxs := rfl
@[simp] theorem Dev.wrapInc_hif (s : Dev) (off d : Nat) : (s.wrapInc off d).hif = s.hif := rfl
@[simp] theorem Dev.wrapInc_bpm (s : Dev) (off d : Nat) : (s.wrapInc off d).bpm = s.bpm := rfl
@[simp] theorem Dev.wrapInc_dram (s : Dev) (off d : Nat) : (s.wrapInc off d).dram = s.dram := rfl
@[simp] theorem Dev.wrapInc_marks (s : Dev) (off d : Nat) : (s.wrapInc off d).marks = s.marks := rfl
@[simp] theorem Dev.wrapInc_ras (s : Dev) (off d : Nat) : (s.wrapInc off d).ras = s.ras := rfl
@[simp] theorem Dev.wrapInc_as (s : Dev) (off d : Nat) : (s.wrapInc off d).as = s.as := rfl
@[simp] theorem Dev.wrapInc_asMarks (s : Dev) (off d : Nat) : (s.wrapInc off d).asMarks = s.asMarks := rfl
@[simp] theorem Dev.wrapInc_boot (s : Dev) (off d : Nat) : (s.wrapInc off d).boot = s.boot := rfl
@[simp] theorem Dev.wrapInc_chain (s : Dev) (off d : Nat) : (s.wrapInc off d).chain = s.chain := rfl
@[simp] theorem Dev.wrapInc_glk0 (s : Dev) (off d : Nat) : (s.wrapInc off d).glk0 = s.glk0 := rfl
@[simp] theorem Dev.wrapInc_glk1 (s : Dev) (off d : Nat) : (s.wrapInc off d).glk1 = s.glk1 := rfl
@[simp] theorem Dev.wrapInc_sec (s : Dev) (off d : Nat) : (s.wrapInc off d).sec = s.sec := rfl
@[simp] theorem Dev.wrapInc_vent (s : Dev) (off d : Nat) : (s.wrapInc off d).vent = s.vent := rfl
@[simp] theorem Dev.wrapInc_pwr (s : Dev) (off d : Nat) : (s.wrapInc off d).pwr = s.pwr := rfl
@[simp] theorem Dev.wrapInc_mctp (s : Dev) (off d : Nat) : (s.wrapInc off d).mctp = s.mctp := rfl
@[simp] theorem Dev.wrapInc_mgmt (s : Dev) (off d : Nat) : (s.wrapInc off d).mgmt = s.mgmt := rfl
@[simp] theorem Dev.wrapInc_slots (s : Dev) (off d : Nat) : (s.wrapInc off d).slots = s.slots := rfl
@[simp] theorem Dev.wrapInc_tim (s : Dev) (off d : Nat) : (s.wrapInc off d).tim = s.tim := rfl
@[simp] theorem Dev.wrapInc_eng (s : Dev) (off d : Nat) : (s.wrapInc off d).eng = s.eng := rfl

/-! ### satFld: only `regs` -/

@[simp] theorem Dev.satFld_out (s : Dev) (off lo len d : Nat) : (s.satFld off lo len d).out = s.out := rfl
@[simp] theorem Dev.satFld_draws (s : Dev) (off lo len d : Nat) : (s.satFld off lo len d).draws = s.draws := rfl
@[simp] theorem Dev.satFld_shop (s : Dev) (off lo len d : Nat) : (s.satFld off lo len d).shop = s.shop := rfl
@[simp] theorem Dev.satFld_staged (s : Dev) (off lo len d : Nat) : (s.satFld off lo len d).staged = s.staged := rfl
@[simp] theorem Dev.satFld_lost (s : Dev) (off lo len d : Nat) : (s.satFld off lo len d).lost = s.lost := rfl
@[simp] theorem Dev.satFld_ctxs (s : Dev) (off lo len d : Nat) : (s.satFld off lo len d).ctxs = s.ctxs := rfl
@[simp] theorem Dev.satFld_hif (s : Dev) (off lo len d : Nat) : (s.satFld off lo len d).hif = s.hif := rfl
@[simp] theorem Dev.satFld_bpm (s : Dev) (off lo len d : Nat) : (s.satFld off lo len d).bpm = s.bpm := rfl
@[simp] theorem Dev.satFld_dram (s : Dev) (off lo len d : Nat) : (s.satFld off lo len d).dram = s.dram := rfl
@[simp] theorem Dev.satFld_marks (s : Dev) (off lo len d : Nat) : (s.satFld off lo len d).marks = s.marks := rfl
@[simp] theorem Dev.satFld_ras (s : Dev) (off lo len d : Nat) : (s.satFld off lo len d).ras = s.ras := rfl
@[simp] theorem Dev.satFld_as (s : Dev) (off lo len d : Nat) : (s.satFld off lo len d).as = s.as := rfl
@[simp] theorem Dev.satFld_asMarks (s : Dev) (off lo len d : Nat) : (s.satFld off lo len d).asMarks = s.asMarks := rfl
@[simp] theorem Dev.satFld_boot (s : Dev) (off lo len d : Nat) : (s.satFld off lo len d).boot = s.boot := rfl
@[simp] theorem Dev.satFld_chain (s : Dev) (off lo len d : Nat) : (s.satFld off lo len d).chain = s.chain := rfl
@[simp] theorem Dev.satFld_glk0 (s : Dev) (off lo len d : Nat) : (s.satFld off lo len d).glk0 = s.glk0 := rfl
@[simp] theorem Dev.satFld_glk1 (s : Dev) (off lo len d : Nat) : (s.satFld off lo len d).glk1 = s.glk1 := rfl
@[simp] theorem Dev.satFld_sec (s : Dev) (off lo len d : Nat) : (s.satFld off lo len d).sec = s.sec := rfl
@[simp] theorem Dev.satFld_vent (s : Dev) (off lo len d : Nat) : (s.satFld off lo len d).vent = s.vent := rfl
@[simp] theorem Dev.satFld_pwr (s : Dev) (off lo len d : Nat) : (s.satFld off lo len d).pwr = s.pwr := rfl
@[simp] theorem Dev.satFld_mctp (s : Dev) (off lo len d : Nat) : (s.satFld off lo len d).mctp = s.mctp := rfl
@[simp] theorem Dev.satFld_mgmt (s : Dev) (off lo len d : Nat) : (s.satFld off lo len d).mgmt = s.mgmt := rfl
@[simp] theorem Dev.satFld_slots (s : Dev) (off lo len d : Nat) : (s.satFld off lo len d).slots = s.slots := rfl
@[simp] theorem Dev.satFld_tim (s : Dev) (off lo len d : Nat) : (s.satFld off lo len d).tim = s.tim := rfl
@[simp] theorem Dev.satFld_eng (s : Dev) (off lo len d : Nat) : (s.satFld off lo len d).eng = s.eng := rfl

/-! ### emit: only `out` -/

@[simp] theorem Dev.emit_regs (s : Dev) (o : Out) : (s.emit o).regs = s.regs := rfl
@[simp] theorem Dev.emit_draws (s : Dev) (o : Out) : (s.emit o).draws = s.draws := rfl
@[simp] theorem Dev.emit_shop (s : Dev) (o : Out) : (s.emit o).shop = s.shop := rfl
@[simp] theorem Dev.emit_staged (s : Dev) (o : Out) : (s.emit o).staged = s.staged := rfl
@[simp] theorem Dev.emit_lost (s : Dev) (o : Out) : (s.emit o).lost = s.lost := rfl
@[simp] theorem Dev.emit_ctxs (s : Dev) (o : Out) : (s.emit o).ctxs = s.ctxs := rfl
@[simp] theorem Dev.emit_hif (s : Dev) (o : Out) : (s.emit o).hif = s.hif := rfl
@[simp] theorem Dev.emit_bpm (s : Dev) (o : Out) : (s.emit o).bpm = s.bpm := rfl
@[simp] theorem Dev.emit_dram (s : Dev) (o : Out) : (s.emit o).dram = s.dram := rfl
@[simp] theorem Dev.emit_marks (s : Dev) (o : Out) : (s.emit o).marks = s.marks := rfl
@[simp] theorem Dev.emit_ras (s : Dev) (o : Out) : (s.emit o).ras = s.ras := rfl
@[simp] theorem Dev.emit_as (s : Dev) (o : Out) : (s.emit o).as = s.as := rfl
@[simp] theorem Dev.emit_asMarks (s : Dev) (o : Out) : (s.emit o).asMarks = s.asMarks := rfl
@[simp] theorem Dev.emit_boot (s : Dev) (o : Out) : (s.emit o).boot = s.boot := rfl
@[simp] theorem Dev.emit_chain (s : Dev) (o : Out) : (s.emit o).chain = s.chain := rfl
@[simp] theorem Dev.emit_glk0 (s : Dev) (o : Out) : (s.emit o).glk0 = s.glk0 := rfl
@[simp] theorem Dev.emit_glk1 (s : Dev) (o : Out) : (s.emit o).glk1 = s.glk1 := rfl
@[simp] theorem Dev.emit_sec (s : Dev) (o : Out) : (s.emit o).sec = s.sec := rfl
@[simp] theorem Dev.emit_vent (s : Dev) (o : Out) : (s.emit o).vent = s.vent := rfl
@[simp] theorem Dev.emit_pwr (s : Dev) (o : Out) : (s.emit o).pwr = s.pwr := rfl
@[simp] theorem Dev.emit_mctp (s : Dev) (o : Out) : (s.emit o).mctp = s.mctp := rfl
@[simp] theorem Dev.emit_mgmt (s : Dev) (o : Out) : (s.emit o).mgmt = s.mgmt := rfl
@[simp] theorem Dev.emit_slots (s : Dev) (o : Out) : (s.emit o).slots = s.slots := rfl
@[simp] theorem Dev.emit_tim (s : Dev) (o : Out) : (s.emit o).tim = s.tim := rfl
@[simp] theorem Dev.emit_eng (s : Dev) (o : Out) : (s.emit o).eng = s.eng := rfl

/-! ### setCfg: only `hif` -/

@[simp] theorem Dev.setCfg_regs (s : Dev) (fn d : Nat) (v : Word) : (s.setCfg fn d v).regs = s.regs := rfl
@[simp] theorem Dev.setCfg_out (s : Dev) (fn d : Nat) (v : Word) : (s.setCfg fn d v).out = s.out := rfl
@[simp] theorem Dev.setCfg_draws (s : Dev) (fn d : Nat) (v : Word) : (s.setCfg fn d v).draws = s.draws := rfl
@[simp] theorem Dev.setCfg_shop (s : Dev) (fn d : Nat) (v : Word) : (s.setCfg fn d v).shop = s.shop := rfl
@[simp] theorem Dev.setCfg_staged (s : Dev) (fn d : Nat) (v : Word) : (s.setCfg fn d v).staged = s.staged := rfl
@[simp] theorem Dev.setCfg_lost (s : Dev) (fn d : Nat) (v : Word) : (s.setCfg fn d v).lost = s.lost := rfl
@[simp] theorem Dev.setCfg_ctxs (s : Dev) (fn d : Nat) (v : Word) : (s.setCfg fn d v).ctxs = s.ctxs := rfl
@[simp] theorem Dev.setCfg_bpm (s : Dev) (fn d : Nat) (v : Word) : (s.setCfg fn d v).bpm = s.bpm := rfl
@[simp] theorem Dev.setCfg_dram (s : Dev) (fn d : Nat) (v : Word) : (s.setCfg fn d v).dram = s.dram := rfl
@[simp] theorem Dev.setCfg_marks (s : Dev) (fn d : Nat) (v : Word) : (s.setCfg fn d v).marks = s.marks := rfl
@[simp] theorem Dev.setCfg_ras (s : Dev) (fn d : Nat) (v : Word) : (s.setCfg fn d v).ras = s.ras := rfl
@[simp] theorem Dev.setCfg_as (s : Dev) (fn d : Nat) (v : Word) : (s.setCfg fn d v).as = s.as := rfl
@[simp] theorem Dev.setCfg_asMarks (s : Dev) (fn d : Nat) (v : Word) : (s.setCfg fn d v).asMarks = s.asMarks := rfl
@[simp] theorem Dev.setCfg_boot (s : Dev) (fn d : Nat) (v : Word) : (s.setCfg fn d v).boot = s.boot := rfl
@[simp] theorem Dev.setCfg_chain (s : Dev) (fn d : Nat) (v : Word) : (s.setCfg fn d v).chain = s.chain := rfl
@[simp] theorem Dev.setCfg_glk0 (s : Dev) (fn d : Nat) (v : Word) : (s.setCfg fn d v).glk0 = s.glk0 := rfl
@[simp] theorem Dev.setCfg_glk1 (s : Dev) (fn d : Nat) (v : Word) : (s.setCfg fn d v).glk1 = s.glk1 := rfl
@[simp] theorem Dev.setCfg_sec (s : Dev) (fn d : Nat) (v : Word) : (s.setCfg fn d v).sec = s.sec := rfl
@[simp] theorem Dev.setCfg_vent (s : Dev) (fn d : Nat) (v : Word) : (s.setCfg fn d v).vent = s.vent := rfl
@[simp] theorem Dev.setCfg_pwr (s : Dev) (fn d : Nat) (v : Word) : (s.setCfg fn d v).pwr = s.pwr := rfl
@[simp] theorem Dev.setCfg_mctp (s : Dev) (fn d : Nat) (v : Word) : (s.setCfg fn d v).mctp = s.mctp := rfl
@[simp] theorem Dev.setCfg_mgmt (s : Dev) (fn d : Nat) (v : Word) : (s.setCfg fn d v).mgmt = s.mgmt := rfl
@[simp] theorem Dev.setCfg_slots (s : Dev) (fn d : Nat) (v : Word) : (s.setCfg fn d v).slots = s.slots := rfl
@[simp] theorem Dev.setCfg_tim (s : Dev) (fn d : Nat) (v : Word) : (s.setCfg fn d v).tim = s.tim := rfl
@[simp] theorem Dev.setCfg_eng (s : Dev) (fn d : Nat) (v : Word) : (s.setCfg fn d v).eng = s.eng := rfl

/-! ### putBytes: only `dram` -/

@[simp] theorem Dev.putBytes_regs (s : Dev) (a : Nat) (bs : List Byte) : (s.putBytes a bs).regs = s.regs := rfl
@[simp] theorem Dev.putBytes_out (s : Dev) (a : Nat) (bs : List Byte) : (s.putBytes a bs).out = s.out := rfl
@[simp] theorem Dev.putBytes_draws (s : Dev) (a : Nat) (bs : List Byte) : (s.putBytes a bs).draws = s.draws := rfl
@[simp] theorem Dev.putBytes_shop (s : Dev) (a : Nat) (bs : List Byte) : (s.putBytes a bs).shop = s.shop := rfl
@[simp] theorem Dev.putBytes_staged (s : Dev) (a : Nat) (bs : List Byte) : (s.putBytes a bs).staged = s.staged := rfl
@[simp] theorem Dev.putBytes_lost (s : Dev) (a : Nat) (bs : List Byte) : (s.putBytes a bs).lost = s.lost := rfl
@[simp] theorem Dev.putBytes_ctxs (s : Dev) (a : Nat) (bs : List Byte) : (s.putBytes a bs).ctxs = s.ctxs := rfl
@[simp] theorem Dev.putBytes_hif (s : Dev) (a : Nat) (bs : List Byte) : (s.putBytes a bs).hif = s.hif := rfl
@[simp] theorem Dev.putBytes_bpm (s : Dev) (a : Nat) (bs : List Byte) : (s.putBytes a bs).bpm = s.bpm := rfl
@[simp] theorem Dev.putBytes_marks (s : Dev) (a : Nat) (bs : List Byte) : (s.putBytes a bs).marks = s.marks := rfl
@[simp] theorem Dev.putBytes_ras (s : Dev) (a : Nat) (bs : List Byte) : (s.putBytes a bs).ras = s.ras := rfl
@[simp] theorem Dev.putBytes_as (s : Dev) (a : Nat) (bs : List Byte) : (s.putBytes a bs).as = s.as := rfl
@[simp] theorem Dev.putBytes_asMarks (s : Dev) (a : Nat) (bs : List Byte) : (s.putBytes a bs).asMarks = s.asMarks := rfl
@[simp] theorem Dev.putBytes_boot (s : Dev) (a : Nat) (bs : List Byte) : (s.putBytes a bs).boot = s.boot := rfl
@[simp] theorem Dev.putBytes_chain (s : Dev) (a : Nat) (bs : List Byte) : (s.putBytes a bs).chain = s.chain := rfl
@[simp] theorem Dev.putBytes_glk0 (s : Dev) (a : Nat) (bs : List Byte) : (s.putBytes a bs).glk0 = s.glk0 := rfl
@[simp] theorem Dev.putBytes_glk1 (s : Dev) (a : Nat) (bs : List Byte) : (s.putBytes a bs).glk1 = s.glk1 := rfl
@[simp] theorem Dev.putBytes_sec (s : Dev) (a : Nat) (bs : List Byte) : (s.putBytes a bs).sec = s.sec := rfl
@[simp] theorem Dev.putBytes_vent (s : Dev) (a : Nat) (bs : List Byte) : (s.putBytes a bs).vent = s.vent := rfl
@[simp] theorem Dev.putBytes_pwr (s : Dev) (a : Nat) (bs : List Byte) : (s.putBytes a bs).pwr = s.pwr := rfl
@[simp] theorem Dev.putBytes_mctp (s : Dev) (a : Nat) (bs : List Byte) : (s.putBytes a bs).mctp = s.mctp := rfl
@[simp] theorem Dev.putBytes_mgmt (s : Dev) (a : Nat) (bs : List Byte) : (s.putBytes a bs).mgmt = s.mgmt := rfl
@[simp] theorem Dev.putBytes_slots (s : Dev) (a : Nat) (bs : List Byte) : (s.putBytes a bs).slots = s.slots := rfl
@[simp] theorem Dev.putBytes_tim (s : Dev) (a : Nat) (bs : List Byte) : (s.putBytes a bs).tim = s.tim := rfl
@[simp] theorem Dev.putBytes_eng (s : Dev) (a : Nat) (bs : List Byte) : (s.putBytes a bs).eng = s.eng := rfl

/-! ### setMark: only `marks` -/

@[simp] theorem Dev.setMark_regs (s : Dev) (i : Nat) (m : SecMark) : (s.setMark i m).regs = s.regs := rfl
@[simp] theorem Dev.setMark_out (s : Dev) (i : Nat) (m : SecMark) : (s.setMark i m).out = s.out := rfl
@[simp] theorem Dev.setMark_draws (s : Dev) (i : Nat) (m : SecMark) : (s.setMark i m).draws = s.draws := rfl
@[simp] theorem Dev.setMark_shop (s : Dev) (i : Nat) (m : SecMark) : (s.setMark i m).shop = s.shop := rfl
@[simp] theorem Dev.setMark_staged (s : Dev) (i : Nat) (m : SecMark) : (s.setMark i m).staged = s.staged := rfl
@[simp] theorem Dev.setMark_lost (s : Dev) (i : Nat) (m : SecMark) : (s.setMark i m).lost = s.lost := rfl
@[simp] theorem Dev.setMark_ctxs (s : Dev) (i : Nat) (m : SecMark) : (s.setMark i m).ctxs = s.ctxs := rfl
@[simp] theorem Dev.setMark_hif (s : Dev) (i : Nat) (m : SecMark) : (s.setMark i m).hif = s.hif := rfl
@[simp] theorem Dev.setMark_bpm (s : Dev) (i : Nat) (m : SecMark) : (s.setMark i m).bpm = s.bpm := rfl
@[simp] theorem Dev.setMark_dram (s : Dev) (i : Nat) (m : SecMark) : (s.setMark i m).dram = s.dram := rfl
@[simp] theorem Dev.setMark_ras (s : Dev) (i : Nat) (m : SecMark) : (s.setMark i m).ras = s.ras := rfl
@[simp] theorem Dev.setMark_as (s : Dev) (i : Nat) (m : SecMark) : (s.setMark i m).as = s.as := rfl
@[simp] theorem Dev.setMark_asMarks (s : Dev) (i : Nat) (m : SecMark) : (s.setMark i m).asMarks = s.asMarks := rfl
@[simp] theorem Dev.setMark_boot (s : Dev) (i : Nat) (m : SecMark) : (s.setMark i m).boot = s.boot := rfl
@[simp] theorem Dev.setMark_chain (s : Dev) (i : Nat) (m : SecMark) : (s.setMark i m).chain = s.chain := rfl
@[simp] theorem Dev.setMark_glk0 (s : Dev) (i : Nat) (m : SecMark) : (s.setMark i m).glk0 = s.glk0 := rfl
@[simp] theorem Dev.setMark_glk1 (s : Dev) (i : Nat) (m : SecMark) : (s.setMark i m).glk1 = s.glk1 := rfl
@[simp] theorem Dev.setMark_sec (s : Dev) (i : Nat) (m : SecMark) : (s.setMark i m).sec = s.sec := rfl
@[simp] theorem Dev.setMark_vent (s : Dev) (i : Nat) (m : SecMark) : (s.setMark i m).vent = s.vent := rfl
@[simp] theorem Dev.setMark_pwr (s : Dev) (i : Nat) (m : SecMark) : (s.setMark i m).pwr = s.pwr := rfl
@[simp] theorem Dev.setMark_mctp (s : Dev) (i : Nat) (m : SecMark) : (s.setMark i m).mctp = s.mctp := rfl
@[simp] theorem Dev.setMark_mgmt (s : Dev) (i : Nat) (m : SecMark) : (s.setMark i m).mgmt = s.mgmt := rfl
@[simp] theorem Dev.setMark_slots (s : Dev) (i : Nat) (m : SecMark) : (s.setMark i m).slots = s.slots := rfl
@[simp] theorem Dev.setMark_tim (s : Dev) (i : Nat) (m : SecMark) : (s.setMark i m).tim = s.tim := rfl
@[simp] theorem Dev.setMark_eng (s : Dev) (i : Nat) (m : SecMark) : (s.setMark i m).eng = s.eng := rfl

/-! ### asPutBytes: only `as` -/

@[simp] theorem Dev.asPutBytes_regs (s : Dev) (k o : Nat) (bs : List Byte) : (s.asPutBytes k o bs).regs = s.regs := rfl
@[simp] theorem Dev.asPutBytes_out (s : Dev) (k o : Nat) (bs : List Byte) : (s.asPutBytes k o bs).out = s.out := rfl
@[simp] theorem Dev.asPutBytes_draws (s : Dev) (k o : Nat) (bs : List Byte) : (s.asPutBytes k o bs).draws = s.draws := rfl
@[simp] theorem Dev.asPutBytes_shop (s : Dev) (k o : Nat) (bs : List Byte) : (s.asPutBytes k o bs).shop = s.shop := rfl
@[simp] theorem Dev.asPutBytes_staged (s : Dev) (k o : Nat) (bs : List Byte) : (s.asPutBytes k o bs).staged = s.staged := rfl
@[simp] theorem Dev.asPutBytes_lost (s : Dev) (k o : Nat) (bs : List Byte) : (s.asPutBytes k o bs).lost = s.lost := rfl
@[simp] theorem Dev.asPutBytes_ctxs (s : Dev) (k o : Nat) (bs : List Byte) : (s.asPutBytes k o bs).ctxs = s.ctxs := rfl
@[simp] theorem Dev.asPutBytes_hif (s : Dev) (k o : Nat) (bs : List Byte) : (s.asPutBytes k o bs).hif = s.hif := rfl
@[simp] theorem Dev.asPutBytes_bpm (s : Dev) (k o : Nat) (bs : List Byte) : (s.asPutBytes k o bs).bpm = s.bpm := rfl
@[simp] theorem Dev.asPutBytes_dram (s : Dev) (k o : Nat) (bs : List Byte) : (s.asPutBytes k o bs).dram = s.dram := rfl
@[simp] theorem Dev.asPutBytes_marks (s : Dev) (k o : Nat) (bs : List Byte) : (s.asPutBytes k o bs).marks = s.marks := rfl
@[simp] theorem Dev.asPutBytes_ras (s : Dev) (k o : Nat) (bs : List Byte) : (s.asPutBytes k o bs).ras = s.ras := rfl
@[simp] theorem Dev.asPutBytes_asMarks (s : Dev) (k o : Nat) (bs : List Byte) : (s.asPutBytes k o bs).asMarks = s.asMarks := rfl
@[simp] theorem Dev.asPutBytes_boot (s : Dev) (k o : Nat) (bs : List Byte) : (s.asPutBytes k o bs).boot = s.boot := rfl
@[simp] theorem Dev.asPutBytes_chain (s : Dev) (k o : Nat) (bs : List Byte) : (s.asPutBytes k o bs).chain = s.chain := rfl
@[simp] theorem Dev.asPutBytes_glk0 (s : Dev) (k o : Nat) (bs : List Byte) : (s.asPutBytes k o bs).glk0 = s.glk0 := rfl
@[simp] theorem Dev.asPutBytes_glk1 (s : Dev) (k o : Nat) (bs : List Byte) : (s.asPutBytes k o bs).glk1 = s.glk1 := rfl
@[simp] theorem Dev.asPutBytes_sec (s : Dev) (k o : Nat) (bs : List Byte) : (s.asPutBytes k o bs).sec = s.sec := rfl
@[simp] theorem Dev.asPutBytes_vent (s : Dev) (k o : Nat) (bs : List Byte) : (s.asPutBytes k o bs).vent = s.vent := rfl
@[simp] theorem Dev.asPutBytes_pwr (s : Dev) (k o : Nat) (bs : List Byte) : (s.asPutBytes k o bs).pwr = s.pwr := rfl
@[simp] theorem Dev.asPutBytes_mctp (s : Dev) (k o : Nat) (bs : List Byte) : (s.asPutBytes k o bs).mctp = s.mctp := rfl
@[simp] theorem Dev.asPutBytes_mgmt (s : Dev) (k o : Nat) (bs : List Byte) : (s.asPutBytes k o bs).mgmt = s.mgmt := rfl
@[simp] theorem Dev.asPutBytes_slots (s : Dev) (k o : Nat) (bs : List Byte) : (s.asPutBytes k o bs).slots = s.slots := rfl
@[simp] theorem Dev.asPutBytes_tim (s : Dev) (k o : Nat) (bs : List Byte) : (s.asPutBytes k o bs).tim = s.tim := rfl
@[simp] theorem Dev.asPutBytes_eng (s : Dev) (k o : Nat) (bs : List Byte) : (s.asPutBytes k o bs).eng = s.eng := rfl

/-! ### setCtx: only `ctxs` -/

@[simp] theorem Dev.setCtx_regs (s : Dev) (c : Nat) (x : Ctx) : (s.setCtx c x).regs = s.regs := rfl
@[simp] theorem Dev.setCtx_out (s : Dev) (c : Nat) (x : Ctx) : (s.setCtx c x).out = s.out := rfl
@[simp] theorem Dev.setCtx_draws (s : Dev) (c : Nat) (x : Ctx) : (s.setCtx c x).draws = s.draws := rfl
@[simp] theorem Dev.setCtx_shop (s : Dev) (c : Nat) (x : Ctx) : (s.setCtx c x).shop = s.shop := rfl
@[simp] theorem Dev.setCtx_staged (s : Dev) (c : Nat) (x : Ctx) : (s.setCtx c x).staged = s.staged := rfl
@[simp] theorem Dev.setCtx_lost (s : Dev) (c : Nat) (x : Ctx) : (s.setCtx c x).lost = s.lost := rfl
@[simp] theorem Dev.setCtx_hif (s : Dev) (c : Nat) (x : Ctx) : (s.setCtx c x).hif = s.hif := rfl
@[simp] theorem Dev.setCtx_bpm (s : Dev) (c : Nat) (x : Ctx) : (s.setCtx c x).bpm = s.bpm := rfl
@[simp] theorem Dev.setCtx_dram (s : Dev) (c : Nat) (x : Ctx) : (s.setCtx c x).dram = s.dram := rfl
@[simp] theorem Dev.setCtx_marks (s : Dev) (c : Nat) (x : Ctx) : (s.setCtx c x).marks = s.marks := rfl
@[simp] theorem Dev.setCtx_ras (s : Dev) (c : Nat) (x : Ctx) : (s.setCtx c x).ras = s.ras := rfl
@[simp] theorem Dev.setCtx_as (s : Dev) (c : Nat) (x : Ctx) : (s.setCtx c x).as = s.as := rfl
@[simp] theorem Dev.setCtx_asMarks (s : Dev) (c : Nat) (x : Ctx) : (s.setCtx c x).asMarks = s.asMarks := rfl
@[simp] theorem Dev.setCtx_boot (s : Dev) (c : Nat) (x : Ctx) : (s.setCtx c x).boot = s.boot := rfl
@[simp] theorem Dev.setCtx_chain (s : Dev) (c : Nat) (x : Ctx) : (s.setCtx c x).chain = s.chain := rfl
@[simp] theorem Dev.setCtx_glk0 (s : Dev) (c : Nat) (x : Ctx) : (s.setCtx c x).glk0 = s.glk0 := rfl
@[simp] theorem Dev.setCtx_glk1 (s : Dev) (c : Nat) (x : Ctx) : (s.setCtx c x).glk1 = s.glk1 := rfl
@[simp] theorem Dev.setCtx_sec (s : Dev) (c : Nat) (x : Ctx) : (s.setCtx c x).sec = s.sec := rfl
@[simp] theorem Dev.setCtx_vent (s : Dev) (c : Nat) (x : Ctx) : (s.setCtx c x).vent = s.vent := rfl
@[simp] theorem Dev.setCtx_pwr (s : Dev) (c : Nat) (x : Ctx) : (s.setCtx c x).pwr = s.pwr := rfl
@[simp] theorem Dev.setCtx_mctp (s : Dev) (c : Nat) (x : Ctx) : (s.setCtx c x).mctp = s.mctp := rfl
@[simp] theorem Dev.setCtx_mgmt (s : Dev) (c : Nat) (x : Ctx) : (s.setCtx c x).mgmt = s.mgmt := rfl
@[simp] theorem Dev.setCtx_slots (s : Dev) (c : Nat) (x : Ctx) : (s.setCtx c x).slots = s.slots := rfl
@[simp] theorem Dev.setCtx_tim (s : Dev) (c : Nat) (x : Ctx) : (s.setCtx c x).tim = s.tim := rfl
@[simp] theorem Dev.setCtx_eng (s : Dev) (c : Nat) (x : Ctx) : (s.setCtx c x).eng = s.eng := rfl

/-! ### setPool: only `bpm` -/

@[simp] theorem Dev.setPool_regs (s : Dev) (p : Nat) (x : Pool) : (s.setPool p x).regs = s.regs := rfl
@[simp] theorem Dev.setPool_out (s : Dev) (p : Nat) (x : Pool) : (s.setPool p x).out = s.out := rfl
@[simp] theorem Dev.setPool_draws (s : Dev) (p : Nat) (x : Pool) : (s.setPool p x).draws = s.draws := rfl
@[simp] theorem Dev.setPool_shop (s : Dev) (p : Nat) (x : Pool) : (s.setPool p x).shop = s.shop := rfl
@[simp] theorem Dev.setPool_staged (s : Dev) (p : Nat) (x : Pool) : (s.setPool p x).staged = s.staged := rfl
@[simp] theorem Dev.setPool_lost (s : Dev) (p : Nat) (x : Pool) : (s.setPool p x).lost = s.lost := rfl
@[simp] theorem Dev.setPool_ctxs (s : Dev) (p : Nat) (x : Pool) : (s.setPool p x).ctxs = s.ctxs := rfl
@[simp] theorem Dev.setPool_hif (s : Dev) (p : Nat) (x : Pool) : (s.setPool p x).hif = s.hif := rfl
@[simp] theorem Dev.setPool_dram (s : Dev) (p : Nat) (x : Pool) : (s.setPool p x).dram = s.dram := rfl
@[simp] theorem Dev.setPool_marks (s : Dev) (p : Nat) (x : Pool) : (s.setPool p x).marks = s.marks := rfl
@[simp] theorem Dev.setPool_ras (s : Dev) (p : Nat) (x : Pool) : (s.setPool p x).ras = s.ras := rfl
@[simp] theorem Dev.setPool_as (s : Dev) (p : Nat) (x : Pool) : (s.setPool p x).as = s.as := rfl
@[simp] theorem Dev.setPool_asMarks (s : Dev) (p : Nat) (x : Pool) : (s.setPool p x).asMarks = s.asMarks := rfl
@[simp] theorem Dev.setPool_boot (s : Dev) (p : Nat) (x : Pool) : (s.setPool p x).boot = s.boot := rfl
@[simp] theorem Dev.setPool_chain (s : Dev) (p : Nat) (x : Pool) : (s.setPool p x).chain = s.chain := rfl
@[simp] theorem Dev.setPool_glk0 (s : Dev) (p : Nat) (x : Pool) : (s.setPool p x).glk0 = s.glk0 := rfl
@[simp] theorem Dev.setPool_glk1 (s : Dev) (p : Nat) (x : Pool) : (s.setPool p x).glk1 = s.glk1 := rfl
@[simp] theorem Dev.setPool_sec (s : Dev) (p : Nat) (x : Pool) : (s.setPool p x).sec = s.sec := rfl
@[simp] theorem Dev.setPool_vent (s : Dev) (p : Nat) (x : Pool) : (s.setPool p x).vent = s.vent := rfl
@[simp] theorem Dev.setPool_pwr (s : Dev) (p : Nat) (x : Pool) : (s.setPool p x).pwr = s.pwr := rfl
@[simp] theorem Dev.setPool_mctp (s : Dev) (p : Nat) (x : Pool) : (s.setPool p x).mctp = s.mctp := rfl
@[simp] theorem Dev.setPool_mgmt (s : Dev) (p : Nat) (x : Pool) : (s.setPool p x).mgmt = s.mgmt := rfl
@[simp] theorem Dev.setPool_slots (s : Dev) (p : Nat) (x : Pool) : (s.setPool p x).slots = s.slots := rfl
@[simp] theorem Dev.setPool_tim (s : Dev) (p : Nat) (x : Pool) : (s.setPool p x).tim = s.tim := rfl
@[simp] theorem Dev.setPool_eng (s : Dev) (p : Nat) (x : Pool) : (s.setPool p x).eng = s.eng := rfl

/-! ### setBuf: only `bpm` -/

@[simp] theorem Dev.setBuf_regs (s : Dev) (p i : Nat) (b : Buf) : (s.setBuf p i b).regs = s.regs := rfl
@[simp] theorem Dev.setBuf_out (s : Dev) (p i : Nat) (b : Buf) : (s.setBuf p i b).out = s.out := rfl
@[simp] theorem Dev.setBuf_draws (s : Dev) (p i : Nat) (b : Buf) : (s.setBuf p i b).draws = s.draws := rfl
@[simp] theorem Dev.setBuf_shop (s : Dev) (p i : Nat) (b : Buf) : (s.setBuf p i b).shop = s.shop := rfl
@[simp] theorem Dev.setBuf_staged (s : Dev) (p i : Nat) (b : Buf) : (s.setBuf p i b).staged = s.staged := rfl
@[simp] theorem Dev.setBuf_lost (s : Dev) (p i : Nat) (b : Buf) : (s.setBuf p i b).lost = s.lost := rfl
@[simp] theorem Dev.setBuf_ctxs (s : Dev) (p i : Nat) (b : Buf) : (s.setBuf p i b).ctxs = s.ctxs := rfl
@[simp] theorem Dev.setBuf_hif (s : Dev) (p i : Nat) (b : Buf) : (s.setBuf p i b).hif = s.hif := rfl
@[simp] theorem Dev.setBuf_dram (s : Dev) (p i : Nat) (b : Buf) : (s.setBuf p i b).dram = s.dram := rfl
@[simp] theorem Dev.setBuf_marks (s : Dev) (p i : Nat) (b : Buf) : (s.setBuf p i b).marks = s.marks := rfl
@[simp] theorem Dev.setBuf_ras (s : Dev) (p i : Nat) (b : Buf) : (s.setBuf p i b).ras = s.ras := rfl
@[simp] theorem Dev.setBuf_as (s : Dev) (p i : Nat) (b : Buf) : (s.setBuf p i b).as = s.as := rfl
@[simp] theorem Dev.setBuf_asMarks (s : Dev) (p i : Nat) (b : Buf) : (s.setBuf p i b).asMarks = s.asMarks := rfl
@[simp] theorem Dev.setBuf_boot (s : Dev) (p i : Nat) (b : Buf) : (s.setBuf p i b).boot = s.boot := rfl
@[simp] theorem Dev.setBuf_chain (s : Dev) (p i : Nat) (b : Buf) : (s.setBuf p i b).chain = s.chain := rfl
@[simp] theorem Dev.setBuf_glk0 (s : Dev) (p i : Nat) (b : Buf) : (s.setBuf p i b).glk0 = s.glk0 := rfl
@[simp] theorem Dev.setBuf_glk1 (s : Dev) (p i : Nat) (b : Buf) : (s.setBuf p i b).glk1 = s.glk1 := rfl
@[simp] theorem Dev.setBuf_sec (s : Dev) (p i : Nat) (b : Buf) : (s.setBuf p i b).sec = s.sec := rfl
@[simp] theorem Dev.setBuf_vent (s : Dev) (p i : Nat) (b : Buf) : (s.setBuf p i b).vent = s.vent := rfl
@[simp] theorem Dev.setBuf_pwr (s : Dev) (p i : Nat) (b : Buf) : (s.setBuf p i b).pwr = s.pwr := rfl
@[simp] theorem Dev.setBuf_mctp (s : Dev) (p i : Nat) (b : Buf) : (s.setBuf p i b).mctp = s.mctp := rfl
@[simp] theorem Dev.setBuf_mgmt (s : Dev) (p i : Nat) (b : Buf) : (s.setBuf p i b).mgmt = s.mgmt := rfl
@[simp] theorem Dev.setBuf_slots (s : Dev) (p i : Nat) (b : Buf) : (s.setBuf p i b).slots = s.slots := rfl
@[simp] theorem Dev.setBuf_tim (s : Dev) (p i : Nat) (b : Buf) : (s.setBuf p i b).tim = s.tim := rfl
@[simp] theorem Dev.setBuf_eng (s : Dev) (p i : Nat) (b : Buf) : (s.setBuf p i b).eng = s.eng := rfl

/-! ### setStrm: only `eng` -/

@[simp] theorem Dev.setStrm_regs (s : Dev) (k : Nat) (x : Option Stream) : (s.setStrm k x).regs = s.regs := rfl
@[simp] theorem Dev.setStrm_out (s : Dev) (k : Nat) (x : Option Stream) : (s.setStrm k x).out = s.out := rfl
@[simp] theorem Dev.setStrm_draws (s : Dev) (k : Nat) (x : Option Stream) : (s.setStrm k x).draws = s.draws := rfl
@[simp] theorem Dev.setStrm_shop (s : Dev) (k : Nat) (x : Option Stream) : (s.setStrm k x).shop = s.shop := rfl
@[simp] theorem Dev.setStrm_staged (s : Dev) (k : Nat) (x : Option Stream) : (s.setStrm k x).staged = s.staged := rfl
@[simp] theorem Dev.setStrm_lost (s : Dev) (k : Nat) (x : Option Stream) : (s.setStrm k x).lost = s.lost := rfl
@[simp] theorem Dev.setStrm_ctxs (s : Dev) (k : Nat) (x : Option Stream) : (s.setStrm k x).ctxs = s.ctxs := rfl
@[simp] theorem Dev.setStrm_hif (s : Dev) (k : Nat) (x : Option Stream) : (s.setStrm k x).hif = s.hif := rfl
@[simp] theorem Dev.setStrm_bpm (s : Dev) (k : Nat) (x : Option Stream) : (s.setStrm k x).bpm = s.bpm := rfl
@[simp] theorem Dev.setStrm_dram (s : Dev) (k : Nat) (x : Option Stream) : (s.setStrm k x).dram = s.dram := rfl
@[simp] theorem Dev.setStrm_marks (s : Dev) (k : Nat) (x : Option Stream) : (s.setStrm k x).marks = s.marks := rfl
@[simp] theorem Dev.setStrm_ras (s : Dev) (k : Nat) (x : Option Stream) : (s.setStrm k x).ras = s.ras := rfl
@[simp] theorem Dev.setStrm_as (s : Dev) (k : Nat) (x : Option Stream) : (s.setStrm k x).as = s.as := rfl
@[simp] theorem Dev.setStrm_asMarks (s : Dev) (k : Nat) (x : Option Stream) : (s.setStrm k x).asMarks = s.asMarks := rfl
@[simp] theorem Dev.setStrm_boot (s : Dev) (k : Nat) (x : Option Stream) : (s.setStrm k x).boot = s.boot := rfl
@[simp] theorem Dev.setStrm_chain (s : Dev) (k : Nat) (x : Option Stream) : (s.setStrm k x).chain = s.chain := rfl
@[simp] theorem Dev.setStrm_glk0 (s : Dev) (k : Nat) (x : Option Stream) : (s.setStrm k x).glk0 = s.glk0 := rfl
@[simp] theorem Dev.setStrm_glk1 (s : Dev) (k : Nat) (x : Option Stream) : (s.setStrm k x).glk1 = s.glk1 := rfl
@[simp] theorem Dev.setStrm_sec (s : Dev) (k : Nat) (x : Option Stream) : (s.setStrm k x).sec = s.sec := rfl
@[simp] theorem Dev.setStrm_vent (s : Dev) (k : Nat) (x : Option Stream) : (s.setStrm k x).vent = s.vent := rfl
@[simp] theorem Dev.setStrm_pwr (s : Dev) (k : Nat) (x : Option Stream) : (s.setStrm k x).pwr = s.pwr := rfl
@[simp] theorem Dev.setStrm_mctp (s : Dev) (k : Nat) (x : Option Stream) : (s.setStrm k x).mctp = s.mctp := rfl
@[simp] theorem Dev.setStrm_mgmt (s : Dev) (k : Nat) (x : Option Stream) : (s.setStrm k x).mgmt = s.mgmt := rfl
@[simp] theorem Dev.setStrm_slots (s : Dev) (k : Nat) (x : Option Stream) : (s.setStrm k x).slots = s.slots := rfl
@[simp] theorem Dev.setStrm_tim (s : Dev) (k : Nat) (x : Option Stream) : (s.setStrm k x).tim = s.tim := rfl

/-! ### setInRing: only `eng` -/

@[simp] theorem Dev.setInRing_regs (s : Dev) (k : Nat) (x : Option Ring) : (s.setInRing k x).regs = s.regs := rfl
@[simp] theorem Dev.setInRing_out (s : Dev) (k : Nat) (x : Option Ring) : (s.setInRing k x).out = s.out := rfl
@[simp] theorem Dev.setInRing_draws (s : Dev) (k : Nat) (x : Option Ring) : (s.setInRing k x).draws = s.draws := rfl
@[simp] theorem Dev.setInRing_shop (s : Dev) (k : Nat) (x : Option Ring) : (s.setInRing k x).shop = s.shop := rfl
@[simp] theorem Dev.setInRing_staged (s : Dev) (k : Nat) (x : Option Ring) : (s.setInRing k x).staged = s.staged := rfl
@[simp] theorem Dev.setInRing_lost (s : Dev) (k : Nat) (x : Option Ring) : (s.setInRing k x).lost = s.lost := rfl
@[simp] theorem Dev.setInRing_ctxs (s : Dev) (k : Nat) (x : Option Ring) : (s.setInRing k x).ctxs = s.ctxs := rfl
@[simp] theorem Dev.setInRing_hif (s : Dev) (k : Nat) (x : Option Ring) : (s.setInRing k x).hif = s.hif := rfl
@[simp] theorem Dev.setInRing_bpm (s : Dev) (k : Nat) (x : Option Ring) : (s.setInRing k x).bpm = s.bpm := rfl
@[simp] theorem Dev.setInRing_dram (s : Dev) (k : Nat) (x : Option Ring) : (s.setInRing k x).dram = s.dram := rfl
@[simp] theorem Dev.setInRing_marks (s : Dev) (k : Nat) (x : Option Ring) : (s.setInRing k x).marks = s.marks := rfl
@[simp] theorem Dev.setInRing_ras (s : Dev) (k : Nat) (x : Option Ring) : (s.setInRing k x).ras = s.ras := rfl
@[simp] theorem Dev.setInRing_as (s : Dev) (k : Nat) (x : Option Ring) : (s.setInRing k x).as = s.as := rfl
@[simp] theorem Dev.setInRing_asMarks (s : Dev) (k : Nat) (x : Option Ring) : (s.setInRing k x).asMarks = s.asMarks := rfl
@[simp] theorem Dev.setInRing_boot (s : Dev) (k : Nat) (x : Option Ring) : (s.setInRing k x).boot = s.boot := rfl
@[simp] theorem Dev.setInRing_chain (s : Dev) (k : Nat) (x : Option Ring) : (s.setInRing k x).chain = s.chain := rfl
@[simp] theorem Dev.setInRing_glk0 (s : Dev) (k : Nat) (x : Option Ring) : (s.setInRing k x).glk0 = s.glk0 := rfl
@[simp] theorem Dev.setInRing_glk1 (s : Dev) (k : Nat) (x : Option Ring) : (s.setInRing k x).glk1 = s.glk1 := rfl
@[simp] theorem Dev.setInRing_sec (s : Dev) (k : Nat) (x : Option Ring) : (s.setInRing k x).sec = s.sec := rfl
@[simp] theorem Dev.setInRing_vent (s : Dev) (k : Nat) (x : Option Ring) : (s.setInRing k x).vent = s.vent := rfl
@[simp] theorem Dev.setInRing_pwr (s : Dev) (k : Nat) (x : Option Ring) : (s.setInRing k x).pwr = s.pwr := rfl
@[simp] theorem Dev.setInRing_mctp (s : Dev) (k : Nat) (x : Option Ring) : (s.setInRing k x).mctp = s.mctp := rfl
@[simp] theorem Dev.setInRing_mgmt (s : Dev) (k : Nat) (x : Option Ring) : (s.setInRing k x).mgmt = s.mgmt := rfl
@[simp] theorem Dev.setInRing_slots (s : Dev) (k : Nat) (x : Option Ring) : (s.setInRing k x).slots = s.slots := rfl
@[simp] theorem Dev.setInRing_tim (s : Dev) (k : Nat) (x : Option Ring) : (s.setInRing k x).tim = s.tim := rfl

/-! ### setJq: only `eng` -/

@[simp] theorem Dev.setJq_regs (s : Dev) (q : Nat) (x : JobQ) : (s.setJq q x).regs = s.regs := rfl
@[simp] theorem Dev.setJq_out (s : Dev) (q : Nat) (x : JobQ) : (s.setJq q x).out = s.out := rfl
@[simp] theorem Dev.setJq_draws (s : Dev) (q : Nat) (x : JobQ) : (s.setJq q x).draws = s.draws := rfl
@[simp] theorem Dev.setJq_shop (s : Dev) (q : Nat) (x : JobQ) : (s.setJq q x).shop = s.shop := rfl
@[simp] theorem Dev.setJq_staged (s : Dev) (q : Nat) (x : JobQ) : (s.setJq q x).staged = s.staged := rfl
@[simp] theorem Dev.setJq_lost (s : Dev) (q : Nat) (x : JobQ) : (s.setJq q x).lost = s.lost := rfl
@[simp] theorem Dev.setJq_ctxs (s : Dev) (q : Nat) (x : JobQ) : (s.setJq q x).ctxs = s.ctxs := rfl
@[simp] theorem Dev.setJq_hif (s : Dev) (q : Nat) (x : JobQ) : (s.setJq q x).hif = s.hif := rfl
@[simp] theorem Dev.setJq_bpm (s : Dev) (q : Nat) (x : JobQ) : (s.setJq q x).bpm = s.bpm := rfl
@[simp] theorem Dev.setJq_dram (s : Dev) (q : Nat) (x : JobQ) : (s.setJq q x).dram = s.dram := rfl
@[simp] theorem Dev.setJq_marks (s : Dev) (q : Nat) (x : JobQ) : (s.setJq q x).marks = s.marks := rfl
@[simp] theorem Dev.setJq_ras (s : Dev) (q : Nat) (x : JobQ) : (s.setJq q x).ras = s.ras := rfl
@[simp] theorem Dev.setJq_as (s : Dev) (q : Nat) (x : JobQ) : (s.setJq q x).as = s.as := rfl
@[simp] theorem Dev.setJq_asMarks (s : Dev) (q : Nat) (x : JobQ) : (s.setJq q x).asMarks = s.asMarks := rfl
@[simp] theorem Dev.setJq_boot (s : Dev) (q : Nat) (x : JobQ) : (s.setJq q x).boot = s.boot := rfl
@[simp] theorem Dev.setJq_chain (s : Dev) (q : Nat) (x : JobQ) : (s.setJq q x).chain = s.chain := rfl
@[simp] theorem Dev.setJq_glk0 (s : Dev) (q : Nat) (x : JobQ) : (s.setJq q x).glk0 = s.glk0 := rfl
@[simp] theorem Dev.setJq_glk1 (s : Dev) (q : Nat) (x : JobQ) : (s.setJq q x).glk1 = s.glk1 := rfl
@[simp] theorem Dev.setJq_sec (s : Dev) (q : Nat) (x : JobQ) : (s.setJq q x).sec = s.sec := rfl
@[simp] theorem Dev.setJq_vent (s : Dev) (q : Nat) (x : JobQ) : (s.setJq q x).vent = s.vent := rfl
@[simp] theorem Dev.setJq_pwr (s : Dev) (q : Nat) (x : JobQ) : (s.setJq q x).pwr = s.pwr := rfl
@[simp] theorem Dev.setJq_mctp (s : Dev) (q : Nat) (x : JobQ) : (s.setJq q x).mctp = s.mctp := rfl
@[simp] theorem Dev.setJq_mgmt (s : Dev) (q : Nat) (x : JobQ) : (s.setJq q x).mgmt = s.mgmt := rfl
@[simp] theorem Dev.setJq_slots (s : Dev) (q : Nat) (x : JobQ) : (s.setJq q x).slots = s.slots := rfl
@[simp] theorem Dev.setJq_tim (s : Dev) (q : Nat) (x : JobQ) : (s.setJq q x).tim = s.tim := rfl

/-! ### setRoute: only `eng` -/

@[simp] theorem Dev.setRoute_regs (s : Dev) (r : Nat) (x : Option Route) : (s.setRoute r x).regs = s.regs := rfl
@[simp] theorem Dev.setRoute_out (s : Dev) (r : Nat) (x : Option Route) : (s.setRoute r x).out = s.out := rfl
@[simp] theorem Dev.setRoute_draws (s : Dev) (r : Nat) (x : Option Route) : (s.setRoute r x).draws = s.draws := rfl
@[simp] theorem Dev.setRoute_shop (s : Dev) (r : Nat) (x : Option Route) : (s.setRoute r x).shop = s.shop := rfl
@[simp] theorem Dev.setRoute_staged (s : Dev) (r : Nat) (x : Option Route) : (s.setRoute r x).staged = s.staged := rfl
@[simp] theorem Dev.setRoute_lost (s : Dev) (r : Nat) (x : Option Route) : (s.setRoute r x).lost = s.lost := rfl
@[simp] theorem Dev.setRoute_ctxs (s : Dev) (r : Nat) (x : Option Route) : (s.setRoute r x).ctxs = s.ctxs := rfl
@[simp] theorem Dev.setRoute_hif (s : Dev) (r : Nat) (x : Option Route) : (s.setRoute r x).hif = s.hif := rfl
@[simp] theorem Dev.setRoute_bpm (s : Dev) (r : Nat) (x : Option Route) : (s.setRoute r x).bpm = s.bpm := rfl
@[simp] theorem Dev.setRoute_dram (s : Dev) (r : Nat) (x : Option Route) : (s.setRoute r x).dram = s.dram := rfl
@[simp] theorem Dev.setRoute_marks (s : Dev) (r : Nat) (x : Option Route) : (s.setRoute r x).marks = s.marks := rfl
@[simp] theorem Dev.setRoute_ras (s : Dev) (r : Nat) (x : Option Route) : (s.setRoute r x).ras = s.ras := rfl
@[simp] theorem Dev.setRoute_as (s : Dev) (r : Nat) (x : Option Route) : (s.setRoute r x).as = s.as := rfl
@[simp] theorem Dev.setRoute_asMarks (s : Dev) (r : Nat) (x : Option Route) : (s.setRoute r x).asMarks = s.asMarks := rfl
@[simp] theorem Dev.setRoute_boot (s : Dev) (r : Nat) (x : Option Route) : (s.setRoute r x).boot = s.boot := rfl
@[simp] theorem Dev.setRoute_chain (s : Dev) (r : Nat) (x : Option Route) : (s.setRoute r x).chain = s.chain := rfl
@[simp] theorem Dev.setRoute_glk0 (s : Dev) (r : Nat) (x : Option Route) : (s.setRoute r x).glk0 = s.glk0 := rfl
@[simp] theorem Dev.setRoute_glk1 (s : Dev) (r : Nat) (x : Option Route) : (s.setRoute r x).glk1 = s.glk1 := rfl
@[simp] theorem Dev.setRoute_sec (s : Dev) (r : Nat) (x : Option Route) : (s.setRoute r x).sec = s.sec := rfl
@[simp] theorem Dev.setRoute_vent (s : Dev) (r : Nat) (x : Option Route) : (s.setRoute r x).vent = s.vent := rfl
@[simp] theorem Dev.setRoute_pwr (s : Dev) (r : Nat) (x : Option Route) : (s.setRoute r x).pwr = s.pwr := rfl
@[simp] theorem Dev.setRoute_mctp (s : Dev) (r : Nat) (x : Option Route) : (s.setRoute r x).mctp = s.mctp := rfl
@[simp] theorem Dev.setRoute_mgmt (s : Dev) (r : Nat) (x : Option Route) : (s.setRoute r x).mgmt = s.mgmt := rfl
@[simp] theorem Dev.setRoute_slots (s : Dev) (r : Nat) (x : Option Route) : (s.setRoute r x).slots = s.slots := rfl
@[simp] theorem Dev.setRoute_tim (s : Dev) (r : Nat) (x : Option Route) : (s.setRoute r x).tim = s.tim := rfl

/-! ### setModel: only `eng` -/

@[simp] theorem Dev.setModel_regs (s : Dev) (m : Nat) (x : Option Model) : (s.setModel m x).regs = s.regs := rfl
@[simp] theorem Dev.setModel_out (s : Dev) (m : Nat) (x : Option Model) : (s.setModel m x).out = s.out := rfl
@[simp] theorem Dev.setModel_draws (s : Dev) (m : Nat) (x : Option Model) : (s.setModel m x).draws = s.draws := rfl
@[simp] theorem Dev.setModel_shop (s : Dev) (m : Nat) (x : Option Model) : (s.setModel m x).shop = s.shop := rfl
@[simp] theorem Dev.setModel_staged (s : Dev) (m : Nat) (x : Option Model) : (s.setModel m x).staged = s.staged := rfl
@[simp] theorem Dev.setModel_lost (s : Dev) (m : Nat) (x : Option Model) : (s.setModel m x).lost = s.lost := rfl
@[simp] theorem Dev.setModel_ctxs (s : Dev) (m : Nat) (x : Option Model) : (s.setModel m x).ctxs = s.ctxs := rfl
@[simp] theorem Dev.setModel_hif (s : Dev) (m : Nat) (x : Option Model) : (s.setModel m x).hif = s.hif := rfl
@[simp] theorem Dev.setModel_bpm (s : Dev) (m : Nat) (x : Option Model) : (s.setModel m x).bpm = s.bpm := rfl
@[simp] theorem Dev.setModel_dram (s : Dev) (m : Nat) (x : Option Model) : (s.setModel m x).dram = s.dram := rfl
@[simp] theorem Dev.setModel_marks (s : Dev) (m : Nat) (x : Option Model) : (s.setModel m x).marks = s.marks := rfl
@[simp] theorem Dev.setModel_ras (s : Dev) (m : Nat) (x : Option Model) : (s.setModel m x).ras = s.ras := rfl
@[simp] theorem Dev.setModel_as (s : Dev) (m : Nat) (x : Option Model) : (s.setModel m x).as = s.as := rfl
@[simp] theorem Dev.setModel_asMarks (s : Dev) (m : Nat) (x : Option Model) : (s.setModel m x).asMarks = s.asMarks := rfl
@[simp] theorem Dev.setModel_boot (s : Dev) (m : Nat) (x : Option Model) : (s.setModel m x).boot = s.boot := rfl
@[simp] theorem Dev.setModel_chain (s : Dev) (m : Nat) (x : Option Model) : (s.setModel m x).chain = s.chain := rfl
@[simp] theorem Dev.setModel_glk0 (s : Dev) (m : Nat) (x : Option Model) : (s.setModel m x).glk0 = s.glk0 := rfl
@[simp] theorem Dev.setModel_glk1 (s : Dev) (m : Nat) (x : Option Model) : (s.setModel m x).glk1 = s.glk1 := rfl
@[simp] theorem Dev.setModel_sec (s : Dev) (m : Nat) (x : Option Model) : (s.setModel m x).sec = s.sec := rfl
@[simp] theorem Dev.setModel_vent (s : Dev) (m : Nat) (x : Option Model) : (s.setModel m x).vent = s.vent := rfl
@[simp] theorem Dev.setModel_pwr (s : Dev) (m : Nat) (x : Option Model) : (s.setModel m x).pwr = s.pwr := rfl
@[simp] theorem Dev.setModel_mctp (s : Dev) (m : Nat) (x : Option Model) : (s.setModel m x).mctp = s.mctp := rfl
@[simp] theorem Dev.setModel_mgmt (s : Dev) (m : Nat) (x : Option Model) : (s.setModel m x).mgmt = s.mgmt := rfl
@[simp] theorem Dev.setModel_slots (s : Dev) (m : Nat) (x : Option Model) : (s.setModel m x).slots = s.slots := rfl
@[simp] theorem Dev.setModel_tim (s : Dev) (m : Nat) (x : Option Model) : (s.setModel m x).tim = s.tim := rfl

/-! ### setCore: only `eng` -/

@[simp] theorem Dev.setCore_regs (s : Dev) (k : Nat) (x : Core) : (s.setCore k x).regs = s.regs := rfl
@[simp] theorem Dev.setCore_out (s : Dev) (k : Nat) (x : Core) : (s.setCore k x).out = s.out := rfl
@[simp] theorem Dev.setCore_draws (s : Dev) (k : Nat) (x : Core) : (s.setCore k x).draws = s.draws := rfl
@[simp] theorem Dev.setCore_shop (s : Dev) (k : Nat) (x : Core) : (s.setCore k x).shop = s.shop := rfl
@[simp] theorem Dev.setCore_staged (s : Dev) (k : Nat) (x : Core) : (s.setCore k x).staged = s.staged := rfl
@[simp] theorem Dev.setCore_lost (s : Dev) (k : Nat) (x : Core) : (s.setCore k x).lost = s.lost := rfl
@[simp] theorem Dev.setCore_ctxs (s : Dev) (k : Nat) (x : Core) : (s.setCore k x).ctxs = s.ctxs := rfl
@[simp] theorem Dev.setCore_hif (s : Dev) (k : Nat) (x : Core) : (s.setCore k x).hif = s.hif := rfl
@[simp] theorem Dev.setCore_bpm (s : Dev) (k : Nat) (x : Core) : (s.setCore k x).bpm = s.bpm := rfl
@[simp] theorem Dev.setCore_dram (s : Dev) (k : Nat) (x : Core) : (s.setCore k x).dram = s.dram := rfl
@[simp] theorem Dev.setCore_marks (s : Dev) (k : Nat) (x : Core) : (s.setCore k x).marks = s.marks := rfl
@[simp] theorem Dev.setCore_ras (s : Dev) (k : Nat) (x : Core) : (s.setCore k x).ras = s.ras := rfl
@[simp] theorem Dev.setCore_as (s : Dev) (k : Nat) (x : Core) : (s.setCore k x).as = s.as := rfl
@[simp] theorem Dev.setCore_asMarks (s : Dev) (k : Nat) (x : Core) : (s.setCore k x).asMarks = s.asMarks := rfl
@[simp] theorem Dev.setCore_boot (s : Dev) (k : Nat) (x : Core) : (s.setCore k x).boot = s.boot := rfl
@[simp] theorem Dev.setCore_chain (s : Dev) (k : Nat) (x : Core) : (s.setCore k x).chain = s.chain := rfl
@[simp] theorem Dev.setCore_glk0 (s : Dev) (k : Nat) (x : Core) : (s.setCore k x).glk0 = s.glk0 := rfl
@[simp] theorem Dev.setCore_glk1 (s : Dev) (k : Nat) (x : Core) : (s.setCore k x).glk1 = s.glk1 := rfl
@[simp] theorem Dev.setCore_sec (s : Dev) (k : Nat) (x : Core) : (s.setCore k x).sec = s.sec := rfl
@[simp] theorem Dev.setCore_vent (s : Dev) (k : Nat) (x : Core) : (s.setCore k x).vent = s.vent := rfl
@[simp] theorem Dev.setCore_pwr (s : Dev) (k : Nat) (x : Core) : (s.setCore k x).pwr = s.pwr := rfl
@[simp] theorem Dev.setCore_mctp (s : Dev) (k : Nat) (x : Core) : (s.setCore k x).mctp = s.mctp := rfl
@[simp] theorem Dev.setCore_mgmt (s : Dev) (k : Nat) (x : Core) : (s.setCore k x).mgmt = s.mgmt := rfl
@[simp] theorem Dev.setCore_slots (s : Dev) (k : Nat) (x : Core) : (s.setCore k x).slots = s.slots := rfl
@[simp] theorem Dev.setCore_tim (s : Dev) (k : Nat) (x : Core) : (s.setCore k x).tim = s.tim := rfl

/-! ### setVdec: only `eng` -/

@[simp] theorem Dev.setVdec_regs (s : Dev) (n : Nat) (x : Vdec) : (s.setVdec n x).regs = s.regs := rfl
@[simp] theorem Dev.setVdec_out (s : Dev) (n : Nat) (x : Vdec) : (s.setVdec n x).out = s.out := rfl
@[simp] theorem Dev.setVdec_draws (s : Dev) (n : Nat) (x : Vdec) : (s.setVdec n x).draws = s.draws := rfl
@[simp] theorem Dev.setVdec_shop (s : Dev) (n : Nat) (x : Vdec) : (s.setVdec n x).shop = s.shop := rfl
@[simp] theorem Dev.setVdec_staged (s : Dev) (n : Nat) (x : Vdec) : (s.setVdec n x).staged = s.staged := rfl
@[simp] theorem Dev.setVdec_lost (s : Dev) (n : Nat) (x : Vdec) : (s.setVdec n x).lost = s.lost := rfl
@[simp] theorem Dev.setVdec_ctxs (s : Dev) (n : Nat) (x : Vdec) : (s.setVdec n x).ctxs = s.ctxs := rfl
@[simp] theorem Dev.setVdec_hif (s : Dev) (n : Nat) (x : Vdec) : (s.setVdec n x).hif = s.hif := rfl
@[simp] theorem Dev.setVdec_bpm (s : Dev) (n : Nat) (x : Vdec) : (s.setVdec n x).bpm = s.bpm := rfl
@[simp] theorem Dev.setVdec_dram (s : Dev) (n : Nat) (x : Vdec) : (s.setVdec n x).dram = s.dram := rfl
@[simp] theorem Dev.setVdec_marks (s : Dev) (n : Nat) (x : Vdec) : (s.setVdec n x).marks = s.marks := rfl
@[simp] theorem Dev.setVdec_ras (s : Dev) (n : Nat) (x : Vdec) : (s.setVdec n x).ras = s.ras := rfl
@[simp] theorem Dev.setVdec_as (s : Dev) (n : Nat) (x : Vdec) : (s.setVdec n x).as = s.as := rfl
@[simp] theorem Dev.setVdec_asMarks (s : Dev) (n : Nat) (x : Vdec) : (s.setVdec n x).asMarks = s.asMarks := rfl
@[simp] theorem Dev.setVdec_boot (s : Dev) (n : Nat) (x : Vdec) : (s.setVdec n x).boot = s.boot := rfl
@[simp] theorem Dev.setVdec_chain (s : Dev) (n : Nat) (x : Vdec) : (s.setVdec n x).chain = s.chain := rfl
@[simp] theorem Dev.setVdec_glk0 (s : Dev) (n : Nat) (x : Vdec) : (s.setVdec n x).glk0 = s.glk0 := rfl
@[simp] theorem Dev.setVdec_glk1 (s : Dev) (n : Nat) (x : Vdec) : (s.setVdec n x).glk1 = s.glk1 := rfl
@[simp] theorem Dev.setVdec_sec (s : Dev) (n : Nat) (x : Vdec) : (s.setVdec n x).sec = s.sec := rfl
@[simp] theorem Dev.setVdec_vent (s : Dev) (n : Nat) (x : Vdec) : (s.setVdec n x).vent = s.vent := rfl
@[simp] theorem Dev.setVdec_pwr (s : Dev) (n : Nat) (x : Vdec) : (s.setVdec n x).pwr = s.pwr := rfl
@[simp] theorem Dev.setVdec_mctp (s : Dev) (n : Nat) (x : Vdec) : (s.setVdec n x).mctp = s.mctp := rfl
@[simp] theorem Dev.setVdec_mgmt (s : Dev) (n : Nat) (x : Vdec) : (s.setVdec n x).mgmt = s.mgmt := rfl
@[simp] theorem Dev.setVdec_slots (s : Dev) (n : Nat) (x : Vdec) : (s.setVdec n x).slots = s.slots := rfl
@[simp] theorem Dev.setVdec_tim (s : Dev) (n : Nat) (x : Vdec) : (s.setVdec n x).tim = s.tim := rfl

/-! ### setVenc: only `eng` -/

@[simp] theorem Dev.setVenc_regs (s : Dev) (v : Venc) : (s.setVenc v).regs = s.regs := rfl
@[simp] theorem Dev.setVenc_out (s : Dev) (v : Venc) : (s.setVenc v).out = s.out := rfl
@[simp] theorem Dev.setVenc_draws (s : Dev) (v : Venc) : (s.setVenc v).draws = s.draws := rfl
@[simp] theorem Dev.setVenc_shop (s : Dev) (v : Venc) : (s.setVenc v).shop = s.shop := rfl
@[simp] theorem Dev.setVenc_staged (s : Dev) (v : Venc) : (s.setVenc v).staged = s.staged := rfl
@[simp] theorem Dev.setVenc_lost (s : Dev) (v : Venc) : (s.setVenc v).lost = s.lost := rfl
@[simp] theorem Dev.setVenc_ctxs (s : Dev) (v : Venc) : (s.setVenc v).ctxs = s.ctxs := rfl
@[simp] theorem Dev.setVenc_hif (s : Dev) (v : Venc) : (s.setVenc v).hif = s.hif := rfl
@[simp] theorem Dev.setVenc_bpm (s : Dev) (v : Venc) : (s.setVenc v).bpm = s.bpm := rfl
@[simp] theorem Dev.setVenc_dram (s : Dev) (v : Venc) : (s.setVenc v).dram = s.dram := rfl
@[simp] theorem Dev.setVenc_marks (s : Dev) (v : Venc) : (s.setVenc v).marks = s.marks := rfl
@[simp] theorem Dev.setVenc_ras (s : Dev) (v : Venc) : (s.setVenc v).ras = s.ras := rfl
@[simp] theorem Dev.setVenc_as (s : Dev) (v : Venc) : (s.setVenc v).as = s.as := rfl
@[simp] theorem Dev.setVenc_asMarks (s : Dev) (v : Venc) : (s.setVenc v).asMarks = s.asMarks := rfl
@[simp] theorem Dev.setVenc_boot (s : Dev) (v : Venc) : (s.setVenc v).boot = s.boot := rfl
@[simp] theorem Dev.setVenc_chain (s : Dev) (v : Venc) : (s.setVenc v).chain = s.chain := rfl
@[simp] theorem Dev.setVenc_glk0 (s : Dev) (v : Venc) : (s.setVenc v).glk0 = s.glk0 := rfl
@[simp] theorem Dev.setVenc_glk1 (s : Dev) (v : Venc) : (s.setVenc v).glk1 = s.glk1 := rfl
@[simp] theorem Dev.setVenc_sec (s : Dev) (v : Venc) : (s.setVenc v).sec = s.sec := rfl
@[simp] theorem Dev.setVenc_vent (s : Dev) (v : Venc) : (s.setVenc v).vent = s.vent := rfl
@[simp] theorem Dev.setVenc_pwr (s : Dev) (v : Venc) : (s.setVenc v).pwr = s.pwr := rfl
@[simp] theorem Dev.setVenc_mctp (s : Dev) (v : Venc) : (s.setVenc v).mctp = s.mctp := rfl
@[simp] theorem Dev.setVenc_mgmt (s : Dev) (v : Venc) : (s.setVenc v).mgmt = s.mgmt := rfl
@[simp] theorem Dev.setVenc_slots (s : Dev) (v : Venc) : (s.setVenc v).slots = s.slots := rfl
@[simp] theorem Dev.setVenc_tim (s : Dev) (v : Venc) : (s.setVenc v).tim = s.tim := rfl

/-! ### perf: only `regs` -/

@[simp] theorem Dev.perf_out (s : Dev) (page i d : Nat) : (s.perf page i d).out = s.out := by unfold Dev.perf; split <;> rfl
@[simp] theorem Dev.perf_draws (s : Dev) (page i d : Nat) : (s.perf page i d).draws = s.draws := by unfold Dev.perf; split <;> rfl
@[simp] theorem Dev.perf_shop (s : Dev) (page i d : Nat) : (s.perf page i d).shop = s.shop := by unfold Dev.perf; split <;> rfl
@[simp] theorem Dev.perf_staged (s : Dev) (page i d : Nat) : (s.perf page i d).staged = s.staged := by unfold Dev.perf; split <;> rfl
@[simp] theorem Dev.perf_lost (s : Dev) (page i d : Nat) : (s.perf page i d).lost = s.lost := by unfold Dev.perf; split <;> rfl
@[simp] theorem Dev.perf_ctxs (s : Dev) (page i d : Nat) : (s.perf page i d).ctxs = s.ctxs := by unfold Dev.perf; split <;> rfl
@[simp] theorem Dev.perf_hif (s : Dev) (page i d : Nat) : (s.perf page i d).hif = s.hif := by unfold Dev.perf; split <;> rfl
@[simp] theorem Dev.perf_bpm (s : Dev) (page i d : Nat) : (s.perf page i d).bpm = s.bpm := by unfold Dev.perf; split <;> rfl
@[simp] theorem Dev.perf_dram (s : Dev) (page i d : Nat) : (s.perf page i d).dram = s.dram := by unfold Dev.perf; split <;> rfl
@[simp] theorem Dev.perf_marks (s : Dev) (page i d : Nat) : (s.perf page i d).marks = s.marks := by unfold Dev.perf; split <;> rfl
@[simp] theorem Dev.perf_ras (s : Dev) (page i d : Nat) : (s.perf page i d).ras = s.ras := by unfold Dev.perf; split <;> rfl
@[simp] theorem Dev.perf_as (s : Dev) (page i d : Nat) : (s.perf page i d).as = s.as := by unfold Dev.perf; split <;> rfl
@[simp] theorem Dev.perf_asMarks (s : Dev) (page i d : Nat) : (s.perf page i d).asMarks = s.asMarks := by unfold Dev.perf; split <;> rfl
@[simp] theorem Dev.perf_boot (s : Dev) (page i d : Nat) : (s.perf page i d).boot = s.boot := by unfold Dev.perf; split <;> rfl
@[simp] theorem Dev.perf_chain (s : Dev) (page i d : Nat) : (s.perf page i d).chain = s.chain := by unfold Dev.perf; split <;> rfl
@[simp] theorem Dev.perf_glk0 (s : Dev) (page i d : Nat) : (s.perf page i d).glk0 = s.glk0 := by unfold Dev.perf; split <;> rfl
@[simp] theorem Dev.perf_glk1 (s : Dev) (page i d : Nat) : (s.perf page i d).glk1 = s.glk1 := by unfold Dev.perf; split <;> rfl
@[simp] theorem Dev.perf_sec (s : Dev) (page i d : Nat) : (s.perf page i d).sec = s.sec := by unfold Dev.perf; split <;> rfl
@[simp] theorem Dev.perf_vent (s : Dev) (page i d : Nat) : (s.perf page i d).vent = s.vent := by unfold Dev.perf; split <;> rfl
@[simp] theorem Dev.perf_pwr (s : Dev) (page i d : Nat) : (s.perf page i d).pwr = s.pwr := by unfold Dev.perf; split <;> rfl
@[simp] theorem Dev.perf_mctp (s : Dev) (page i d : Nat) : (s.perf page i d).mctp = s.mctp := by unfold Dev.perf; split <;> rfl
@[simp] theorem Dev.perf_mgmt (s : Dev) (page i d : Nat) : (s.perf page i d).mgmt = s.mgmt := by unfold Dev.perf; split <;> rfl
@[simp] theorem Dev.perf_slots (s : Dev) (page i d : Nat) : (s.perf page i d).slots = s.slots := by unfold Dev.perf; split <;> rfl
@[simp] theorem Dev.perf_tim (s : Dev) (page i d : Nat) : (s.perf page i d).tim = s.tim := by unfold Dev.perf; split <;> rfl
@[simp] theorem Dev.perf_eng (s : Dev) (page i d : Nat) : (s.perf page i d).eng = s.eng := by unfold Dev.perf; split <;> rfl

/-! ### Registers read after a write -/

/-- A register holds what was last put into it. -/
@[simp] theorem Dev.reg_setReg_same (s : Dev) (off : Nat) (v : Word) : (s.setReg off v).reg off = v := by
  simp [Dev.reg, Dev.setReg]

/-- Every other register keeps its value. -/
theorem Dev.reg_setReg_ne (s : Dev) {off o : Nat} (v : Word) (h : o ≠ off) : (s.setReg off v).reg o = s.reg o := by
  simp only [Dev.reg, Dev.setReg]; exact Tab.get_set_ne _ _ _ h

theorem Dev.reg_setReg (s : Dev) (off o : Nat) (v : Word) : (s.setReg off v).reg o = if o = off then v else s.reg o := by
  split
  · rename_i h; subst h; simp
  · rename_i h; exact s.reg_setReg_ne v h

theorem Dev.reg_setRf_same (s : Dev) (off lo len v : Nat) : (s.setRf off lo len v).reg off = (s.reg off).setFld lo len v := by
  simp [Dev.setRf]

theorem Dev.reg_setRf_ne (s : Dev) {off o : Nat} (lo len v : Nat) (h : o ≠ off) : (s.setRf off lo len v).reg o = s.reg o :=
  s.reg_setReg_ne _ h

theorem Dev.reg_setRb_ne (s : Dev) {off o : Nat} (i : Nat) (b : Bool) (h : o ≠ off) : (s.setRb off i b).reg o = s.reg o :=
  s.reg_setReg_ne _ h

/-- A field holds what was last put into it. -/
theorem Dev.rf_setRf_same (s : Dev) (off : Nat) {lo len : Nat} (v : Nat) (h : lo + len ≤ 32) :
    (s.setRf off lo len v).rf off lo len = v % 2 ^ len := by
  simp only [Dev.rf, Dev.reg_setRf_same]; exact Word.fld_setFld_same _ v h

theorem Dev.rf_setRf_ne (s : Dev) {off o : Nat} (lo len v i n : Nat) (h : o ≠ off) : (s.setRf off lo len v).rf o i n = s.rf o i n := by
  simp only [Dev.rf, s.reg_setRf_ne lo len v h]

theorem Dev.rf_setRf_below (s : Dev) (off : Nat) {lo len i n : Nat} (v : Nat) (h : lo + len ≤ 32) (hd : i + n ≤ lo) :
    (s.setRf off lo len v).rf off i n = s.rf off i n := by
  simp only [Dev.rf, Dev.reg_setRf_same]; exact Word.fld_setFld_below _ v h hd

theorem Dev.rf_setRf_above (s : Dev) (off : Nat) {lo len i n : Nat} (v : Nat) (h : lo + len ≤ 32) (hd : lo + len ≤ i) :
    (s.setRf off lo len v).rf off i n = s.rf off i n := by
  simp only [Dev.rf, Dev.reg_setRf_same]; exact Word.fld_setFld_above _ v h hd

/-- A bit holds what was last put into it. -/
theorem Dev.rb_setRb_same (s : Dev) (off : Nat) {i : Nat} (b : Bool) (h : i < 32) : (s.setRb off i b).rb off i = b := by
  simp only [Dev.rb, Dev.setRb, Dev.reg_setRf_same]; exact Word.bit_setFld_same _ b h

theorem Dev.rb_setRb_ne (s : Dev) {off o : Nat} (i j : Nat) (b : Bool) (h : o ≠ off) : (s.setRb off i b).rb o j = s.rb o j := by
  simp only [Dev.rb, s.reg_setRb_ne i b h]

theorem Dev.rb_setRb_other (s : Dev) (off : Nat) {i j : Nat} (b : Bool) (hi : i < 32) (h : j ≠ i) :
    (s.setRb off i b).rb off j = s.rb off j := by
  simp only [Dev.rb, Dev.setRb, Dev.reg_setRf_same]
  rcases Nat.lt_or_gt_of_ne h with h | h
  · exact Word.bit_setFld_below _ _ (by omega) h
  · exact Word.bit_setFld_above _ _ (by omega) (by omega)

/-- Frozen counters keep every register. -/
theorem Dev.perf_frozen (s : Dev) (page i d : Nat) (h : s.rb (page + R.ctl) 3 = true) : s.perf page i d = s := by
  simp [Dev.perf, h]

theorem Dev.reg_perf_ne (s : Dev) {page i o : Nat} (d : Nat) (h : o ≠ page + R.perf i) : (s.perf page i d).reg o = s.reg o := by
  unfold Dev.perf; split
  · rfl
  · exact s.reg_setReg_ne _ h

/-! ### The other tables read after a write -/

@[simp] theorem Dev.ctx_setCtx_same (s : Dev) (c : Nat) (x : Ctx) : (s.setCtx c x).ctx c = x := by simp [Dev.ctx, Dev.setCtx]
theorem Dev.ctx_setCtx_ne (s : Dev) {c e : Nat} (x : Ctx) (h : e ≠ c) : (s.setCtx c x).ctx e = s.ctx e :=
  Tab.get_set_ne _ _ _ h
@[simp] theorem Dev.core_setCore_same (s : Dev) (k : Nat) (x : Core) : (s.setCore k x).core k = x := by simp [Dev.core, Dev.setCore]
theorem Dev.core_setCore_ne (s : Dev) {k j : Nat} (x : Core) (h : j ≠ k) : (s.setCore k x).core j = s.core j :=
  Tab.get_set_ne _ _ _ h
@[simp] theorem Dev.strm_setStrm_same (s : Dev) (k : Nat) (x : Option Stream) : (s.setStrm k x).strm k = x := by
  simp [Dev.strm, Dev.setStrm]
@[simp] theorem Dev.inRing_setInRing_same (s : Dev) (k : Nat) (x : Option Ring) : (s.setInRing k x).inRing k = x := by
  simp [Dev.inRing, Dev.setInRing]
@[simp] theorem Dev.jq_setJq_same (s : Dev) (q : Nat) (x : JobQ) : (s.setJq q x).jq q = x := by simp [Dev.jq, Dev.setJq]
@[simp] theorem Dev.route_setRoute_same (s : Dev) (r : Nat) (x : Option Route) : (s.setRoute r x).route r = x := by
  simp [Dev.route, Dev.setRoute]
@[simp] theorem Dev.model_setModel_same (s : Dev) (m : Nat) (x : Option Model) : (s.setModel m x).model m = x := by
  simp [Dev.model, Dev.setModel]
@[simp] theorem Dev.vdec_setVdec_same (s : Dev) (n : Nat) (x : Vdec) : (s.setVdec n x).vdec n = x := by
  simp [Dev.vdec, Dev.setVdec]
@[simp] theorem Dev.buf_setBuf_same (s : Dev) (p i : Nat) (b : Buf) : (s.setBuf p i b).buf p i = b := by
  simp [Dev.buf, Dev.setBuf]
@[simp] theorem Dev.pool_setPool_same (s : Dev) (p : Nat) (x : Pool) : (s.setPool p x).pool p = x := by
  simp [Dev.pool, Dev.setPool]
@[simp] theorem Dev.cfg_setCfg_same (s : Dev) (fn d : Nat) (v : Word) : (s.setCfg fn d v).cfg fn d = v := by
  simp [Dev.cfg, Dev.setCfg]
@[simp] theorem Dev.mark_setMark_same (s : Dev) (i : Nat) (m : SecMark) : (s.setMark i m).mark i = m := by
  simp [Dev.mark, Dev.setMark]

end Sys2Proof.Machine
end

