-- ==== Sys2Proof/Laws/Report.lean ====
section
/-! SUPPORT. The frames of the operations that report: interrupts, messages, events, frames on the ports, counters. -/

namespace Sys2Proof.Machine

variable {m : List Part} {s t u : Dev}

theorem Dev.Keeps.refl (m : List Part) (s : Dev) : Dev.Keeps m s s where
  regs _ _ _ _ _ := rfl
  out := ⟨[], rfl⟩
  ctxs _ _ _ := rfl
  hif _ := rfl
  mctp _ := rfl
  draws _ := rfl
  shop _ := rfl
  bpm _ := rfl
  dram _ := rfl
  marks _ := rfl
  ras _ := rfl
  as _ := rfl
  asMarks _ := rfl
  boot _ := rfl
  chain _ := rfl
  sec _ := rfl
  vent _ := rfl
  pwr _ := rfl
  mgmt _ := rfl
  slots _ := rfl
  tim _ := rfl
  eng _ := rfl

theorem Dev.Keeps.trans (h : Dev.Keeps m s t) (g : Dev.Keeps m t u) : Dev.Keeps m s u where
  regs r o a b c := (g.regs r o a b c).trans (h.regs r o a b c)
  out := by obtain ⟨l, e⟩ := h.out; obtain ⟨k, f⟩ := g.out; exact ⟨k ++ l, by rw [f, e, List.append_assoc]⟩
  ctxs r c a := (g.ctxs r c a).trans (h.ctxs r c a)
  hif r := (g.hif r).trans (h.hif r)
  mctp r := (g.mctp r).trans (h.mctp r)
  draws r := (g.draws r).trans (h.draws r)
  shop r := (g.shop r).trans (h.shop r)
  bpm r := (g.bpm r).trans (h.bpm r)
  dram r := (g.dram r).trans (h.dram r)
  marks r := (g.marks r).trans (h.marks r)
  ras r := (g.ras r).trans (h.ras r)
  as r := (g.as r).trans (h.as r)
  asMarks r := (g.asMarks r).trans (h.asMarks r)
  boot r := (g.boot r).trans (h.boot r)
  chain r := (g.chain r).trans (h.chain r)
  sec r := (g.sec r).trans (h.sec r)
  vent r := (g.vent r).trans (h.vent r)
  pwr r := (g.pwr r).trans (h.pwr r)
  mgmt r := (g.mgmt r).trans (h.mgmt r)
  slots r := (g.slots r).trans (h.slots r)
  tim r := (g.tim r).trans (h.tim r)
  eng r := (g.eng r).trans (h.eng r)

/-- A frame that lists more is weaker. -/
theorem Dev.Keeps.mono {n : List Part} (h : Dev.Keeps m s t) (hm : ∀ p ∈ m, p ∈ n) : Dev.Keeps n s t where
  regs r o a b c := h.regs (fun x => r (hm _ x)) o (fun x => a (hm _ x)) (fun x => b (hm _ x)) c
  out := h.out
  ctxs r c a := h.ctxs (fun x => r (hm _ x)) c (fun x => a (hm _ x))
  hif r := h.hif fun x => r (hm _ x)
  mctp r := h.mctp fun x => r (hm _ x)
  draws r := h.draws fun x => r (hm _ x)
  shop r := h.shop fun x => r (hm _ x)
  bpm r := h.bpm fun x => r (hm _ x)
  dram r := h.dram fun x => r (hm _ x)
  marks r := h.marks fun x => r (hm _ x)
  ras r := h.ras fun x => r (hm _ x)
  as r := h.as fun x => r (hm _ x)
  asMarks r := h.asMarks fun x => r (hm _ x)
  boot r := h.boot fun x => r (hm _ x)
  chain r := h.chain fun x => r (hm _ x)
  sec r := h.sec fun x => r (hm _ x)
  vent r := h.vent fun x => r (hm _ x)
  pwr r := h.pwr fun x => r (hm _ x)
  mgmt r := h.mgmt fun x => r (hm _ x)
  slots r := h.slots fun x => r (hm _ x)
  tim r := h.tim fun x => r (hm _ x)
  eng r := h.eng fun x => r (hm _ x)

theorem Dev.Keeps.bytes (h : Dev.Keeps m s t) (hd : .dram ∉ m) (ha : .as ∉ m) : Dev.SameBytes s t :=
  ⟨fun a => by simp [Dev.byte, h.dram hd], fun k o => by simp [Dev.asByte, h.as ha]⟩

/-- A register that a frame lets change. -/
def Part.hasReg (m : List Part) (o : Nat) : Prop := .regs ∈ m ∨ .reg o ∈ m ∨ .page (o / 0x1000 * 0x1000) ∈ m ∨ reportReg o = true

/-- A write of a register that the frame names or that reports. -/
theorem Dev.Keeps.setReg (h : Dev.Keeps m s t) (off : Nat) (v : Word) (ho : Part.hasReg m off) :
    Dev.Keeps m s (t.setReg off v) :=
  { h with
    regs := fun r o a b c => by
      have : o ≠ off := by
        rintro rfl; rcases ho with ho | ho | ho | ho
        · exact r ho
        · exact a ho
        · exact b ho
        · simp [ho] at c
      rw [t.reg_setReg_ne v this]; exact h.regs r o a b c }

theorem Part.hasReg.report {o : Nat} (h : reportReg o = true) : Part.hasReg m o := .inr (.inr (.inr h))

theorem Dev.Keeps.setRf (h : Dev.Keeps m s t) (off lo len v : Nat) (ho : Part.hasReg m off) :
    Dev.Keeps m s (t.setRf off lo len v) := h.setReg _ _ ho
theorem Dev.Keeps.setRb (h : Dev.Keeps m s t) (off i : Nat) (b : Bool) (ho : Part.hasReg m off) :
    Dev.Keeps m s (t.setRb off i b) := h.setReg _ _ ho
theorem Dev.Keeps.satInc (h : Dev.Keeps m s t) (off d : Nat) (ho : Part.hasReg m off) :
    Dev.Keeps m s (t.satInc off d) := h.setReg _ _ ho
theorem Dev.Keeps.wrapInc (h : Dev.Keeps m s t) (off d : Nat) (ho : Part.hasReg m off) :
    Dev.Keeps m s (t.wrapInc off d) := h.setReg _ _ ho
theorem Dev.Keeps.satFld (h : Dev.Keeps m s t) (off lo len d : Nat) (ho : Part.hasReg m off) :
    Dev.Keeps m s (t.satFld off lo len d) := h.setReg _ _ ho
theorem Dev.Keeps.maxReg (h : Dev.Keeps m s t) (off v : Nat) (ho : Part.hasReg m off) :
    Dev.Keeps m s (t.maxReg off v) := by
  unfold Dev.maxReg; split
  · exact h.setReg _ _ ho
  · exact h

theorem Dev.Keeps.emit (h : Dev.Keeps m s t) (o : Out) : Dev.Keeps m s (t.emit o) :=
  { h with out := by obtain ⟨l, e⟩ := h.out; exact ⟨o :: l, by simp [Dev.emit, e]⟩ }

theorem reportReg_perf (page i : Nat) (hp : page % 0x1000 = 0) (hi : i < 16) : reportReg (page + R.perf i) = true := by
  have : (page + R.perf i) % 0x1000 = 0x40 + 4 * i := by simp only [R.perf]; omega
  simp [reportReg, this]; omega

theorem reportReg_irqStat (page : Nat) (hp : page % 0x1000 = 0) : reportReg (page + R.irqStat) = true := by
  have : (page + R.irqStat) % 0x1000 = 0x18 := by simp only [R.irqStat]; omega
  simp [reportReg, this]

theorem reportReg_capt (page i : Nat) (hp : page % 0x1000 = 0) (hi : i < 6) : reportReg (page + R.capt i) = true := by
  have : (page + R.capt i) % 0x1000 = 0x28 + 4 * i := by simp only [R.capt]; omega
  simp [reportReg, this]; omega

theorem reportReg_ringCnt (c r : Nat) (hr : r < 4) : reportReg (R.ctxRingCnt c r) = true := by
  have h1 : R.ctxRingCnt c r % 0x4000 = 0x11C + 0x10 * r := by simp only [R.ctxRingCnt]; omega
  have h2 : 0x400000 ≤ R.ctxRingCnt c r := by simp only [R.ctxRingCnt]; omega
  simp only [reportReg, h1, h2]
  have : r = 0 ∨ r = 1 ∨ r = 2 ∨ r = 3 := by omega
  rcases this with rfl | rfl | rfl | rfl <;> simp

theorem reportReg_fullCnt (c : Nat) : reportReg (R.ctxFullCnt c) = true := by
  have h1 : R.ctxFullCnt c % 0x4000 = 0x15C := by simp only [R.ctxFullCnt]; omega
  have h2 : 0x400000 ≤ R.ctxFullCnt c := by simp only [R.ctxFullCnt]; omega
  simp [reportReg, h1, h2]

theorem Dev.Keeps.perf (h : Dev.Keeps m s t) (page i d : Nat) (hp : page % 0x1000 = 0) (hi : i < 16) :
    Dev.Keeps m s (t.perf page i d) := by
  unfold Dev.perf; split
  · exact h
  · exact h.wrapInc _ _ (Part.hasReg.report (reportReg_perf page i hp hi))

theorem Dev.Keeps.capture (h : Dev.Keeps m s t) (page code ctx addr detail : Nat) (hp : page % 0x1000 = 0) :
    Dev.Keeps m s (t.capture page code ctx addr detail) := by
  unfold Dev.capture; split
  · exact h.satFld _ _ _ _ (Part.hasReg.report (reportReg_capt page 5 hp (by omega)))
  · exact (((((h.setReg _ _ (Part.hasReg.report (reportReg_capt page 0 hp (by omega)))).setReg _ _ (Part.hasReg.report (reportReg_capt page 1 hp (by omega)))).setReg
      _ _ (Part.hasReg.report (reportReg_capt page 2 hp (by omega)))).setReg _ _ (Part.hasReg.report (reportReg_capt page 3 hp (by omega)))).setReg
      _ _ (Part.hasReg.report (reportReg_capt page 4 hp (by omega)))).setReg _ _ (Part.hasReg.report (reportReg_capt page 5 hp (by omega)))

/-! ### The ports -/

theorem Dev.Keeps.setGlk (h : Dev.Keeps m s t) (p : Nat) (g : Glk) : Dev.Keeps m s (t.setGlk p g) := by
  unfold Dev.setGlk; split <;> exact { h with }

theorem Dev.Keeps.wire (h : Dev.Keeps m s t) (p : Nat) (f : Frame) : Dev.Keeps m s (t.wire p f) :=
  ((h.emit _).perf _ _ _ (by simp only [glkPage]; omega) (by omega)).perf _ _ _ (by simp only [glkPage]; omega) (by omega)

theorem Dev.Keeps.glkPump (h : Dev.Keeps m s t) (p fuel : Nat) : Dev.Keeps m s (t.glkPump p fuel) := by
  induction fuel generalizing t with
  | zero => exact h
  | succ n ih =>
    unfold Dev.glkPump
    simp only
    split
    · exact h
    · split
      · exact ih ((h.setGlk _ _).wire _ _)
      · exact ih ((h.setGlk _ _).wire _ _)

theorem Dev.Keeps.glkSend (h : Dev.Keeps m s t) (p : Nat) (f : Frame) : Dev.Keeps m s (t.glkSend p f) :=
  (h.setGlk _ _).glkPump _ _

theorem Dev.Keeps.chainSend (h : Dev.Keeps m s t) (f : Frame) : Dev.Keeps m s (t.chainSend f) := by
  unfold Dev.chainSend
  simp only
  split
  · exact h.glkSend _ _
  · exact h.satInc _ _ (Part.hasReg.report (by decide))

theorem Dev.Keeps.fwSend (h : Dev.Keeps m s t) (u : Nat) (x : FwMsg) : Dev.Keeps m s (t.fwSend u x) := h.chainSend _

theorem Dev.Keeps.fwSends (h : Dev.Keeps m s t) (l : List Nat) (x : FwMsg) :
    Dev.Keeps m s (l.foldl (fun (s : Dev) u => s.fwSend u x) t) := by
  induction l generalizing t with
  | nil => exact h
  | cons x r ih => exact ih (h.fwSend _ _)

/-! ### The host link -/

theorem Dev.Keeps.tlp (h : Dev.Keeps m s t) (o : Out) : Dev.Keeps m s (t.tlp o) :=
  (h.setRf _ _ _ _ (Part.hasReg.report (by decide))).emit _

theorem Dev.Keeps.waitQ (h : Dev.Keeps m s t) (l : List HifOp) :
    Dev.Keeps m s { t with hif := { t.hif with waitQ := l } } := { h with hif := h.hif }

theorem Dev.Keeps.hostWr (h : Dev.Keeps m s t) (fn addr : Nat) (data : List Byte) : Dev.Keeps m s (t.hostWr fn addr data) := by
  unfold Dev.hostWr; split
  · exact h.waitQ _
  · exact h.tlp _

theorem Dev.Keeps.msixOut (h : Dev.Keeps m s t) (fn vec : Nat) : Dev.Keeps m s (t.msixOut fn vec) := by
  unfold Dev.msixOut
  simp only
  split
  · exact h
  · split
    · exact { h with hif := h.hif }
    · exact h.tlp _

theorem Dev.Keeps.msix (h : Dev.Keeps m s t) (fn vec : Nat) : Dev.Keeps m s (t.msix fn vec) := by
  unfold Dev.msix; split
  · exact h.waitQ _
  · exact h.msixOut _ _

theorem Dev.Keeps.ltrUpdate (h : Dev.Keeps m s t) : Dev.Keeps m s t.ltrUpdate := by
  unfold Dev.ltrUpdate
  simp only
  split
  · exact h
  · exact Dev.Keeps.tlp (t := { t with hif := { t.hif with ltr := t.ltrCond } }) { h with hif := h.hif } _

/-! ### Interrupts and alerts -/

theorem Dev.Keeps.irqMsg (h : Dev.Keeps m s t) (page : Nat) : Dev.Keeps m s (t.irqMsg page) := by
  have key : ∀ {u : Dev}, Dev.Keeps m s u → ∀ a b c : Nat,
      Dev.Keeps m s (if 2 ≤ a then (if u.isMgr then u.msix 0 b else u.fwSend 0 (.irq c)) else u) := by
    intro u hu a b c
    split
    · split
      · exact hu.msix _ _
      · exact hu.fwSend _ _
    · exact hu
  unfold Dev.irqMsg
  exact key (by split <;> first | exact h.emit _ | exact h) _ _ _

theorem Dev.Keeps.irq (h : Dev.Keeps m s t) (page i : Nat) (hp : page % 0x1000 = 0) : Dev.Keeps m s (t.irq page i) := by
  unfold Dev.irq
  have h1 := h.setRb (page + R.irqStat) i true (Part.hasReg.report (reportReg_irqStat page hp))
  simp only
  split
  · exact h1.irqMsg _
  · exact h1

theorem Dev.Keeps.alertPin (h : Dev.Keeps m s t) (b : Bool) : Dev.Keeps m s (t.alertPin b) := by
  unfold Dev.alertPin
  split
  · exact { h.emit _ with mctp := h.mctp }
  · split
    · exact { h.emit _ with mctp := h.mctp }
    · exact h

theorem Dev.Keeps.alert (h : Dev.Keeps m s t) (n : Nm) : Dev.Keeps m s (t.alert n) := by
  have key : ∀ (l : List Nat) (u : Dev), Dev.Keeps m s u →
      Dev.Keeps m s (l.foldl (fun (s : Dev) i => s.setRb R.topAlertStat i true) u) := by
    intro l
    induction l with
    | nil => exact fun _ h => h
    | cons x r ih => exact fun u h => ih _ (h.setRb _ _ _ (Part.hasReg.report (by decide)))
  unfold Dev.alert
  split
  · exact h
  · exact Dev.Keeps.alertPin (key _ _ h) _

/-! ### A field that the frame lists -/

theorem Dev.Keeps.put_draws (h : Dev.Keeps m s t) (hm : .draws ∈ m) (x : Nat) : Dev.Keeps m s { t with draws := x } :=
  { h with draws := fun r => absurd hm r }

theorem Dev.Keeps.put_shop (h : Dev.Keeps m s t) (hm : .shop ∈ m) (x : Nat) : Dev.Keeps m s { t with shop := x } :=
  { h with shop := fun r => absurd hm r }

theorem Dev.Keeps.put_bpm (h : Dev.Keeps m s t) (hm : .bpm ∈ m) (x : Bpm) : Dev.Keeps m s { t with bpm := x } :=
  { h with bpm := fun r => absurd hm r }

theorem Dev.Keeps.put_dram (h : Dev.Keeps m s t) (hm : .dram ∈ m) (x : Tab Byte) : Dev.Keeps m s { t with dram := x } :=
  { h with dram := fun r => absurd hm r }

theorem Dev.Keeps.put_marks (h : Dev.Keeps m s t) (hm : .marks ∈ m) (x : Tab SecMark) : Dev.Keeps m s { t with marks := x } :=
  { h with marks := fun r => absurd hm r }

theorem Dev.Keeps.put_ras (h : Dev.Keeps m s t) (hm : .ras ∈ m) (x : Ras) : Dev.Keeps m s { t with ras := x } :=
  { h with ras := fun r => absurd hm r }

theorem Dev.Keeps.put_as (h : Dev.Keeps m s t) (hm : .as ∈ m) (x : Tab Byte) : Dev.Keeps m s { t with as := x } :=
  { h with as := fun r => absurd hm r }

theorem Dev.Keeps.put_asMarks (h : Dev.Keeps m s t) (hm : .asMarks ∈ m) (x : Tab SecMark) : Dev.Keeps m s { t with asMarks := x } :=
  { h with asMarks := fun r => absurd hm r }

theorem Dev.Keeps.put_boot (h : Dev.Keeps m s t) (hm : .boot ∈ m) (x : Boot) : Dev.Keeps m s { t with boot := x } :=
  { h with boot := fun r => absurd hm r }

theorem Dev.Keeps.put_chain (h : Dev.Keeps m s t) (hm : .chain ∈ m) (x : Chain) : Dev.Keeps m s { t with chain := x } :=
  { h with chain := fun r => absurd hm r }

theorem Dev.Keeps.put_sec (h : Dev.Keeps m s t) (hm : .sec ∈ m) (x : Sec) : Dev.Keeps m s { t with sec := x } :=
  { h with sec := fun r => absurd hm r }

theorem Dev.Keeps.put_vent (h : Dev.Keeps m s t) (hm : .vent ∈ m) (x : Vent) : Dev.Keeps m s { t with vent := x } :=
  { h with vent := fun r => absurd hm r }

theorem Dev.Keeps.put_pwr (h : Dev.Keeps m s t) (hm : .pwr ∈ m) (x : Pwr) : Dev.Keeps m s { t with pwr := x } :=
  { h with pwr := fun r => absurd hm r }

theorem Dev.Keeps.put_mgmt (h : Dev.Keeps m s t) (hm : .mgmt ∈ m) (x : Mgmt) : Dev.Keeps m s { t with mgmt := x } :=
  { h with mgmt := fun r => absurd hm r }

theorem Dev.Keeps.put_slots (h : Dev.Keeps m s t) (hm : .slots ∈ m) (x : Tab Nat) : Dev.Keeps m s { t with slots := x } :=
  { h with slots := fun r => absurd hm r }

theorem Dev.Keeps.put_tim (h : Dev.Keeps m s t) (hm : .tim ∈ m) (x : Tim) : Dev.Keeps m s { t with tim := x } :=
  { h with tim := fun r => absurd hm r }

theorem Dev.Keeps.put_eng (h : Dev.Keeps m s t) (hm : .eng ∈ m) (x : Eng) : Dev.Keeps m s { t with eng := x } :=
  { h with eng := fun r => absurd hm r }

theorem Dev.Keeps.put_hif (h : Dev.Keeps m s t) (hm : .hif ∈ m) (x : Hif) : Dev.Keeps m s { t with hif := x } :=
  { h with hif := fun r => absurd hm r }

theorem Dev.Keeps.put_mctp (h : Dev.Keeps m s t) (hm : .mctp ∈ m) (x : Mctp) : Dev.Keeps m s { t with mctp := x } :=
  { h with mctp := fun r => absurd hm r }

/-! ### Rings and events -/

theorem Dev.Keeps.setCtx (h : Dev.Keeps m s t) (c : Nat) (x : Ctx)
    (hx : .ctxs ∈ m ∨ .ctx c ∈ m ∨ x.still = (t.ctx c).still) : Dev.Keeps m s (t.setCtx c x) :=
  { h with
    regs := h.regs
    ctxs := fun r e k => by
      by_cases he : e = c
      · subst he
        rw [t.ctx_setCtx_same]
        rcases hx with hx | hx | hx
        · exact absurd hx r
        · exact absurd hx k
        · exact hx.trans (h.ctxs r e k)
      · rw [t.ctx_setCtx_ne x he]; exact h.ctxs r e k }

theorem Dev.Keeps.ctxMsg (h : Dev.Keeps m s t) (c : Nat) : Dev.Keeps m s (t.ctxMsg c) := by
  exact (h.setCtx c { t.ctx c with un1 := 0, un2 := 0, un3 := 0 } (.inr (.inr rfl))).msix _ _

theorem Dev.Keeps.moderate (h : Dev.Keeps m s t) (c r : Nat) (b : Bool) : Dev.Keeps m s (t.moderate c r b) := by
  unfold Dev.moderate
  simp only
  split
  · exact h
  · split
    · exact h.ctxMsg c
    · exact h

theorem Ctx.still_unInc (x : Ctx) (r : Nat) : (x.unInc r).still = x.still := by
  unfold Ctx.unInc; split
  · rfl
  · split <;> rfl

theorem ctxPage_mod (c : Nat) : ctxPage c % 0x1000 = 0 := by simp only [ctxPage]; omega

theorem Dev.Keeps.ringPut (h : Dev.Keeps m s t) (c r : Nat) (rec : Nat → List Word) (b : Bool) (hr : r < 4) :
    Dev.Keeps m s (t.ringPut c r rec b) := by
  unfold Dev.ringPut
  have h1 := (h.hostWr (t.ctxVec c).1 (t.ringBase c r + t.rn (R.ctxRingCnt c r) % t.ringLen c r *
    (bytesOfWords (rec (t.phase c r (t.rn (R.ctxRingCnt c r))))).length)
    (bytesOfWords (rec (t.phase c r (t.rn (R.ctxRingCnt c r)))))).setReg (R.ctxRingCnt c r)
      (Word.ofNat (t.rn (R.ctxRingCnt c r) + 1)) (Part.hasReg.report (reportReg_ringCnt c r hr))
  have h2 := h1.setCtx c _ (.inr (.inr (Ctx.still_unInc _ r)))
  refine Dev.Keeps.moderate ?_ c r b
  split
  · exact (h2.satFld _ _ _ _ (Part.hasReg.report (reportReg_fullCnt c))).irq _ _ (ctxPage_mod c)
  · exact h2

theorem Dev.Keeps.eventPut (h : Dev.Keeps m s t) (c : Nat) (e : Event) : Dev.Keeps m s (t.eventPut c e) := by
  unfold Dev.eventPut
  simp only
  refine Dev.Keeps.ringPut ?_ c 2 _ _ (by omega)
  exact { h with }

theorem Dev.Keeps.stage (h : Dev.Keeps m s t) (ring : Nat) (e : Event) : Dev.Keeps m s (t.stage ring e) := by
  unfold Dev.stage
  simp only
  split <;> exact { h with }

theorem Dev.Keeps.toRing (h : Dev.Keeps m s t) (ring : Nat) (e : Event) : Dev.Keeps m s (t.toRing ring e) := by
  unfold Dev.toRing
  split
  · split
    · exact h.eventPut _ _
    · exact h
  · exact h.stage _ _

theorem Dev.Keeps.routeEvent (h : Dev.Keeps m s t) (e : Event) : Dev.Keeps m s (t.routeEvent e) := by
  unfold Dev.routeEvent
  have h1 := h.alert e.nm
  generalize t.evRings e = l
  generalize t.alert e.nm = v at h1
  clear h
  induction l generalizing v with
  | nil => exact h1
  | cons x r ih => exact ih _ (h1.toRing x e)

/-- Raising an event only reports. -/
theorem Dev.Keeps.raise (h : Dev.Keeps m s t) (e : Event) : Dev.Keeps m s (t.raise e) := by
  unfold Dev.raise
  simp only
  split
  · exact h.routeEvent _
  · exact (h.alert _).fwSend _ _

/-- A listed page frees its registers. -/
theorem Part.hasReg.page {o : Nat} (p : Nat) (hp : o / 0x1000 * 0x1000 = p) (h : .page p ∈ m) : Part.hasReg m o :=
  .inr (.inr (.inl (hp ▸ h)))

/-- A frame holds over a fold whose steps keep it. -/
theorem Dev.Keeps.foldl {α : Type} (f : Dev → α → Dev) (l : List α) (h : Dev.Keeps m s t)
    (hf : ∀ u a, a ∈ l → Dev.Keeps m s u → Dev.Keeps m s (f u a)) : Dev.Keeps m s (l.foldl f t) := by
  induction l generalizing t with
  | nil => exact h
  | cons x r ih => exact ih (hf _ _ (by simp) h) (fun u a ha => hf u a (by simp [ha]))

end Sys2Proof.Machine
end

