-- ==== Sys2Proof/Laws/Mem.lean ====
section
/-! SUPPORT. What the operations on DRAM and on the activation stores do: the bytes they write, the bytes they leave, and that
they keep the canonical form. -/

namespace Sys2Proof.Machine

/-! ### Stores of bytes -/

theorem get_storeBytes_below (m : Tab Byte) (a : Nat) (bs : List Byte) {k : Nat} (h : k < a) :
    Tab.get (fun _ => 0) (storeBytes m a bs) k = Tab.get (fun _ => 0) m k := by
  induction bs generalizing m a with
  | nil => rfl
  | cons b r ih =>
    simp only [storeBytes]
    rw [ih _ _ (by omega), Tab.get_set_ne _ _ _ (by omega)]

theorem get_storeBytes_above (m : Tab Byte) (a : Nat) (bs : List Byte) {k : Nat} (h : a + bs.length ≤ k) :
    Tab.get (fun _ => 0) (storeBytes m a bs) k = Tab.get (fun _ => 0) m k := by
  induction bs generalizing m a with
  | nil => rfl
  | cons b r ih =>
    simp only [List.length_cons] at h
    simp only [storeBytes]
    rw [ih _ _ (by omega), Tab.get_set_ne _ _ _ (by omega)]

theorem get_storeBytes_in (m : Tab Byte) (a : Nat) (bs : List Byte) {i : Nat} (h : i < bs.length) :
    Tab.get (fun _ => 0) (storeBytes m a bs) (a + i) = bs[i] := by
  induction bs generalizing m a i with
  | nil => simp at h
  | cons b r ih =>
    simp only [storeBytes]
    cases i with
    | zero => rw [get_storeBytes_below _ _ _ (by omega), Nat.add_zero, Tab.get_set_same]; rfl
    | succ j =>
      have : a + (j + 1) = a + 1 + j := by omega
      rw [this, ih (h := by simpa using h)]; rfl

theorem wf_storeBytes (m : Tab Byte) (a : Nat) (bs : List Byte) (h : Memory.wf m = true) : Memory.wf (storeBytes m a bs) = true := by
  induction bs generalizing m a with
  | nil => exact h
  | cons b r ih => exact ih _ _ (Tab.wf_set _ _ _ _ h)

theorem wf_filter_memory (m : Tab Byte) (p : Nat × Byte → Bool) (h : Memory.wf m = true) : Memory.wf (m.filter p) = true :=
  Tab.wf_filter _ _ _ h

/-- Every byte outside a store reads as before. -/
theorem Dev.byte_putBytes_out (s : Dev) (a : Nat) (bs : List Byte) {k : Nat} (h : k < a ∨ a + bs.length ≤ k) :
    (s.putBytes a bs).byte k = s.byte k := by
  rcases h with h | h
  · exact get_storeBytes_below _ _ _ h
  · exact get_storeBytes_above _ _ _ h

/-- A byte inside a store reads what was stored. -/
theorem Dev.byte_putBytes_in (s : Dev) (a : Nat) (bs : List Byte) {i : Nat} (h : i < bs.length) :
    (s.putBytes a bs).byte (a + i) = bs[i] := get_storeBytes_in _ _ _ h

/-- What was stored reads back. -/
theorem Dev.bytes_putBytes (s : Dev) (a : Nat) (bs : List Byte) : (s.putBytes a bs).bytes a bs.length = bs := by
  apply List.ext_getElem
  · simp [Dev.bytes]
  · intro i h1 h2
    simp only [Dev.bytes, List.getElem_map, List.getElem_range]
    exact s.byte_putBytes_in a bs h2

theorem Dev.asByte_asPutBytes_out (s : Dev) (k o : Nat) (bs : List Byte) {j i : Nat}
    (h : j * 2 ^ 23 + i < k * 2 ^ 23 + o ∨ k * 2 ^ 23 + o + bs.length ≤ j * 2 ^ 23 + i) :
    (s.asPutBytes k o bs).asByte j i = s.asByte j i := by
  rcases h with h | h
  · exact get_storeBytes_below _ _ _ h
  · exact get_storeBytes_above _ _ _ h

theorem Dev.asByte_asPutBytes_in (s : Dev) (k o : Nat) (bs : List Byte) {i : Nat} (h : i < bs.length) :
    (s.asPutBytes k o bs).asByte k (o + i) = bs[i] := by
  have := get_storeBytes_in s.as (k * 2 ^ 23 + o) bs h
  simpa [Dev.asByte, Dev.asPutBytes, Nat.add_assoc] using this

/-! ### Every memory operation keeps the canonical form -/

theorem Dev.memWf_iff (s : Dev) : s.memWf = true ↔ Memory.wf s.dram = true ∧ Memory.wf s.as = true := by
  simp [Dev.memWf, Bool.and_eq_true]

theorem Dev.memWf_putBytes (s : Dev) (a : Nat) (bs : List Byte) (h : s.memWf = true) : (s.putBytes a bs).memWf = true := by
  rw [Dev.memWf_iff] at *; exact ⟨wf_storeBytes _ _ _ h.1, h.2⟩

theorem Dev.memWf_asPutBytes (s : Dev) (k o : Nat) (bs : List Byte) (h : s.memWf = true) : (s.asPutBytes k o bs).memWf = true := by
  rw [Dev.memWf_iff] at *; exact ⟨h.1, wf_storeBytes _ _ _ h.2⟩

theorem Dev.memWf_asZero (s : Dev) (k o n : Nat) (h : s.memWf = true) : (s.asZero k o n).memWf = true := by
  rw [Dev.memWf_iff] at *; exact ⟨h.1, wf_filter_memory _ _ h.2⟩

theorem Dev.takeInj_dram (s : Dev) (i : Nat) : (s.takeInj i).2.dram = s.dram := by unfold Dev.takeInj; simp only; split <;> rfl
theorem Dev.takeInj_as (s : Dev) (i : Nat) : (s.takeInj i).2.as = s.as := by unfold Dev.takeInj; simp only; split <;> rfl

theorem Dev.memZero_dram (s : Dev) (a n : Nat) : (s.memZero a n).dram = s.dram.filter fun x => x.1 < a || a + n ≤ x.1 := by
  unfold Dev.memZero
  simp only
  split
  · simp [Dev.takeInj_dram]
  · rfl

theorem Dev.memZero_as (s : Dev) (a n : Nat) : (s.memZero a n).as = s.as := by
  unfold Dev.memZero
  simp only
  split
  · simp [Dev.takeInj_as]
  · rfl

theorem Dev.memWf_memZero (s : Dev) (a n : Nat) (h : s.memWf = true) : (s.memZero a n).memWf = true := by
  rw [Dev.memWf_iff] at *
  rw [s.memZero_dram, s.memZero_as]
  exact ⟨wf_filter_memory _ _ h.1, h.2⟩

theorem get_filter_out (m : Tab Byte) (a n : Nat) {k : Nat} (h : k < a ∨ a + n ≤ k) :
    Tab.get (fun _ => 0) (m.filter fun x => x.1 < a || a + n ≤ x.1) k = Tab.get (fun _ => 0) m k := by
  induction m with
  | nil => rfl
  | cons x r ih =>
    obtain ⟨j, v⟩ := x
    simp only [List.filter_cons]
    split
    · simp only [Tab.get, ih]
    · rename_i hx
      simp only [Bool.or_eq_true, decide_eq_true_eq, not_or, not_lt, not_le] at hx
      have : k ≠ j := by omega
      simp only [Tab.get, this, if_false, ih]

theorem get_filter_in (m : Tab Byte) (a n : Nat) {k : Nat} (h1 : a ≤ k) (h2 : k < a + n) :
    Tab.get (fun _ => 0) (m.filter fun x => x.1 < a || a + n ≤ x.1) k = 0 := by
  induction m with
  | nil => rfl
  | cons x r ih =>
    obtain ⟨j, v⟩ := x
    simp only [List.filter_cons]
    split
    · rename_i hx
      simp only [Bool.or_eq_true, decide_eq_true_eq] at hx
      have : k ≠ j := by omega
      simp only [Tab.get, this, if_false, ih]
    · exact ih

/-- A zeroised byte reads 0, every other byte as before. -/
theorem Dev.byte_memZero (s : Dev) (a n k : Nat) : (s.memZero a n).byte k = if a ≤ k ∧ k < a + n then 0 else s.byte k := by
  simp only [Dev.byte, s.memZero_dram]
  split
  · rename_i h; exact get_filter_in _ _ _ h.1 h.2
  · exact get_filter_out _ _ _ (by omega)

theorem Dev.byte_asZero (s : Dev) (k o n i : Nat) :
    (s.asZero k o n).asByte k i = if o ≤ i ∧ i < o + n then 0 else s.asByte k i := by
  simp only [Dev.asByte, Dev.asZero]
  split
  · exact get_filter_in _ _ _ (by omega) (by omega)
  · exact get_filter_out _ _ _ (by omega)

end Sys2Proof.Machine
end

