-- ==== Sys2Proof/Laws/Store.lean ====
section
/-! SUPPORT. DRAM through inline ECC where every sector is sound: a demand read finds no error and changes counters alone, a write puts
its bytes and leaves every sector sound. -/

namespace Sys2Proof.Machine

variable {m : List Part} {s t : Dev}

/-- A frame that names neither the code words nor RAS_INJ_CTL keeps a sound DRAM sound. -/
theorem Dev.Keeps.sound (h : Dev.Keeps m s t) (hs : s.Sound) (h1 : .marks ∉ m) (h2 : .regs ∉ m) (h3 : .reg R.rasInjCtl ∉ m)
    (h4 : .page 0x18000 ∉ m) : t.Sound := by
  refine ⟨(h.marks h1).trans hs.1, ?_⟩
  have e : t.reg R.rasInjCtl = s.reg R.rasInjCtl := h.regs h2 _ h3 h4 (by decide)
  have g := hs.2
  unfold Dev.rf at g ⊢
  rw [e]; exact g

theorem memcPage_mod (k : Nat) : memcPage k % 0x1000 = 0 := by unfold memcPage; omega

/-- A demand read of a sound sector counts a read. -/
theorem Dev.secRd_sound (hs : s.Sound) (i c : Nat) : s.secRd i c = (false, s.perf (memcPage (chanOf (i * 32))) 0 1) := by
  simp [Dev.secRd, Dev.mark, hs.1, Tab.get]

theorem foldl_secRd_sound (c : Nat) (l : List Nat) :
    ∀ {t : Dev}, Dev.Keeps [] s t → s.Sound →
      ∃ u, l.foldl (fun (x : Bool × Dev) i => ((x.1 || (x.2.secRd i c).1), (x.2.secRd i c).2)) (false, t) = (false, u) ∧ Dev.Keeps [] s u := by
  induction l with
  | nil => exact fun h _ => ⟨_, rfl, h⟩
  | cons i l ih =>
    intro t h hs
    have ht : t.Sound := h.sound hs (by simp) (by simp) (by simp) (by simp)
    obtain ⟨u, e, k⟩ := ih (h.perf (memcPage (chanOf (i * 32))) 0 1 (memcPage_mod _) (by decide)) hs
    exact ⟨u, by simpa [Dev.secRd_sound ht] using e, k⟩

/-- A demand read of sound DRAM: no error, the bytes as they stand, counters alone changed. -/
theorem Dev.memRd_sound (hs : s.Sound) (c a n : Nat) : ∃ u, s.memRd c a n = (false, s.bytes a n, u) ∧ Dev.Keeps [] s u := by
  obtain ⟨u, e, k⟩ := foldl_secRd_sound c (sectors a n) (Dev.Keeps.refl [] s) hs
  exact ⟨u, by simp [Dev.memRd, e], k⟩

/-- A write of a sound sector counts and leaves it sound. -/
theorem Dev.secWr_sound (hs : s.Sound) (i c : Nat) (whole : Bool) :
    s.secWr i c whole false = s.perf (memcPage (chanOf (i * 32))) (if whole then 1 else 2) 1 := by
  generalize hp : s.perf (memcPage (chanOf (i * 32))) (if whole then 1 else 2) 1 = t
  have hk : Dev.Keeps [] s t := by
    subst hp; exact (Dev.Keeps.refl _ _).perf _ _ _ (memcPage_mod _) (by split <;> decide)
  have ht : t.Sound := hk.sound hs (by simp) (by simp) (by simp) (by simp)
  have ei : t.takeInj i = (0, t) := by simp [Dev.takeInj, ht.2]
  have em : t.setMark i .ok = t := by
    have : Tab.set (fun _ => SecMark.ok) t.marks i .ok = t.marks := by simp [ht.1, Tab.set, Tab.del]
    simp [Dev.setMark, this]
  unfold Dev.secWr
  simp only [hp, ei]
  cases whole <;> simp [injMark, em, Dev.mark, ht.1, Tab.get]

theorem foldl_secWr_sound (c : Nat) (w : Nat → Bool) (l : List Nat) :
    ∀ {t : Dev}, Dev.Keeps [] s t → s.Sound → Dev.Keeps [] s (l.foldl (fun t i => t.secWr i c (w i) false) t) := by
  induction l with
  | nil => exact fun h _ => h
  | cons i l ih =>
    intro t h hs
    have ht : t.Sound := h.sound hs (by simp) (by simp) (by simp) (by simp)
    rw [List.foldl_cons, Dev.secWr_sound ht]
    exact ih (h.perf _ _ _ (memcPage_mod _) (by split <;> decide)) hs

/-- A write of sound DRAM: its bytes are put, counters change, and nothing else. -/
theorem Dev.memWr_sound (hs : s.Sound) (c a : Nat) (bs : List Byte) :
    ∃ u, s.memWr c a bs false = u.putBytes a bs ∧ Dev.Keeps [] s u :=
  ⟨_, rfl, foldl_secWr_sound c _ _ (Dev.Keeps.refl [] s) hs⟩

theorem Dev.Keeps.memWr_sound (hs : s.Sound) (c a : Nat) (bs : List Byte) : Dev.Keeps [.dram] s (s.memWr c a bs false) := by
  obtain ⟨u, e, k⟩ := s.memWr_sound hs c a bs
  rw [e]
  exact (k.mono (by simp)).put_dram (by simp) _

/-- What is read after a write to sound DRAM: the bytes written, and every other byte as it was. -/
theorem Dev.bytes_memWr (hs : s.Sound) (c a : Nat) (bs : List Byte) : (s.memWr c a bs false).bytes a bs.length = bs := by
  obtain ⟨u, e, k⟩ := s.memWr_sound hs c a bs
  rw [e]; exact u.bytes_putBytes a bs

theorem Dev.byte_memWr_out (hs : s.Sound) (c a : Nat) (bs : List Byte) {k : Nat} (h : k < a ∨ a + bs.length ≤ k) :
    (s.memWr c a bs false).byte k = s.byte k := by
  obtain ⟨u, e, g⟩ := s.memWr_sound hs c a bs
  rw [e, u.byte_putBytes_out a bs h]
  simp [Dev.byte, g.dram]

end Sys2Proof.Machine
end

