-- ==== Sys2Proof/Laws/Ras.lean ====
section
/-! SUPPORT. The frames of demand accesses to DRAM in any state: besides bytes and code words they change registers, and through RAS the
buffers, the retirement table and its copy in flash. -/

namespace Sys2Proof.Machine

variable {m : List Part} {s t : Dev}

/-- A frame that lets RAS act on an error: registers, buffers, the retirement table and its copy. -/
structure RasMay (m : List Part) : Prop where
  regs : .regs ∈ m
  bpm : .bpm ∈ m
  ras : .ras ∈ m
  mgmt : .mgmt ∈ m

/-- A choice between two units that keep the frame keeps it. -/
theorem Dev.Keeps.ite {c : Prop} [Decidable c] {u : Dev} (h : Dev.Keeps m s t) (g : Dev.Keeps m s u) : Dev.Keeps m s (if c then t else u) := by
  split
  · exact h
  · exact g

theorem RasMay.reg (r : RasMay m) (o : Nat) : Part.hasReg m o := .inl r.regs

/-- An update of the buffer pool manager and of one register. -/
theorem Dev.Keeps.setBuf (h : Dev.Keeps m s t) (hm : .bpm ∈ m) (p i : Nat) (b : Buf) : Dev.Keeps m s (t.setBuf p i b) := h.put_bpm hm _
theorem Dev.Keeps.setPool (h : Dev.Keeps m s t) (hm : .bpm ∈ m) (p : Nat) (x : Pool) : Dev.Keeps m s (t.setPool p x) := h.put_bpm hm _

theorem Dev.Keeps.setTable (h : Dev.Keeps m s t) (r : RasMay m) (x : Tab Nat) : Dev.Keeps m s (t.setTable x) :=
  { h with ras := fun q => absurd r.ras q, mgmt := fun q => absurd r.mgmt q }

theorem Dev.Keeps.checkShort (h : Dev.Keeps m s t) (r : RasMay m) (p : Nat) : Dev.Keeps m s (t.checkShort p) := by
  unfold Dev.checkShort; split
  · exact (h.setRb _ _ _ (r.reg _)).irq _ _ (by decide)
  · exact h

theorem Dev.Keeps.retireBuf (h : Dev.Keeps m s t) (r : RasMay m) (p i : Nat) : Dev.Keeps m s (t.retireBuf p i) :=
  (((h.setPool r.bpm _ _).setBuf r.bpm _ _ _).setReg _ _ (r.reg _)).checkShort r p

theorem Dev.Keeps.retirePage (h : Dev.Keeps m s t) (r : RasMay m) (page : Nat) : Dev.Keeps m s (t.retirePage page) := by
  unfold Dev.retirePage
  refine h.foldl _ _ fun d p _ hd => ?_
  split
  · refine hd.foldl _ _ fun d i _ hd => ?_
    split
    · exact hd.retireBuf r _ _
    · exact hd.setBuf r.bpm _ _ _
    · exact hd
  · exact hd

theorem Dev.Keeps.tableAdd (h : Dev.Keeps m s t) (r : RasMay m) (page : Nat) : Dev.Keeps m s (t.tableAdd page) := by
  unfold Dev.tableAdd
  split
  · exact h
  · refine (Dev.Keeps.irq ?_ _ _ (by decide)).raise _
    split
    · exact h.setRb _ _ _ (r.reg _)
    · exact (h.setTable r _).setReg _ _ (r.reg _)

theorem Dev.Keeps.poisonFound (h : Dev.Keeps m s t) (c : Option Nat) (k a : Nat) : Dev.Keeps m s (t.poisonFound c k a) :=
  (h.irq _ _ (by decide)).raise _

theorem Dev.Keeps.tableQuiet (h : Dev.Keeps m s t) (r : RasMay m) (page : Nat) : Dev.Keeps m s (t.tableQuiet page).2 := by
  unfold Dev.tableQuiet
  split
  · exact h
  · split
    · exact h.setRb _ _ _ (r.reg _)
    · exact (h.setTable r _).setReg _ _ (r.reg _)

/-- What RAS does about an uncorrectable error. -/
theorem Dev.Keeps.rasAct (h : Dev.Keeps m s t) (r : RasMay m) (a : Nat) : Dev.Keeps m s (t.rasAct a) := by
  unfold Dev.rasAct
  simp only
  split
  · split
    · exact (h.tableQuiet r _).poisonFound _ _ _
    · exact h.tableQuiet r _
  · split
    · exact (h.tableAdd r _).retirePage r _
    · exact (h.setBuf r.bpm _ _ _).ite ((h.setBuf r.bpm _ _ _).poisonFound _ _ _)
    · exact h

theorem Dev.Keeps.rasCounts (h : Dev.Keeps m s t) (r : RasMay m) : Dev.Keeps m s t.rasCounts :=
  (h.setRf _ _ _ _ (r.reg _)).setRf _ _ _ _ (r.reg _)

theorem Dev.Keeps.rasLookup (h : Dev.Keeps m s t) (r : RasMay m) (a : Nat) (scrub : Bool) : Dev.Keeps m s (t.rasLookup a scrub) := by
  unfold Dev.rasLookup
  split
  · exact h.rasAct r a
  · split
    · refine Dev.Keeps.rasCounts ?_ r
      exact h.put_ras r.ras _
    · split
      · exact h.setRb _ _ _ (r.reg _)
      · exact h.satFld _ _ _ _ (r.reg _)

theorem Dev.Keeps.setMark (h : Dev.Keeps m s t) (hm : .marks ∈ m) (i : Nat) (x : SecMark) : Dev.Keeps m s (t.setMark i x) :=
  h.put_marks hm _

/-- A corrected error on a channel. -/
theorem Dev.Keeps.ce (h : Dev.Keeps m s t) (r : RasMay m) (k : Nat) : Dev.Keeps m s (t.ce k) := by
  have h1 := ((h.satInc (R.memcCeCnt k) 1 (r.reg _)).perf (memcPage k) 6 1 (memcPage_mod k) (by decide)).irq (memcPage k) 0 (memcPage_mod k)
  unfold Dev.ce
  generalize (((t.satInc (R.memcCeCnt k) 1).perf (memcPage k) 6 1).irq (memcPage k) 0) = u at h1
  simp only
  have h2 : ∀ x : Ras, Dev.Keeps m s { u with ras := x } := fun x => h1.put_ras r.ras x
  split <;> split
  · exact ((((h2 _).put_ras r.ras _).put_ras r.ras _).irq _ _ (by decide)).raise _
  · exact (h2 _).put_ras r.ras _
  · exact ((((h1.put_ras r.ras _).put_ras r.ras _).irq _ _ (by decide))).raise _
  · exact h1.put_ras r.ras _

/-- An uncorrectable error met at a sector. -/
theorem Dev.Keeps.ue (h : Dev.Keeps m s t) (r : RasMay m) (hm : .marks ∈ m) (i c : Nat) (scrub : Bool) :
    Dev.Keeps m s (t.ue i c scrub) :=
  ((((h.setMark hm _ _).satInc _ _ (r.reg _)).irq _ _ (memcPage_mod _)).capture _ _ _ _ _ (memcPage_mod _)).rasLookup r _ _

/-- A demand read of a sector. -/
theorem Dev.Keeps.secRd (h : Dev.Keeps m s t) (r : RasMay m) (hm : .marks ∈ m) (i c : Nat) : Dev.Keeps m s (t.secRd i c).2 := by
  have h1 := h.perf (memcPage (chanOf (i * 32))) 0 1 (memcPage_mod _) (by decide)
  unfold Dev.secRd
  simp only
  split
  · exact h1
  · exact (h1.setMark hm _ _).ce r _
  · exact h1.ue r hm _ _ _
  · exact h1

/-- A demand read of DRAM: no byte of memory changes. -/
theorem Dev.Keeps.memRd (h : Dev.Keeps m s t) (r : RasMay m) (hm : .marks ∈ m) (c a n : Nat) : Dev.Keeps m s (t.memRd c a n).2.2 := by
  have aux : ∀ (l : List Nat) (b : Bool) (t : Dev), Dev.Keeps m s t →
      Dev.Keeps m s (l.foldl (fun (x : Bool × Dev) i => ((x.1 || (x.2.secRd i c).1), (x.2.secRd i c).2)) (b, t)).2 := by
    intro l
    induction l with
    | nil => exact fun _ _ h => h
    | cons i l ih => exact fun b t h => ih _ _ (h.secRd r hm i c)
  simpa [Dev.memRd] using aux (sectors a n) false t h

theorem Dev.Keeps.takeInj (h : Dev.Keeps m s t) (r : RasMay m) (i : Nat) : Dev.Keeps m s (t.takeInj i).2 := by
  unfold Dev.takeInj
  simp only
  split
  · exact h.setRf _ _ _ _ (r.reg _)
  · exact h

/-- A write's effect on a sector's code word. -/
theorem Dev.Keeps.secWr (h : Dev.Keeps m s t) (r : RasMay m) (hm : .marks ∈ m) (i c : Nat) (whole poisoned : Bool) :
    Dev.Keeps m s (t.secWr i c whole poisoned) := by
  have h1 := (h.perf (memcPage (chanOf (i * 32))) (if whole then 1 else 2) 1 (memcPage_mod _) (by split <;> decide)).takeInj r i
  unfold Dev.secWr
  simp only
  generalize (t.perf (memcPage (chanOf (i * 32))) (if whole then 1 else 2) 1).takeInj i = x at h1
  refine Dev.Keeps.ite (h1.setMark hm _ _) (Dev.Keeps.ite (h1.setMark hm _ _) ?_)
  split
  · exact h1.setMark hm _ _
  · exact (h1.ce r _).setMark hm _ _
  · exact h1.ue r hm _ _ _
  · exact h1

/-- A write of DRAM: its bytes are put over a unit that kept every byte. -/
theorem Dev.Keeps.memWr (h : Dev.Keeps m s t) (r : RasMay m) (hm : .marks ∈ m) (hd : .dram ∈ m) (c a : Nat) (bs : List Byte) (poisoned : Bool) :
    Dev.Keeps m s (t.memWr c a bs poisoned) := by
  unfold Dev.memWr
  exact (h.foldl _ _ fun d i _ hk => hk.secWr r hm _ _ _ _).put_dram hd _

end Sys2Proof.Machine
end

