-- ==== Sys2Proof/Laws/Bpm.lean ====
section
/-! SUPPORT. The frames of the buffer pool manager's operations: an allocation, a reference taken, a reference released with all that the
freed buffer sets going (zeroisation, retirement, waiters). -/

namespace Sys2Proof.Machine

variable {m : List Part} {s t : Dev}

/-- A frame that lets the BPM act: what RAS may write, the bytes and code words that zeroisation touches, the contexts whose waiting
commands end, the answers to other units. -/
structure BpmMay (m : List Part) : Prop extends RasMay m where
  dram : .dram ∈ m
  marks : .marks ∈ m
  as : .as ∈ m
  asMarks : .asMarks ∈ m
  ctxs : .ctxs ∈ m
  chain : .chain ∈ m

theorem Dev.Keeps.put_ctxs (h : Dev.Keeps m s t) (hm : .ctxs ∈ m) (c : Nat) (x : Ctx) : Dev.Keeps m s (t.setCtx c x) :=
  { h with ctxs := fun r => absurd hm r }

theorem Dev.Keeps.finishRun (h : Dev.Keeps m s t) (hr : .regs ∈ m) (hc : .ctxs ∈ m) (c seq : Nat) (st : Status) (v : Nat) :
    Dev.Keeps m s (t.finishRun c seq st v) := by
  unfold Dev.finishRun
  simp only
  split
  · exact h
  · exact Dev.Keeps.ite ((h.put_ctxs hc _ _).fwSend _ _) (((h.setReg _ _ (.inl hr)).setReg _ _ (.inl hr)).put_ctxs hc _ _)

theorem Dev.Keeps.respond (h : Dev.Keeps m s t) (hm : .chain ∈ m) (src vc txid status : Nat) (p : List Byte) :
    Dev.Keeps m s (t.respond src vc txid status p) := by
  unfold Dev.respond
  refine Dev.Keeps.chainSend ?_ _
  exact h.put_chain hm _

theorem Dev.Keeps.answer (h : Dev.Keeps m s t) (hb : .bpm ∈ m) (hc : .chain ∈ m) (tag : Nat) (st : Status) (v : Nat) :
    Dev.Keeps m s (t.answer tag st v) := by
  unfold Dev.answer
  exact Dev.Keeps.ite (h.respond hc _ _ _ _ _) (h.put_bpm hb _)

theorem Dev.Keeps.takeBuf (h : Dev.Keeps m s t) (hb : .bpm ∈ m) (p rq c : Nat) : Dev.Keeps m s (t.takeBuf p rq c).2 := by
  unfold Dev.takeBuf
  split
  · exact h
  · exact ((h.setPool hb _ _).setBuf hb _ _ _).perf _ _ _ (by decide) (by decide)

theorem Dev.Keeps.ledgerAdd (h : Dev.Keeps m s t) (hb : .bpm ∈ m) (k x : Nat) : Dev.Keeps m s (t.ledgerAdd k x) := by
  unfold Dev.ledgerAdd
  exact Dev.Keeps.ite (h.put_bpm hb _) (h.put_bpm hb _)

theorem Dev.Keeps.ledgerSub (h : Dev.Keeps m s t) (hb : .bpm ∈ m) (k x : Nat) : Dev.Keeps m s (t.ledgerSub k x) := h.put_bpm hb _

/-- An admitted allocation. -/
theorem Dev.Keeps.allocNow (h : Dev.Keeps m s t) (hb : .bpm ∈ m) (p rq c : Nat) (slot : Option Nat) :
    Dev.Keeps m s (t.allocNow p rq c slot).2.2 := by
  unfold Dev.allocNow
  split
  · split
    · exact (h.perf _ _ _ (by decide) (by decide)).irq _ _ (by decide)
    · exact (h.takeBuf hb _ _ _).ledgerAdd hb _ _
  · exact h.takeBuf hb _ _ _

/-- An allocation, at once or as a waiter. -/
theorem Dev.Keeps.allocate (h : Dev.Keeps m s t) (hb : .bpm ∈ m) (p rq c : Nat) (slot : Option Nat) (blocking : Bool) (who : WaitFor) :
    Dev.Keeps m s (t.allocate p rq c slot blocking who).2 := by
  unfold Dev.allocate
  split
  · exact h
  · split
    · exact h.perf _ _ _ (by decide) (by decide)
    · split
      · exact h.allocNow hb _ _ _ _
      · split
        · exact h.perf _ _ _ (by decide) (by decide)
        · split
          · exact h.perf _ _ _ (by decide) (by decide)
          · refine Dev.Keeps.perf ?_ _ _ _ (by decide) (by decide)
            exact h.put_bpm hb _

/-- Waiters served after a buffer came free. -/
theorem Dev.Keeps.serve (r : BpmMay m) (p fuel : Nat) : ∀ {t : Dev}, Dev.Keeps m s t → Dev.Keeps m s (t.serve p fuel) := by
  induction fuel with
  | zero => exact fun h => h
  | succ n ih =>
    intro t h
    unfold Dev.serve
    split
    · exact h
    · rename_i w _
      have hb := r.bpm
      have h1 : Dev.Keeps m s { t with bpm := { t.bpm with waiters := t.bpm.waiters.filter (·.id != w.id) } } := h.put_bpm hb _
      generalize ({ t with bpm := { t.bpm with waiters := t.bpm.waiters.filter (·.id != w.id) } } : Dev) = u at h1
      cases hw : w.who with
      | cmd c seq =>
        have h2 := h1.allocNow hb p w.rq w.ctx (some w.rq)
        simp only
        exact ih (h2.finishRun r.regs r.ctxs _ _ _ _)
      | eng tag =>
        have h2 := h1.allocNow hb p w.rq w.ctx none
        simp only
        exact ih (h2.answer hb r.chain _ _ _)

theorem Dev.Keeps.serveAll (h : Dev.Keeps m s t) (r : BpmMay m) (p : Nat) : Dev.Keeps m s (t.serveAll p) := Dev.Keeps.serve r p _ h

theorem Dev.Keeps.memZero (h : Dev.Keeps m s t) (r : BpmMay m) (a n : Nat) : Dev.Keeps m s (t.memZero a n) := by
  have h1 : Dev.Keeps m s { t with dram := t.dram.filter (fun x => x.1 < a || a + n ≤ x.1)
                                   marks := t.marks.filter (fun x => x.1 < a / 32 || (a + n) / 32 ≤ x.1) } :=
    { h with dram := fun q => absurd r.dram q, marks := fun q => absurd r.marks q }
  unfold Dev.memZero
  exact Dev.Keeps.ite ((h1.takeInj r.toRasMay _).setMark r.marks _ _) h1

theorem Dev.Keeps.asZero (h : Dev.Keeps m s t) (ha : .as ∈ m) (hk : .asMarks ∈ m) (k o n : Nat) : Dev.Keeps m s (t.asZero k o n) :=
  { h with as := fun q => absurd ha q, asMarks := fun q => absurd hk q }

theorem Dev.Keeps.zeroBuf (h : Dev.Keeps m s t) (r : BpmMay m) (p i : Nat) : Dev.Keeps m s (t.zeroBuf p i) := by
  unfold Dev.zeroBuf
  exact Dev.Keeps.ite (Dev.Keeps.ite (h.asZero r.as r.asMarks _ _ _) (h.memZero r _ _)) h

/-- A buffer whose count reached 0. -/
theorem Dev.Keeps.freeBuf (h : Dev.Keeps m s t) (r : BpmMay m) (p i : Nat) : Dev.Keeps m s (t.freeBuf p i) := by
  have h1 := h.perf 0x10000 1 1 (by decide) (by decide)
  unfold Dev.freeBuf
  refine Dev.Keeps.ite ?_ ?_
  · exact (h1.retireBuf r.toRasMay p i).foldl _ _ fun u a _ g => g.tableAdd r.toRasMay a
  · exact (((h1.zeroBuf r p i).setBuf r.bpm _ _ _).setPool r.bpm _ _).serveAll r p

theorem Dev.Keeps.iteThird {α β : Type} {c : Prop} [Decidable c] {x y : α × β × Dev} (h : Dev.Keeps m s x.2.2) (g : Dev.Keeps m s y.2.2) :
    Dev.Keeps m s (if c then x else y).2.2 := by
  split
  · exact h
  · exact g

/-- A reference taken; no memory changes. -/
theorem Dev.Keeps.bpmInc (h : Dev.Keeps m s t) (hb : .bpm ∈ m) (c x : Nat) (slot : Option Nat) : Dev.Keeps m s (t.bpmInc c x slot).2.2 := by
  have hr : Dev.Keeps m s t.refRefuse := h.irq _ _ (by decide)
  unfold Dev.bpmInc
  simp only
  refine Dev.Keeps.iteThird hr (Dev.Keeps.iteThird hr (Dev.Keeps.iteThird hr ?_))
  cases slot with
  | some k =>
    exact Dev.Keeps.iteThird (h.irq _ _ (by decide)) (((h.setBuf hb _ _ _).ledgerAdd hb _ _).perf _ _ _ (by decide) (by decide))
  | none => exact (h.setBuf hb _ _ _).perf _ _ _ (by decide) (by decide)

/-- A reference released. -/
theorem Dev.Keeps.bpmDec (h : Dev.Keeps m s t) (r : BpmMay m) (c x : Nat) (slot : Option Nat) : Dev.Keeps m s (t.bpmDec c x slot).2.2 := by
  have hr : Dev.Keeps m s t.refRefuse := h.irq _ _ (by decide)
  unfold Dev.bpmDec
  simp only
  refine Dev.Keeps.iteThird hr (Dev.Keeps.iteThird hr (Dev.Keeps.iteThird hr ?_))
  have h1 := (h.setBuf r.bpm (hPool x) (hIdx x) { t.buf (hPool x) (hIdx x) with count := (t.buf (hPool x) (hIdx x)).count - 1 }).perf
    0x10000 3 1 (by decide) (by decide)
  cases slot with
  | some k => exact Dev.Keeps.ite ((h1.ledgerSub r.bpm k x).freeBuf r _ _) (h1.ledgerSub r.bpm k x)
  | none => exact Dev.Keeps.ite (h1.freeBuf r _ _) h1

/-- An engine or a seat releases a reference. -/
theorem Dev.Keeps.unref (h : Dev.Keeps m s t) (r : BpmMay m) (rq c x : Nat) : Dev.Keeps m s (t.unref rq c x) := by
  unfold Dev.unref
  split
  · exact h.put_bpm r.bpm _
  · unfold Dev.engRef
    simp only [Bool.false_eq_true, if_false]
    split
    · exact h.bpmDec r _ _ _
    · exact (h.bpmDec r _ _ _).raise _

/-- An engine takes a reference. -/
theorem Dev.Keeps.ref (h : Dev.Keeps m s t) (hb : .bpm ∈ m) (rq c x : Nat) : Dev.Keeps m s (t.ref rq c x).2 := by
  unfold Dev.ref
  split
  · exact h.put_bpm hb _
  · unfold Dev.engRef
    simp only [if_true]
    split
    · exact h.bpmInc hb _ _ _
    · exact (h.bpmInc hb _ _ _).raise _

end Sys2Proof.Machine
end

