-- ==== Sys2Proof/Laws/Cmd.lean ====
section
/-! SUPPORT. What the start of a host command and the moving of its queue do, where the command stands alone at the front. -/

namespace Sys2Proof.Machine

variable {s t : Dev} {c op : Nat} {w : List Word}

/-- The unit with command `w` of context `c` started: its number is the highest and stands in the window without a status, the queue is empty,
the command runs. -/
def Dev.begun (s : Dev) (c op : Nat) (w : List Word) : Dev :=
  let x := s.ctx c
  let e : Run := { seq := hSeq w, op, cid := hCid w, noCpl := hNoCpl w, irq := hIrq w, words := w }
  let y : Ctx := { x with sq := [], opAsked := false, wdata := x.wdata.filter (·.1 != hSeq w), run := x.run ++ [e] }
  (((s.setReg (R.ctxSeqHigh c) (Word.ofNat (hSeq w))).setReg (R.ctxWinSeq c (hSeq w % 64)) (Word.ofNat (hSeq w))).setReg
    (R.ctxWinStatus c (hSeq w % 64)) 0).setCtx c y

theorem Dev.isMgr_setReg_ne (s : Dev) {off : Nat} (v : Word) (h : R.topStrap ≠ off) : (s.setReg off v).isMgr = s.isMgr := by
  unfold Dev.isMgr Dev.rb
  rw [s.reg_setReg_ne v h]

/-- A command that stands alone at the front starts. -/
theorem Dev.startCmd_front (h : s.Front c op w) : s.startCmd c op = some (w, s.begun c op w) := by
  have ho : (hostOperand w).isNone = true ∨ (s.ctx c).opData.isSome = true := by
    rcases h.operand with e | e
    · exact .inl (by simp [e])
    · exact .inr (Option.isSome_iff_ne_none.2 e)
  have hf := h.fence
  unfold Dev.startCmd
  have hm : (((s.setReg (R.ctxSeqHigh c) (Word.ofNat (hSeq w))).setReg (R.ctxWinSeq c (hSeq w % 64)) (Word.ofNat (hSeq w))).setReg
      (R.ctxWinStatus c (hSeq w % 64)) 0).isMgr = true := by
    rw [Dev.isMgr_setReg_ne _ _ (by simp only [R.topStrap, R.ctxWinStatus]; omega),
      Dev.isMgr_setReg_ne _ _ (by simp only [R.topStrap, R.ctxWinSeq]; omega),
      Dev.isMgr_setReg_ne _ _ (by simp only [R.topStrap, R.ctxSeqHigh]; omega)]
    exact h.mgr
  simp only [h.sq, h.mgr, h.isOpen, h.up, h.op, h.next, Bool.not_true, Bool.false_or, decide_true, true_or, and_true,
    Bool.or_eq_true, ho, if_true, hf, hm]
  rfl

/-- What a started command has changed. -/
theorem Dev.Keeps.begun (s : Dev) (c op : Nat) (w : List Word) : Dev.Keeps (cmdParts c w) s (s.begun c op w) :=
  ((((Dev.Keeps.refl _ s).setReg _ _ (.inr (.inl (by simp [cmdParts])))).setReg _ _ (.inr (.inl (by simp [cmdParts])))).setReg _ _
    (.inr (.inl (by simp [cmdParts])))).setCtx _ _ (.inr (.inl (by simp [cmdParts])))

/-- A queue that is empty with nothing left to fetch does not move. -/
theorem Dev.kick_idle (hq : (s.ctx c).sq = []) (hf : (s.ctx c).sqIssued = (s.ctx c).sqTail) : s.kick c = s.ltrUpdate := by
  have e : ∀ n, s.fetchSq c n = s := by
    intro n; cases n with
    | zero => rfl
    | succ n => unfold Dev.fetchSq; simp [hf]
  unfold Dev.kick
  rw [e]
  simp [Dev.settle, hq]

/-- A command that stands alone runs its effect `f`; where `f` leaves the queue empty, nothing else follows. -/
theorem Dev.hostCmd_front (h : s.Front c op w) (f : List Word → Dev → Dev) (ht : t = f w (s.begun c op w)) (hm : t.isMgr = true)
    (hq : (t.ctx c).sq = []) (hf : (t.ctx c).sqIssued = (t.ctx c).sqTail) : s.hostCmd c op f = t.ltrUpdate := by
  unfold Dev.hostCmd
  rw [Dev.startCmd_front h]
  simp only [← ht, hm, if_true]
  exact Dev.kick_idle hq hf

end Sys2Proof.Machine
end

