-- ==== Sys2Proof/Laws/Dispatch.lean ====
section
/-! SUPPORT. Each command's meaning as a function of the unit alone: it answers the next state with that unit and the queue as it
was. -/

namespace Sys2Proof.Machine

theorem exec_powerOn (d : Dev) (rest : List Instr) :
    exec .powerOn ⟨d, rest⟩ = .next ⟨d.powerOn, rest⟩ := rfl
theorem exec_strapSample (straps : Word) (d : Dev) (rest : List Instr) :
    exec (.strapSample straps) ⟨d, rest⟩ = .next ⟨d.strapSample straps, rest⟩ := rfl
theorem exec_perstNAssert (d : Dev) (rest : List Instr) :
    exec .perstNAssert ⟨d, rest⟩ = .next ⟨d.perstAssert, rest⟩ := rfl
theorem exec_perstNRelease (d : Dev) (rest : List Instr) :
    exec .perstNRelease ⟨d, rest⟩ = .next ⟨d.perstRelease, rest⟩ := rfl
theorem exec_hotReset (d : Dev) (rest : List Instr) :
    exec .hotReset ⟨d, rest⟩ = .next ⟨if d.isMgr && !d.absorbs 3 then d.mgrReset 3 else d, rest⟩ := rfl
theorem exec_pcieLinkDown (d : Dev) (rest : List Instr) :
    exec .pcieLinkDown ⟨d, rest⟩ = .next ⟨if d.isMgr && !d.absorbs 4 && d.boot.powered then
    (d.mgrReset 4).irq 0x6000 1 else d, rest⟩ := rfl
theorem exec_mainRailLoss (d : Dev) (rest : List Instr) :
    exec .mainRailLoss ⟨d, rest⟩ = .next ⟨d.railLoss, rest⟩ := rfl
theorem exec_imageVerified (img : ImageCheck) (d : Dev) (rest : List Instr) :
    exec (.imageVerified img) ⟨d, rest⟩ = .next ⟨d.imageIn img, rest⟩ := rfl
theorem exec_slotRunningTimeout (d : Dev) (rest : List Instr) :
    exec .slotRunningTimeout ⟨d, rest⟩ = .next ⟨d.slotTimeout, rest⟩ := rfl
theorem exec_memcTrainingDone (ch rate cap ranks : Nat) (ok : Bool) (d : Dev) (rest : List Instr) :
    exec (.memcTrainingDone ch rate cap ranks ok) ⟨d, rest⟩ = .next ⟨d.training ch rate cap ranks ok, rest⟩ := rfl
theorem exec_zeroDone (d : Dev) (rest : List Instr) :
    exec .zeroDone ⟨d, rest⟩ = .next ⟨d.zeroDone, rest⟩ := rfl
theorem exec_configRequest (fn dw : Nat) (wr : Option (Word × Nat)) (d : Dev) (rest : List Instr) :
    exec (.configRequest fn dw wr) ⟨d, rest⟩ = .next ⟨d.configRequest fn (dw % 1024) wr, rest⟩ := rfl
theorem exec_vfEnable (on : Bool) (d : Dev) (rest : List Instr) :
    exec (.vfEnable on) ⟨d, rest⟩ = .next ⟨d.cfgField fun d => d.vfEnableWrite on, rest⟩ := rfl
theorem exec_barSize (enc : Nat) (d : Dev) (rest : List Instr) :
    exec (.barSize enc) ⟨d, rest⟩ = .next ⟨d.cfgField fun d => d.barSizeWrite enc, rest⟩ := rfl
theorem exec_busMasterEnable (fn : Nat) (d : Dev) (rest : List Instr) :
    exec (.busMasterEnable fn) ⟨d, rest⟩ = .next ⟨d.cfgField fun d => d.busMaster fn, rest⟩ := rfl
theorem exec_pfFlr (d : Dev) (rest : List Instr) :
    exec .pfFlr ⟨d, rest⟩ = .next ⟨d.pfFlr, rest⟩ := rfl
theorem exec_vfFlr (n : Nat) (d : Dev) (rest : List Instr) :
    exec (.vfFlr n) ⟨d, rest⟩ = .next ⟨d.vfFlr n, rest⟩ := rfl
theorem exec_vfResetDone (n : Nat) (d : Dev) (rest : List Instr) :
    exec (.vfResetDone n) ⟨d, rest⟩ = .next ⟨d.vfResetDone n, rest⟩ := rfl
theorem exec_d3hot (d : Dev) (rest : List Instr) :
    exec .d3hot ⟨d, rest⟩ = .next ⟨d.d3Enter, rest⟩ := rfl
theorem exec_pmcsrD0 (d : Dev) (rest : List Instr) :
    exec .pmcsrD0 ⟨d, rest⟩ = .next ⟨d.d3Exit.doeRelease, rest⟩ := rfl
theorem exec_hifLinkCtlRetrain (v : Word) (d : Dev) (rest : List Instr) :
    exec (.hifLinkCtlRetrain v) ⟨d, rest⟩ = .next ⟨d.pfWrite R.hifLinkCtl (v.setBit 10 true), rest⟩ := rfl
theorem exec_bar2Write (_req fn off : Nat) (data : List Byte) (poisoned ecrcBad : Bool) (d : Dev) (rest : List Instr) :
    exec (.bar2Write _req fn off data poisoned ecrcBad) ⟨d, rest⟩ = .next ⟨d.bar2Write fn off data poisoned ecrcBad, rest⟩ := rfl
theorem exec_bar2Read (req fn off len : Nat) (ecrcBad : Bool) (d : Dev) (rest : List Instr) :
    exec (.bar2Read req fn off len ecrcBad) ⟨d, rest⟩ = .next ⟨d.bar2Read req fn off len ecrcBad, rest⟩ := rfl
theorem exec_acquireRead (req fn bar off len : Nat) (ecrcBad : Bool) (d : Dev) (rest : List Instr) :
    exec (.acquireRead req fn bar off len ecrcBad) ⟨d, rest⟩ = .next ⟨d.acquireRead req fn bar off len ecrcBad, rest⟩ := rfl
theorem exec_readaheadLineExpiry (req fn line : Nat) (d : Dev) (rest : List Instr) :
    exec (.readaheadLineExpiry req fn line) ⟨d, rest⟩ = .next ⟨d.lineExpiry req fn line, rest⟩ := rfl
theorem exec_completionReceived (tag : Nat) (data : List Byte) (last poisoned ecrcBad : Bool) (d : Dev) (rest : List Instr) :
    exec (.completionReceived tag data last poisoned ecrcBad) ⟨d, rest⟩ = .next ⟨d.completion tag data last poisoned ecrcBad, rest⟩ := rfl
theorem exec_readTimeout (tag : Nat) (d : Dev) (rest : List Instr) :
    exec (.readTimeout tag) ⟨d, rest⟩ = .next ⟨d.readTimeout tag, rest⟩ := rfl
theorem exec_tagQuarantineEnd (tag : Nat) (d : Dev) (rest : List Instr) :
    exec (.tagQuarantineEnd tag) ⟨d, rest⟩ = .next ⟨d.quarEnd tag, rest⟩ := rfl
theorem exec_ptmRequest (d : Dev) (rest : List Instr) :
    exec .ptmRequest ⟨d, rest⟩ = .next ⟨d.ptmReq, rest⟩ := rfl
theorem exec_aspmL1Entry (d : Dev) (rest : List Instr) :
    exec .aspmL1Entry ⟨d, rest⟩ = .next ⟨d.aspmL1, rest⟩ := rfl
theorem exec_gpioWakeEdge (pin : Nat) (rising : Bool) (d : Dev) (rest : List Instr) :
    exec (.gpioWakeEdge pin rising) ⟨d, rest⟩ = .next ⟨d.gpioEdge pin rising, rest⟩ := rfl
theorem exec_wakeTimerExpiry (d : Dev) (rest : List Instr) :
    exec .wakeTimerExpiry ⟨d, rest⟩ = .next ⟨d.wakeTimer, rest⟩ := rfl
theorem exec_registerWrite (src : Src) (bar off : Nat) (ws : List (Word × Nat)) (poisoned ecrcBad : Bool) (d : Dev) (rest : List Instr) :
    exec (.registerWrite src bar off ws poisoned ecrcBad) ⟨d, rest⟩ = .next ⟨d.barWrite src bar off ws poisoned ecrcBad, rest⟩ := rfl
theorem exec_blkIrqStatWrite (page : Nat) (v : Word) (d : Dev) (rest : List Instr) :
    exec (.blkIrqStatWrite page v) ⟨d, rest⟩ = .next ⟨d.pfWrite (pageBase page + R.irqStat) v, rest⟩ := rfl
theorem exec_blkIrqEnWrite (page : Nat) (v : Word) (d : Dev) (rest : List Instr) :
    exec (.blkIrqEnWrite page v) ⟨d, rest⟩ = .next ⟨d.pfWrite (pageBase page + R.irqEn) v, rest⟩ := rfl
theorem exec_blkIrqSet (page : Nat) (v : Word) (d : Dev) (rest : List Instr) :
    exec (.blkIrqSet page v) ⟨d, rest⟩ = .next ⟨d.pfWrite (pageBase page + R.irqSet) v, rest⟩ := rfl
theorem exec_blkErrCaptValid (page : Nat) (v : Word) (d : Dev) (rest : List Instr) :
    exec (.blkErrCaptValid page v) ⟨d, rest⟩ = .next ⟨d.pfWrite (pageBase page + R.capt 0) v, rest⟩ := rfl
theorem exec_srst (page : Nat) (v : Word) (d : Dev) (rest : List Instr) :
    exec (.srst page v) ⟨d, rest⟩ = .next ⟨d.pfWrite (pageBase page + R.ctl) (v.setBit 1 true), rest⟩ := rfl
theorem exec_srstDone (page : Nat) (d : Dev) (rest : List Instr) :
    exec (.srstDone page) ⟨d, rest⟩ = .next ⟨d.srstEnd (hdrPage page), rest⟩ := rfl
theorem exec_quiesceReq (page : Nat) (v : Word) (d : Dev) (rest : List Instr) :
    exec (.quiesceReq page v) ⟨d, rest⟩ = .next ⟨d.pfWrite (pageBase page + R.ctl) (v.setBit 1 false), rest⟩ := rfl
theorem exec_quiesced (page : Nat) (d : Dev) (rest : List Instr) :
    exec (.quiesced page) ⟨d, rest⟩ = .next ⟨d.quiesceEnd (hdrPage page), rest⟩ := rfl
theorem exec_perfFreeze (page : Nat) (v : Word) (d : Dev) (rest : List Instr) :
    exec (.perfFreeze page v) ⟨d, rest⟩ = .next ⟨d.pfWrite (pageBase page + R.ctl) (v.setBit 1 false), rest⟩ := rfl
theorem exec_nocPortIsoSet (v : Word) (d : Dev) (rest : List Instr) :
    exec (.nocPortIsoSet v) ⟨d, rest⟩ = .next ⟨d.pfWrite R.nocPortIsoSet v, rest⟩ := rfl
theorem exec_nocPortIsoClr (v : Word) (d : Dev) (rest : List Instr) :
    exec (.nocPortIsoClr v) ⟨d, rest⟩ = .next ⟨d.pfWrite R.nocPortIsoClr v, rest⟩ := rfl
theorem exec_clkIslFreq (isl : Nat) (v : Word) (d : Dev) (rest : List Instr) :
    exec (.clkIslFreq isl v) ⟨d, rest⟩ = .next ⟨if d.inD3 then d else d.freqWrite isl v, rest⟩ := rfl
theorem exec_islandRelock (isl : Nat) (d : Dev) (rest : List Instr) :
    exec (.islandRelock isl) ⟨d, rest⟩ = .next ⟨if isl < 26 ∧ d.islRuns isl = true ∧ d.rb (R.clkIslStat isl) 0 = false then d.relock isl else d, rest⟩ := rfl
theorem exec_pwrIslCtl (isl : Nat) (v : Word) (d : Dev) (rest : List Instr) :
    exec (.pwrIslCtl isl v) ⟨d, rest⟩ = .next ⟨if d.inD3 then d else d.islCtlWrite isl v, rest⟩ := rfl
theorem exec_remoteRead (src : Src) (unit off : Nat) (d : Dev) (rest : List Instr) :
    exec (.remoteRead src unit off) ⟨d, rest⟩ = .next ⟨if d.isMgr then d.remoteRead src.req (unit % 16) (off % 0x400000 / 4 * 4) else d, rest⟩ := rfl
theorem exec_remoteWrite (src : Src) (unit off : Nat) (v : Word) (be : Nat) (d : Dev) (rest : List Instr) :
    exec (.remoteWrite src unit off v be) ⟨d, rest⟩ = .next ⟨
    if d.isMgr then (d.busPosted src).remoteWrite src (unit % 16) (off % 0x400000 / 4 * 4) v be else d, rest⟩ := rfl
theorem exec_remoteReadTimeout (txid : Nat) (d : Dev) (rest : List Instr) :
    exec (.remoteReadTimeout txid) ⟨d, rest⟩ = .next ⟨d.remoteTimeout txid, rest⟩ := rfl
theorem exec_bpmReturn (d : Dev) (rest : List Instr) :
    exec .bpmReturn ⟨d, rest⟩ = .next ⟨d.bpmReturn, rest⟩ := rfl
theorem exec_schedResetEnd (d : Dev) (rest : List Instr) :
    exec .schedResetEnd ⟨d, rest⟩ = .next ⟨d.schedResetEnd, rest⟩ := rfl
theorem exec_stagedEventWrite (plane : Nat) (d : Dev) (rest : List Instr) :
    exec (.stagedEventWrite plane) ⟨d, rest⟩ = .next ⟨d.stagedWrite plane, rest⟩ := rfl
theorem exec_ctxOpen (src : Src) (c : Nat) (v : Word) (d : Dev) (rest : List Instr) :
    exec (.ctxOpen src c v) ⟨d, rest⟩ = .next ⟨(d.busPosted src).ctxCtlWrite src c (v.setBit 0 true |>.setBit 1 false), rest⟩ := rfl
theorem exec_ctxReset (src : Src) (c : Nat) (v : Word) (d : Dev) (rest : List Instr) :
    exec (.ctxReset src c v) ⟨d, rest⟩ = .next ⟨(d.busPosted src).ctxCtlWrite src c (v.setBit 1 true), rest⟩ := rfl
theorem exec_ctxResetDone (c : Nat) (d : Dev) (rest : List Instr) :
    exec (.ctxResetDone c) ⟨d, rest⟩ = .next ⟨d.ctxResetDone c, rest⟩ := rfl
theorem exec_devEvents (src : Src) (c : Nat) (v : Word) (d : Dev) (rest : List Instr) :
    exec (.devEvents src c v) ⟨d, rest⟩ = .next ⟨(d.busPosted src).devEventsWrite src c v, rest⟩ := rfl
theorem exec_dbSqTail (src : Src) (c : Nat) (v : Word) (be : Nat) (d : Dev) (rest : List Instr) :
    exec (.dbSqTail src c v be) ⟨d, rest⟩ = .next ⟨(d.busPosted src).doorbell src c 0 v be, rest⟩ := rfl
theorem exec_dbCqHead (src : Src) (c : Nat) (v : Word) (be : Nat) (d : Dev) (rest : List Instr) :
    exec (.dbCqHead src c v be) ⟨d, rest⟩ = .next ⟨(d.busPosted src).doorbell src c 1 v be, rest⟩ := rfl
theorem exec_dbEqHead (src : Src) (c : Nat) (v : Word) (be : Nat) (d : Dev) (rest : List Instr) :
    exec (.dbEqHead src c v be) ⟨d, rest⟩ = .next ⟨(d.busPosted src).doorbell src c 2 v be, rest⟩ := rfl
theorem exec_dbMqHead (src : Src) (c : Nat) (v : Word) (be : Nat) (d : Dev) (rest : List Instr) :
    exec (.dbMqHead src c v be) ⟨d, rest⟩ = .next ⟨(d.busPosted src).doorbell src c 3 v be, rest⟩ := rfl
theorem exec_ctxInDb (src : Src) (c : Nat) (v : Word) (be : Nat) (d : Dev) (rest : List Instr) :
    exec (.ctxInDb src c v be) ⟨d, rest⟩ = .next ⟨(d.busPosted src).inDb src c v be, rest⟩ := rfl
theorem exec_hostNop (c : Nat) (d : Dev) (rest : List Instr) :
    exec (.hostNop c) ⟨d, rest⟩ = .next ⟨d.hostCmd c 0 fun w d => d.endCmd c (hSeq w) .ok 0 0, rest⟩ := rfl
theorem exec_modelLoad (c : Nat) (d : Dev) (rest : List Instr) :
    exec (.modelLoad c) ⟨d, rest⟩ = .next ⟨d.hostCmd c 1 (Dev.modelLoad c), rest⟩ := rfl
theorem exec_modelUnload (c : Nat) (d : Dev) (rest : List Instr) :
    exec (.modelUnload c) ⟨d, rest⟩ = .next ⟨d.hostCmd c 2 (Dev.modelUnload c), rest⟩ := rfl
theorem exec_graphLaunch (c : Nat) (d : Dev) (rest : List Instr) :
    exec (.graphLaunch c) ⟨d, rest⟩ = .next ⟨d.hostCmd c 3 (Dev.graphLaunch c), rest⟩ := rfl
theorem exec_graphStop (c : Nat) (d : Dev) (rest : List Instr) :
    exec (.graphStop c) ⟨d, rest⟩ = .next ⟨d.hostCmd c 4 (Dev.graphStop c), rest⟩ := rfl
theorem exec_streamAttach (c : Nat) (d : Dev) (rest : List Instr) :
    exec (.streamAttach c) ⟨d, rest⟩ = .next ⟨d.hostCmd c 0x10 (Dev.streamAttach c), rest⟩ := rfl
theorem exec_streamDetach (c : Nat) (d : Dev) (rest : List Instr) :
    exec (.streamDetach c) ⟨d, rest⟩ = .next ⟨d.hostCmd c 0x11 (Dev.streamDetach c), rest⟩ := rfl
theorem exec_solve (c : Nat) (d : Dev) (rest : List Instr) :
    exec (.solve c) ⟨d, rest⟩ = .next ⟨d.hostCmd c 0x20 (Dev.solve c), rest⟩ := rfl
theorem exec_clipRequest (c : Nat) (d : Dev) (rest : List Instr) :
    exec (.clipRequest c) ⟨d, rest⟩ = .next ⟨d.hostCmd c 0x30 (Dev.clipRequest c), rest⟩ := rfl
theorem exec_ttArm (c : Nat) (d : Dev) (rest : List Instr) :
    exec (.ttArm c) ⟨d, rest⟩ = .next ⟨d.hostCmd c 0x40 (Dev.ttArm c), rest⟩ := rfl
theorem exec_ttDisarm (c : Nat) (d : Dev) (rest : List Instr) :
    exec (.ttDisarm c) ⟨d, rest⟩ = .next ⟨d.hostCmd c 0x41 (Dev.ttDisarm c), rest⟩ := rfl
theorem exec_bufAlloc (c : Nat) (d : Dev) (rest : List Instr) :
    exec (.bufAlloc c) ⟨d, rest⟩ = .next ⟨d.hostCmd c 0x50 fun w d => d.onUnit c (hF w 8 0 4) w fun d => d.bufAlloc c w, rest⟩ := rfl
theorem exec_bufRef (c : Nat) (d : Dev) (rest : List Instr) :
    exec (.bufRef c) ⟨d, rest⟩ = .next ⟨d.hostCmd c 0x51 fun w d => d.onUnit c (hF w 8 0 4) w fun d => d.bufRefOp c w true, rest⟩ := rfl
theorem exec_bufUnref (c : Nat) (d : Dev) (rest : List Instr) :
    exec (.bufUnref c) ⟨d, rest⟩ = .next ⟨d.hostCmd c 0x52 fun w d => d.onUnit c (hF w 8 0 4) w fun d => d.bufRefOp c w false, rest⟩ := rfl
theorem exec_poolConfig (c : Nat) (d : Dev) (rest : List Instr) :
    exec (.poolConfig c) ⟨d, rest⟩ = .next ⟨if d.poolWaits c then d else d.hostCmd c 0x53 (Dev.poolConfigRun c), rest⟩ := rfl
theorem exec_commandComplete (c : Nat) (d : Dev) (rest : List Instr) :
    exec (.commandComplete c) ⟨d, rest⟩ = .next ⟨(d.cplWrite c).kick c, rest⟩ := rfl
theorem exec_teardownDone (c : Nat) (d : Dev) (rest : List Instr) :
    exec (.teardownDone c) ⟨d, rest⟩ = .next ⟨d.teardownDone c, rest⟩ := rfl
theorem exec_metadataRecord (c : Nat) (d : Dev) (rest : List Instr) :
    exec (.metadataRecord c) ⟨d, rest⟩ = .next ⟨d.recordTaken c, rest⟩ := rfl
theorem exec_moderationTimeout (c ring : Nat) (d : Dev) (rest : List Instr) :
    exec (.moderationTimeout c ring) ⟨d, rest⟩ = .next ⟨d.modTimeout c ring, rest⟩ := rfl
theorem exec_ctxPfCtl (src : Src) (c : Nat) (v : Word) (d : Dev) (rest : List Instr) :
    exec (.ctxPfCtl src c v) ⟨d, rest⟩ = .next ⟨if d.pageMay src c then (d.busPosted src).pfCtlWrite c v else d.busPosted src, rest⟩ := rfl
theorem exec_poolEnable (p : Nat) (v : Word) (d : Dev) (rest : List Instr) :
    exec (.poolEnable p v) ⟨d, rest⟩ = .next ⟨if p < 16 then d.poolEnable p v else d, rest⟩ := rfl
theorem exec_bpmRqQuota (v : Word) (d : Dev) (rest : List Instr) :
    exec (.bpmRqQuota v) ⟨d, rest⟩ = .next ⟨d.rqQuotaWrite v, rest⟩ := rfl
theorem exec_bpmRqReserve (v : Word) (d : Dev) (rest : List Instr) :
    exec (.bpmRqReserve v) ⟨d, rest⟩ = .next ⟨d.rqReserveWrite v, rest⟩ := rfl
theorem exec_bpmOwnAddrHi (v : Word) (d : Dev) (rest : List Instr) :
    exec (.bpmOwnAddrHi v) ⟨d, rest⟩ = .next ⟨d.ownLookup v, rest⟩ := rfl
theorem exec_alloc (rq ctx pool : Nat) (blocking : Bool) (tag : Nat) (via : Option (Nat × Frame)) (d : Dev) (rest : List Instr) :
    exec (.alloc rq ctx pool blocking tag via) ⟨d, rest⟩ = .next ⟨d.bpmRow 0 via fun d => d.engAlloc rq ctx pool blocking (tag % 2 ^ 32), rest⟩ := rfl
theorem exec_inc (rq ctx h tag : Nat) (via : Option (Nat × Frame)) (d : Dev) (rest : List Instr) :
    exec (.inc rq ctx h tag via) ⟨d, rest⟩ = .next ⟨d.bpmRow 1 via fun d => d.engOp true rq ctx h (tag % 2 ^ 32), rest⟩ := rfl
theorem exec_dec (rq ctx h tag : Nat) (via : Option (Nat × Frame)) (d : Dev) (rest : List Instr) :
    exec (.dec rq ctx h tag via) ⟨d, rest⟩ = .next ⟨d.bpmRow 2 via fun d => d.engOp false rq ctx h (tag % 2 ^ 32), rest⟩ := rfl
theorem exec_bpmWaitTimeout (id : Nat) (d : Dev) (rest : List Instr) :
    exec (.bpmWaitTimeout id) ⟨d, rest⟩ = .next ⟨d.waitTimeout id, rest⟩ := rfl
theorem exec_scrubRead (d : Dev) (rest : List Instr) :
    exec .scrubRead ⟨d, rest⟩ = .next ⟨if d.scrubRuns then d.scrub else d, rest⟩ := rfl
theorem exec_rasRetirePage (src : Src) (v : Word) (d : Dev) (rest : List Instr) :
    exec (.rasRetirePage src v) ⟨d, rest⟩ = .next ⟨(d.busPosted src).rasRetireWrite src v, rest⟩ := rfl
theorem exec_rasInjCtl (v : Word) (d : Dev) (rest : List Instr) :
    exec (.rasInjCtl v) ⟨d, rest⟩ = .next ⟨d.rasInjWrite v, rest⟩ := rfl
theorem exec_idle (p : Nat) (f : Frame) (d : Dev) (rest : List Instr) :
    exec (.idle p f) ⟨d, rest⟩ = .next ⟨d.rowIn 4 0 p f, rest⟩ := rfl
theorem exec_frameCrcFailure (p : Nat) (tagBad : Bool) (d : Dev) (rest : List Instr) :
    exec (.frameCrcFailure p tagBad) ⟨d, rest⟩ = .next ⟨d.crcFail p tagBad, rest⟩ := rfl
theorem exec_replayTimeout (p : Nat) (d : Dev) (rest : List Instr) :
    exec (.replayTimeout p) ⟨d, rest⟩ = .next ⟨d.replayTimeout p, rest⟩ := rfl
theorem exec_laneLockLoss (p : Nat) (d : Dev) (rest : List Instr) :
    exec (.laneLockLoss p) ⟨d, rest⟩ = .next ⟨d.lockLoss p, rest⟩ := rfl
theorem exec_chainReset (d : Dev) (rest : List Instr) :
    exec .chainReset ⟨d, rest⟩ = .next ⟨d.chainReset, rest⟩ := rfl
theorem exec_pfFlrDone (d : Dev) (rest : List Instr) :
    exec .pfFlrDone ⟨d, rest⟩ = .next ⟨d.pfFlrDone, rest⟩ := rfl
theorem exec_unitSrst (d : Dev) (rest : List Instr) :
    exec .unitSrst ⟨d, rest⟩ = .next ⟨d.unitSrst, rest⟩ := rfl
theorem exec_chainRst (d : Dev) (rest : List Instr) :
    exec .chainRst ⟨d, rest⟩ = .next ⟨if d.isMgr then d.sendChainReset else d, rest⟩ := rfl
theorem exec_standbyPowerLoss (d : Dev) (rest : List Instr) :
    exec .standbyPowerLoss ⟨d, rest⟩ = .next ⟨d.standbyLoss, rest⟩ := rfl
theorem exec_ingressEntry (stream : Nat) (onePic start : Bool) (d : Dev) (rest : List Instr) :
    exec (.ingressEntry stream onePic start) ⟨d, rest⟩ = .next ⟨d.ingress stream onePic start, rest⟩ := rfl
theorem exec_pictureDecodeStart (engine : Nat) (au : AuRead) (d : Dev) (rest : List Instr) :
    exec (.pictureDecodeStart engine au) ⟨d, rest⟩ = .next ⟨if engine < 4 then d.decodeStart engine au else d, rest⟩ := rfl
theorem exec_pictureDecodeDone (engine : Nat) (pic : PicRead) (d : Dev) (rest : List Instr) :
    exec (.pictureDecodeDone engine pic) ⟨d, rest⟩ = .next ⟨if engine < 4 then d.decodeDone engine pic else d, rest⟩ := rfl
theorem exec_send (core : Nat) (halo : Bool) (d : Dev) (rest : List Instr) :
    exec (.send core halo) ⟨d, rest⟩ = .next ⟨d.onCore core (Dev.sendCmd core halo), rest⟩ := rfl
theorem exec_recv (core : Nat) (d : Dev) (rest : List Instr) :
    exec (.recv core) ⟨d, rest⟩ = .next ⟨d.seqCmd core 0x11 (Dev.recvCmd core), rest⟩ := rfl
theorem exec_signal (core : Nat) (d : Dev) (rest : List Instr) :
    exec (.signal core) ⟨d, rest⟩ = .next ⟨(d.seqCmd core 0x12 (Dev.signalCmd core)).coachAll, rest⟩ := rfl
theorem exec_wait (core : Nat) (d : Dev) (rest : List Instr) :
    exec (.wait core) ⟨d, rest⟩ = .next ⟨d.seqCmd core 0x13 fun p w d => d.seqWait core p w, rest⟩ := rfl
theorem exec_barrier (core : Nat) (d : Dev) (rest : List Instr) :
    exec (.barrier core) ⟨d, rest⟩ = .next ⟨d.seqCmd core 0x14 (Dev.barrierCmd core), rest⟩ := rfl
theorem exec_loop (core : Nat) (d : Dev) (rest : List Instr) :
    exec (.loop core) ⟨d, rest⟩ = .next ⟨d.seqCmd core 0x20 (Dev.loopCmd core), rest⟩ := rfl
theorem exec_branch (core : Nat) (d : Dev) (rest : List Instr) :
    exec (.branch core) ⟨d, rest⟩ = .next ⟨d.seqCmd core 0x21 (Dev.branchCmd core), rest⟩ := rfl
theorem exec_timewait (core : Nat) (d : Dev) (rest : List Instr) :
    exec (.timewait core) ⟨d, rest⟩ = .next ⟨d.seqCmd core 0x22 (Dev.timeWaitCmd core), rest⟩ := rfl
theorem exec_timewaitReached (core : Nat) (d : Dev) (rest : List Instr) :
    exec (.timewaitReached core) ⟨d, rest⟩ = .next ⟨d.onCore core (Dev.timeReached core), rest⟩ := rfl
theorem exec_seqWaitTimeout (core : Nat) (d : Dev) (rest : List Instr) :
    exec (.seqWaitTimeout core) ⟨d, rest⟩ = .next ⟨d.onCore core (Dev.seqTimeout core), rest⟩ := rfl
theorem exec_move (core : Nat) (d : Dev) (rest : List Instr) :
    exec (.move core) ⟨d, rest⟩ = .next ⟨d.onCore core (Dev.moveCmd core), rest⟩ := rfl
theorem exec_wstream (core : Nat) (d : Dev) (rest : List Instr) :
    exec (.wstream core) ⟨d, rest⟩ = .next ⟨d.onCore core (Dev.wstreamCmd core), rest⟩ := rfl
theorem exec_wsuMcastTimeout (group : Nat) (d : Dev) (rest : List Instr) :
    exec (.wsuMcastTimeout group) ⟨d, rest⟩ = .next ⟨d.mcastTimeout group, rest⟩ := rfl
theorem exec_matmul (core sub : Nat) (par : Bool) (d : Dev) (rest : List Instr) :
    exec (.matmul core sub par) ⟨d, rest⟩ = .next ⟨d.onCore core (Dev.mxuCmd core 1 sub par), rest⟩ := rfl
theorem exec_conv (core sub : Nat) (par : Bool) (d : Dev) (rest : List Instr) :
    exec (.conv core sub par) ⟨d, rest⟩ = .next ⟨d.onCore core (Dev.mxuCmd core 2 sub par), rest⟩ := rfl
theorem exec_dwconv (core : Nat) (d : Dev) (rest : List Instr) :
    exec (.dwconv core) ⟨d, rest⟩ = .next ⟨d.onCore core (Dev.dwCmd core), rest⟩ := rfl
theorem exec_vec (core : Nat) (d : Dev) (rest : List Instr) :
    exec (.vec core) ⟨d, rest⟩ = .next ⟨d.onCore core (Dev.vecCmd core), rest⟩ := rfl
theorem exec_epilogueTile (core : Nat) (d : Dev) (rest : List Instr) :
    exec (.epilogueTile core) ⟨d, rest⟩ = .next ⟨d.onCore core (Dev.tileCmd core), rest⟩ := rfl
theorem exec_vnop (core : Nat) (d : Dev) (rest : List Instr) :
    exec (.vnop core) ⟨d, rest⟩ = .next ⟨d.vecPure core 0x00 fun _ b => b, rest⟩ := rfl
theorem exec_vadd (core : Nat) (d : Dev) (rest : List Instr) :
    exec (.vadd core) ⟨d, rest⟩ = .next ⟨d.vecLanes core 0x01 fun i => laneArith 1 (vTy i) (vSat i), rest⟩ := rfl
theorem exec_vsub (core : Nat) (d : Dev) (rest : List Instr) :
    exec (.vsub core) ⟨d, rest⟩ = .next ⟨d.vecLanes core 0x02 fun i => laneArith 2 (vTy i) (vSat i), rest⟩ := rfl
theorem exec_vmul (core : Nat) (d : Dev) (rest : List Instr) :
    exec (.vmul core) ⟨d, rest⟩ = .next ⟨d.vecLanes core 0x03 fun i => laneArith 3 (vTy i) (vSat i), rest⟩ := rfl
theorem exec_vfma (core : Nat) (d : Dev) (rest : List Instr) :
    exec (.vfma core) ⟨d, rest⟩ = .next ⟨d.vecPure core 0x04 VBank.vfma, rest⟩ := rfl
theorem exec_vmin (core : Nat) (d : Dev) (rest : List Instr) :
    exec (.vmin core) ⟨d, rest⟩ = .next ⟨d.vecLanes core 0x05 fun i => laneMin (vTy i), rest⟩ := rfl
theorem exec_vmax (core : Nat) (d : Dev) (rest : List Instr) :
    exec (.vmax core) ⟨d, rest⟩ = .next ⟨d.vecLanes core 0x06 fun i => laneMax (vTy i), rest⟩ := rfl
theorem exec_vabs (core : Nat) (d : Dev) (rest : List Instr) :
    exec (.vabs core) ⟨d, rest⟩ = .next ⟨d.vecLanes core 0x07 fun i a _ => laneAbs (vTy i) (vSat i) a, rest⟩ := rfl
theorem exec_vneg (core : Nat) (d : Dev) (rest : List Instr) :
    exec (.vneg core) ⟨d, rest⟩ = .next ⟨d.vecLanes core 0x08 fun i a _ => laneNeg (vTy i) (vSat i) a, rest⟩ := rfl
theorem exec_vdiv (core : Nat) (d : Dev) (rest : List Instr) :
    exec (.vdiv core) ⟨d, rest⟩ = .next ⟨d.vecLanes core 0x09 fun _ => fdiv, rest⟩ := rfl
theorem exec_vsqrt (core : Nat) (d : Dev) (rest : List Instr) :
    exec (.vsqrt core) ⟨d, rest⟩ = .next ⟨d.vecLanes core 0x0A fun _ a _ => fsqrt a, rest⟩ := rfl
theorem exec_vmulq (core : Nat) (d : Dev) (rest : List Instr) :
    exec (.vmulq core) ⟨d, rest⟩ = .next ⟨d.vecLanes core 0x0B fun i a b => laneMulq a b (vImm i), rest⟩ := rfl
theorem exec_vand (core : Nat) (d : Dev) (rest : List Instr) :
    exec (.vand core) ⟨d, rest⟩ = .next ⟨d.vecLanes core 0x10 fun _ a b => a &&& b, rest⟩ := rfl
theorem exec_vor (core : Nat) (d : Dev) (rest : List Instr) :
    exec (.vor core) ⟨d, rest⟩ = .next ⟨d.vecLanes core 0x11 fun _ a b => a ||| b, rest⟩ := rfl
theorem exec_vxor (core : Nat) (d : Dev) (rest : List Instr) :
    exec (.vxor core) ⟨d, rest⟩ = .next ⟨d.vecLanes core 0x12 fun _ a b => a ^^^ b, rest⟩ := rfl
theorem exec_vshl (core : Nat) (d : Dev) (rest : List Instr) :
    exec (.vshl core) ⟨d, rest⟩ = .next ⟨d.vecLanes core 0x13 fun _ => laneShl, rest⟩ := rfl
theorem exec_vshr (core : Nat) (d : Dev) (rest : List Instr) :
    exec (.vshr core) ⟨d, rest⟩ = .next ⟨d.vecLanesOr core 0x14 (fun i => vTy i == 2) fun i => laneShr (vTy i), rest⟩ := rfl
theorem exec_vcvt (core : Nat) (d : Dev) (rest : List Instr) :
    exec (.vcvt core) ⟨d, rest⟩ = .next ⟨d.vecLanesOr core 0x18 (fun i => vTy i == 2) fun i a _ => laneCvt (vTy i) (vImm i) a, rest⟩ := rfl
theorem exec_vcmp (core : Nat) (d : Dev) (rest : List Instr) :
    exec (.vcmp core) ⟨d, rest⟩ = .next ⟨d.vecPure core 0x20 VBank.vcmp, rest⟩ := rfl
theorem exec_pand (core : Nat) (d : Dev) (rest : List Instr) :
    exec (.pand core) ⟨d, rest⟩ = .next ⟨d.vecPure core 0x28 VBank.pand, rest⟩ := rfl
theorem exec_por (core : Nat) (d : Dev) (rest : List Instr) :
    exec (.por core) ⟨d, rest⟩ = .next ⟨d.vecPure core 0x29 VBank.por, rest⟩ := rfl
theorem exec_pnot (core : Nat) (d : Dev) (rest : List Instr) :
    exec (.pnot core) ⟨d, rest⟩ = .next ⟨d.vecPure core 0x2A VBank.pnot, rest⟩ := rfl
theorem exec_pfirst (core : Nat) (d : Dev) (rest : List Instr) :
    exec (.pfirst core) ⟨d, rest⟩ = .next ⟨d.vecPure core 0x2B VBank.pfirst, rest⟩ := rfl
theorem exec_vsel (core : Nat) (d : Dev) (rest : List Instr) :
    exec (.vsel core) ⟨d, rest⟩ = .next ⟨d.vecPure core 0x30 VBank.vsel, rest⟩ := rfl
theorem exec_vperm (core : Nat) (d : Dev) (rest : List Instr) :
    exec (.vperm core) ⟨d, rest⟩ = .next ⟨d.vecPure core 0x31 VBank.vperm, rest⟩ := rfl
theorem exec_vbcast (core : Nat) (d : Dev) (rest : List Instr) :
    exec (.vbcast core) ⟨d, rest⟩ = .next ⟨d.vecPure core 0x32 fun i b => b.put i fun _ => b.sc (vA i), rest⟩ := rfl
theorem exec_viota (core : Nat) (d : Dev) (rest : List Instr) :
    exec (.viota core) ⟨d, rest⟩ = .next ⟨d.vecPure core 0x36 fun i b => b.put i fun l => Word.ofNat l, rest⟩ := rfl
theorem exec_vext (core : Nat) (d : Dev) (rest : List Instr) :
    exec (.vext core) ⟨d, rest⟩ = .next ⟨d.vecPure core 0x33 fun i b => b.setSc (vD i) (b.lane (vA i) ((vImm i).fld 0 6)), rest⟩ := rfl
theorem exec_vins (core : Nat) (d : Dev) (rest : List Instr) :
    exec (.vins core) ⟨d, rest⟩ = .next ⟨d.vecPure core 0x34 VBank.vins, rest⟩ := rfl
theorem exec_vred (core : Nat) (d : Dev) (rest : List Instr) :
    exec (.vred core) ⟨d, rest⟩ = .next ⟨d.vecPure core 0x35 VBank.vred, rest⟩ := rfl
theorem exec_vact (core : Nat) (d : Dev) (rest : List Instr) :
    exec (.vact core) ⟨d, rest⟩ = .next ⟨d.vecLanesOr core 0x38 (fun i => vTy i != 2) (laneAct (d.lut core)), rest⟩ := rfl
theorem exec_vlut (core : Nat) (d : Dev) (rest : List Instr) :
    exec (.vlut core) ⟨d, rest⟩ = .next ⟨d.vecLanesOr core 0x39 (fun i => vTy i != 2) fun i a _ => lutFn (d.lut core) (vImm i) a, rest⟩ := rfl
theorem exec_vld (core : Nat) (d : Dev) (rest : List Instr) :
    exec (.vld core) ⟨d, rest⟩ = .next ⟨d.vecRun core 0x40 (vecLoad core), rest⟩ := rfl
theorem exec_vst (core : Nat) (d : Dev) (rest : List Instr) :
    exec (.vst core) ⟨d, rest⟩ = .next ⟨d.vecRun core 0x41 (vecStore core), rest⟩ := rfl
theorem exec_sld (core : Nat) (d : Dev) (rest : List Instr) :
    exec (.sld core) ⟨d, rest⟩ = .next ⟨d.vecRun core 0x42 (vecSld core), rest⟩ := rfl
theorem exec_sst (core : Nat) (d : Dev) (rest : List Instr) :
    exec (.sst core) ⟨d, rest⟩ = .next ⟨d.vecRun core 0x43 (vecSst core), rest⟩ := rfl
theorem exec_vtin (core : Nat) (d : Dev) (rest : List Instr) :
    exec (.vtin core) ⟨d, rest⟩ = .next ⟨d.vecRun core 0x48 (vecTin core), rest⟩ := rfl
theorem exec_vsend (core : Nat) (d : Dev) (rest : List Instr) :
    exec (.vsend core) ⟨d, rest⟩ = .next ⟨d.vecRun core 0x49 (vecSend core), rest⟩ := rfl
theorem exec_sadd (core : Nat) (d : Dev) (rest : List Instr) :
    exec (.sadd core) ⟨d, rest⟩ = .next ⟨d.vecScalar core 0x50 fun _ a b => a + b, rest⟩ := rfl
theorem exec_ssub (core : Nat) (d : Dev) (rest : List Instr) :
    exec (.ssub core) ⟨d, rest⟩ = .next ⟨d.vecScalar core 0x51 fun _ a b => a - b, rest⟩ := rfl
theorem exec_smul (core : Nat) (d : Dev) (rest : List Instr) :
    exec (.smul core) ⟨d, rest⟩ = .next ⟨d.vecScalar core 0x52 fun _ a b => a * b, rest⟩ := rfl
theorem exec_sli (core : Nat) (d : Dev) (rest : List Instr) :
    exec (.sli core) ⟨d, rest⟩ = .next ⟨d.vecScalar core 0x53 fun i _ _ => vImm i, rest⟩ := rfl
theorem exec_sand (core : Nat) (d : Dev) (rest : List Instr) :
    exec (.sand core) ⟨d, rest⟩ = .next ⟨d.vecScalar core 0x54 fun _ a b => a &&& b, rest⟩ := rfl
theorem exec_sor (core : Nat) (d : Dev) (rest : List Instr) :
    exec (.sor core) ⟨d, rest⟩ = .next ⟨d.vecScalar core 0x55 fun _ a b => a ||| b, rest⟩ := rfl
theorem exec_sshl (core : Nat) (d : Dev) (rest : List Instr) :
    exec (.sshl core) ⟨d, rest⟩ = .next ⟨d.vecScalar core 0x56 fun _ => laneShl, rest⟩ := rfl
theorem exec_sshr (core : Nat) (d : Dev) (rest : List Instr) :
    exec (.sshr core) ⟨d, rest⟩ = .next ⟨d.vecScalar core 0x57 fun i => laneShr (vTy i), rest⟩ := rfl
theorem exec_jmp (core : Nat) (d : Dev) (rest : List Instr) :
    exec (.jmp core) ⟨d, rest⟩ = .next ⟨d.vecJump core 0x60 fun _ => true, rest⟩ := rfl
theorem exec_bz (core : Nat) (d : Dev) (rest : List Instr) :
    exec (.bz core) ⟨d, rest⟩ = .next ⟨d.vecJump core 0x61 fun a => a == 0, rest⟩ := rfl
theorem exec_bnz (core : Nat) (d : Dev) (rest : List Instr) :
    exec (.bnz core) ⟨d, rest⟩ = .next ⟨d.vecJump core 0x62 fun a => a != 0, rest⟩ := rfl
theorem exec_vend (core : Nat) (d : Dev) (rest : List Instr) :
    exec (.vend core) ⟨d, rest⟩ = .next ⟨d.vecRun core 0x63 fun _ _ _ _ _ _ => .stop, rest⟩ := rfl
theorem exec_jobPushHi (q : Nat) (src : Src) (v : Word) (d : Dev) (rest : List Instr) :
    exec (.jobPushHi q src v) ⟨d, rest⟩ = .next ⟨if q < 3 then (d.busPosted src).pushWrite q src v else d, rest⟩ := rfl
theorem exec_dppJobPushHi (src : Src) (v : Word) (d : Dev) (rest : List Instr) :
    exec (.dppJobPushHi src v) ⟨d, rest⟩ = .next ⟨(d.busPosted src).pushWrite 3 src v, rest⟩ := rfl
theorem exec_slvJobPushHi (src : Src) (v : Word) (d : Dev) (rest : List Instr) :
    exec (.slvJobPushHi src v) ⟨d, rest⟩ = .next ⟨(d.busPosted src).pushWrite 4 src v, rest⟩ := rfl
theorem exec_end_ (core : Nat) (d : Dev) (rest : List Instr) :
    exec (.end_ core) ⟨d, rest⟩ = .next ⟨d.seqCmd core 0x3F (Dev.endOp core), rest⟩ := rfl
theorem exec_ccmdComplete (core id : Nat) (d : Dev) (rest : List Instr) :
    exec (.ccmdComplete core id) ⟨d, rest⟩ = .next ⟨d.onCore core (Dev.ccmdComplete core id), rest⟩ := rfl
theorem exec_creditTimeout (core sub : Nat) (d : Dev) (rest : List Instr) :
    exec (.creditTimeout core sub) ⟨d, rest⟩ = .next ⟨d.creditTimeout core sub, rest⟩ := rfl
theorem exec_mxuPreemptTimeout (core : Nat) (d : Dev) (rest : List Instr) :
    exec (.mxuPreemptTimeout core) ⟨d, rest⟩ = .next ⟨d.onCore core (Dev.preemptCut core), rest⟩ := rfl
theorem exec_preempt (core : Nat) (d : Dev) (rest : List Instr) :
    exec (.preempt core) ⟨d, rest⟩ = .next ⟨d.onAny core (Dev.preempt core), rest⟩ := rfl
theorem exec_resume (core : Nat) (d : Dev) (rest : List Instr) :
    exec (.resume core) ⟨d, rest⟩ = .next ⟨d.resume core, rest⟩ := rfl
theorem exec_stepStart (r : Nat) (d : Dev) (rest : List Instr) :
    exec (.stepStart r) ⟨d, rest⟩ = .next ⟨d.stepStart r, rest⟩ := rfl
theorem exec_seatRelease (r q : Nat) (d : Dev) (rest : List Instr) :
    exec (.seatRelease r q) ⟨d, rest⟩ = .next ⟨d.seatRelease r q, rest⟩ := rfl
theorem exec_stepEnd (r : Nat) (d : Dev) (rest : List Instr) :
    exec (.stepEnd r) ⟨d, rest⟩ = .next ⟨d.stepEnd r, rest⟩ := rfl
theorem exec_schedCoreOff (src : Src) (v : Word) (d : Dev) (rest : List Instr) :
    exec (.schedCoreOff src v) ⟨d, rest⟩ = .next ⟨(d.busPosted src).coreOffWrite src v, rest⟩ := rfl
theorem exec_jpegJobStart (d : Dev) (rest : List Instr) :
    exec .jpegJobStart ⟨d, rest⟩ = .next ⟨d.jpegStart, rest⟩ := rfl
theorem exec_jpegJobDone (blocks : Nat) (d : Dev) (rest : List Instr) :
    exec (.jpegJobDone blocks) ⟨d, rest⟩ = .next ⟨(d.jpegDone blocks).coachAll, rest⟩ := rfl
theorem exec_ppuJobStart (n : Nat) (d : Dev) (rest : List Instr) :
    exec (.ppuJobStart n) ⟨d, rest⟩ = .next ⟨if n < 2 then (d.ppuStart (n + 1)).coachAll else d, rest⟩ := rfl
theorem exec_ppuJobDone (n : Nat) (d : Dev) (rest : List Instr) :
    exec (.ppuJobDone n) ⟨d, rest⟩ = .next ⟨if n < 2 then (d.ppuDone (n + 1)).coachAll else d, rest⟩ := rfl
theorem exec_decodeNms (d : Dev) (rest : List Instr) :
    exec .decodeNms ⟨d, rest⟩ = .next ⟨d.dppRun false Dev.dppDecode, rest⟩ := rfl
theorem exec_emit (d : Dev) (rest : List Instr) :
    exec .emit ⟨d, rest⟩ = .next ⟨d.dppRun true Dev.dppForward, rest⟩ := rfl
theorem exec_dppJobDone (d : Dev) (rest : List Instr) :
    exec .dppJobDone ⟨d, rest⟩ = .next ⟨d.dppDone.coachAll, rest⟩ := rfl
theorem exec_heartbeat (c : Nat) (d : Dev) (rest : List Instr) :
    exec (.heartbeat c) ⟨d, rest⟩ = .next ⟨d.heartbeat c, rest⟩ := rfl
theorem exec_factor (d : Dev) (rest : List Instr) :
    exec .factor ⟨d, rest⟩ = .next ⟨d.slvRun [0, 5, 6, 7] Dev.factor, rest⟩ := rfl
theorem exec_assemble (d : Dev) (rest : List Instr) :
    exec .assemble ⟨d, rest⟩ = .next ⟨d.slvRun [1] Dev.assemble, rest⟩ := rfl
theorem exec_triangulate (d : Dev) (rest : List Instr) :
    exec .triangulate ⟨d, rest⟩ = .next ⟨d.slvRun [2] Dev.triangulate, rest⟩ := rfl
theorem exec_trackUpdate (d : Dev) (rest : List Instr) :
    exec .trackUpdate ⟨d, rest⟩ = .next ⟨d.slvRun [3] Dev.trackUpdate, rest⟩ := rfl
theorem exec_bundle (d : Dev) (rest : List Instr) :
    exec .bundle ⟨d, rest⟩ = .next ⟨d.bundleStart, rest⟩ := rfl
theorem exec_bundleSubop (d : Dev) (rest : List Instr) :
    exec .bundleSubop ⟨d, rest⟩ = .next ⟨d.bundleSubop, rest⟩ := rfl
theorem exec_slvJobDone (d : Dev) (rest : List Instr) :
    exec .slvJobDone ⟨d, rest⟩ = .next ⟨d.slvDone.coachAll, rest⟩ := rfl
theorem exec_clipStart (d : Dev) (rest : List Instr) :
    exec .clipStart ⟨d, rest⟩ = .next ⟨d.clipStart, rest⟩ := rfl
theorem exec_clipWaitExpiry (id : Nat) (d : Dev) (rest : List Instr) :
    exec (.clipWaitExpiry id) ⟨d, rest⟩ = .next ⟨d.clipExpiry id, rest⟩ := rfl
theorem exec_encodePicture (bytes qp : Nat) (d : Dev) (rest : List Instr) :
    exec (.encodePicture bytes qp) ⟨d, rest⟩ = .next ⟨d.encodePicture bytes qp, rest⟩ := rfl
theorem exec_clipClose (d : Dev) (rest : List Instr) :
    exec .clipClose ⟨d, rest⟩ = .next ⟨d.clipClose, rest⟩ := rfl
theorem exec_submit (e : Nat) (d : Dev) (rest : List Instr) :
    exec (.submit e) ⟨d, rest⟩ = .next ⟨d.entRow e 1, rest⟩ := rfl
theorem exec_close (e : Nat) (d : Dev) (rest : List Instr) :
    exec (.close e) ⟨d, rest⟩ = .next ⟨d.entRow e 2, rest⟩ := rfl
theorem exec_ppu (e : Nat) (d : Dev) (rest : List Instr) :
    exec (.ppu e) ⟨d, rest⟩ = .next ⟨d.entRow e 3, rest⟩ := rfl
theorem exec_clip (e : Nat) (d : Dev) (rest : List Instr) :
    exec (.clip e) ⟨d, rest⟩ = .next ⟨d.entRow e 4, rest⟩ := rfl
theorem exec_sync (e : Nat) (d : Dev) (rest : List Instr) :
    exec (.sync e) ⟨d, rest⟩ = .next ⟨d.entRow e 5, rest⟩ := rfl
theorem exec_syncPulseEnd (d : Dev) (rest : List Instr) :
    exec .syncPulseEnd ⟨d, rest⟩ = .next ⟨d.pulseEnd, rest⟩ := rfl
theorem exec_lateRetry (e : Nat) (d : Dev) (rest : List Instr) :
    exec (.lateRetry e) ⟨d, rest⟩ = .next ⟨if e < 256 then d.lateRetry e else d, rest⟩ := rfl
theorem exec_syncIn (d : Dev) (rest : List Instr) :
    exec .syncIn ⟨d, rest⟩ = .next ⟨d.syncIn, rest⟩ := rfl
theorem exec_timeStepHi (src : Src) (v : Word) (d : Dev) (rest : List Instr) :
    exec (.timeStepHi src v) ⟨d, rest⟩ = .next ⟨(d.busPosted src).stepWrite src v, rest⟩ := rfl
theorem exec_timeFrameSend (d : Dev) (rest : List Instr) :
    exec .timeFrameSend ⟨d, rest⟩ = .next ⟨d.timeSend, rest⟩ := rfl
theorem exec_time (p origin corr delay : Nat) (d : Dev) (rest : List Instr) :
    exec (.time p origin corr delay) ⟨d, rest⟩ = .next ⟨if p < 2 then d.timeRx p origin corr delay else d, rest⟩ := rfl
theorem exec_timeFrameLoss (d : Dev) (rest : List Instr) :
    exec .timeFrameLoss ⟨d, rest⟩ = .next ⟨d.timeLoss, rest⟩ := rfl
theorem exec_ptmResponse (master : Nat) (d : Dev) (rest : List Instr) :
    exec (.ptmResponse master) ⟨d, rest⟩ = .next ⟨d.ptmResp master, rest⟩ := rfl
theorem exec_heldReportRelease (e : Nat) (d : Dev) (rest : List Instr) :
    exec (.heldReportRelease e) ⟨d, rest⟩ = .next ⟨if e < 256 then d.lateRaise e else d, rest⟩ := rfl
theorem exec_governorEval (mw : Nat) (d : Dev) (rest : List Instr) :
    exec (.governorEval mw) ⟨d, rest⟩ = .next ⟨(d.governor mw).sensorCheck, rest⟩ := rfl
theorem exec_thermalSample (readings : List Int) (d : Dev) (rest : List Instr) :
    exec (.thermalSample readings) ⟨d, rest⟩ = .next ⟨(d.thermSample readings).sensorCheck, rest⟩ := rfl
theorem exec_pwrProfile (v : Word) (d : Dev) (rest : List Instr) :
    exec (.pwrProfile v) ⟨d, rest⟩ = .next ⟨if d.inD3 then d else d.profileWrite v, rest⟩ := rfl
theorem exec_fumarole (v : Word) (d : Dev) (rest : List Instr) :
    exec (.fumarole v) ⟨d, rest⟩ = .next ⟨if v.bit 0 then d.stateReq v else d, rest⟩ := rfl
theorem exec_fumaroleExit (req : Option Word) (d : Dev) (rest : List Instr) :
    exec (.fumaroleExit req) ⟨d, rest⟩ = .next ⟨match req with
      | some v => if v.bit 0 then d else d.stateReq v
      | none => if d.pwr.wakeDet then d.fumExit else d, rest⟩ := rfl
theorem exec_unitLost (u reason : Nat) (d : Dev) (rest : List Instr) :
    exec (.unitLost u reason) ⟨d, rest⟩ = .next ⟨if d.isMgr then (d.unitLost u reason).lossCheck 16 else d, rest⟩ := rfl
theorem exec_keepaliveTimeout (u : Nat) (d : Dev) (rest : List Instr) :
    exec (.keepaliveTimeout u) ⟨d, rest⟩ = .next ⟨d.aliveTimeout u, rest⟩ := rfl
theorem exec_wakeReportTimeout (u : Nat) (d : Dev) (rest : List Instr) :
    exec (.wakeReportTimeout u) ⟨d, rest⟩ = .next ⟨d.wakeTimeout u, rest⟩ := rfl
theorem exec_quarantineTimeout (u : Nat) (d : Dev) (rest : List Instr) :
    exec (.quarantineTimeout u) ⟨d, rest⟩ = .next ⟨d.quarTimeout u, rest⟩ := rfl
theorem exec_epochSwitch (d : Dev) (rest : List Instr) :
    exec .epochSwitch ⟨d, rest⟩ = .next ⟨d.epochSwitch, rest⟩ := rfl
theorem exec_offlineReq (slot : Nat) (v : Word) (d : Dev) (rest : List Instr) :
    exec (.offlineReq slot v) ⟨d, rest⟩ = .next ⟨d.slotCtlWrite slot (v.setBit 5 true), rest⟩ := rfl
theorem exec_chainAdmit (v : Word) (d : Dev) (rest : List Instr) :
    exec (.chainAdmit v) ⟨d, rest⟩ = .next ⟨d.admitWrite v, rest⟩ := rfl
theorem exec_chainResSerHi (v : Word) (d : Dev) (rest : List Instr) :
    exec (.chainResSerHi v) ⟨d, rest⟩ = .next ⟨d.resWrite v, rest⟩ := rfl
theorem exec_i2cPoll (polls : List SlotPoll) (d : Dev) (rest : List Instr) :
    exec (.i2cPoll polls) ⟨d, rest⟩ = .next ⟨
    if d.isMgr then (polls.take 15).zipIdx.foldl (fun (d : Dev) x => d.pollSlot (x.2 + 1) x.1) d else d, rest⟩ := rfl
theorem exec_glkLinkUp (p : Nat) (r : PeerRep) (d : Dev) (rest : List Instr) :
    exec (.glkLinkUp p r) ⟨d, rest⟩ = .next ⟨d.linkUp p r, rest⟩ := rfl
theorem exec_glkCtlRetrain (p : Nat) (v : Word) (d : Dev) (rest : List Instr) :
    exec (.glkCtlRetrain p v) ⟨d, rest⟩ = .next ⟨if 2 ≤ p then d else d.glkCtlWrite p (v.setBit 1 true), rest⟩ := rfl
theorem exec_lossHoldExpiry (u p : Nat) (d : Dev) (rest : List Instr) :
    exec (.lossHoldExpiry u p) ⟨d, rest⟩ = .next ⟨d.lossHold u p, rest⟩ := rfl
theorem exec_keepaliveTick (d : Dev) (rest : List Instr) :
    exec .keepaliveTick ⟨d, rest⟩ = .next ⟨d.aliveTick, rest⟩ := rfl
theorem exec_linkKeyRollover (u p : Nat) (d : Dev) (rest : List Instr) :
    exec (.linkKeyRollover u p) ⟨d, rest⟩ = .next ⟨d.keyRollover u p, rest⟩ := rfl
theorem exec_watchdogExpiry (d : Dev) (rest : List Instr) :
    exec .watchdogExpiry ⟨d, rest⟩ = .next ⟨d.watchdog, rest⟩ := rfl
theorem exec_secLcReqProvisioned (auth : Bool) (owner dbgMax ev : Nat) (kek : Bool) (d : Dev) (rest : List Instr) :
    exec (.secLcReqProvisioned auth owner dbgMax ev kek) ⟨d, rest⟩ = .next ⟨d.lcProvision auth owner dbgMax ev kek, rest⟩ := rfl
theorem exec_secLcReqSealed (auth : Bool) (d : Dev) (rest : List Instr) :
    exec (.secLcReqSealed auth) ⟨d, rest⟩ = .next ⟨d.lcSeal auth, rest⟩ := rfl
theorem exec_secLcReqDecommissioned (auth : Bool) (d : Dev) (rest : List Instr) :
    exec (.secLcReqDecommissioned auth) ⟨d, rest⟩ = .next ⟨d.lcDecom auth, rest⟩ := rfl
theorem exec_secCommit (v : Word) (d : Dev) (rest : List Instr) :
    exec (.secCommit v) ⟨d, rest⟩ = .next ⟨if v.bit 0 then d.secCommit else d, rest⟩ := rfl
theorem exec_dbgChal0 (req : Nat) (d : Dev) (rest : List Instr) :
    exec (.dbgChal0 req) ⟨d, rest⟩ = .next ⟨d.chalRead.2.emit (.cpl req (bytesOf 4 d.chalRead.1.toNat) false), rest⟩ := rfl
theorem exec_dbgUnlock (tap : Bool) (tok : List Byte) (sig : Bool) (d : Dev) (rest : List Instr) :
    exec (.dbgUnlock tap tok sig) ⟨d, rest⟩ = .next ⟨d.dbgUnlock tap tok sig, rest⟩ := rfl
theorem exec_debugUnlocked (d : Dev) (rest : List Instr) :
    exec .debugUnlocked ⟨d, rest⟩ = .next ⟨d.dbgOpened, rest⟩ := rfl
theorem exec_dbgLock (v : Word) (d : Dev) (rest : List Instr) :
    exec (.dbgLock v) ⟨d, rest⟩ = .next ⟨d.dbgLock v, rest⟩ := rfl
theorem exec_dbgMemoryRead (req : Nat) (core : Option Nat) (a len : Nat) (d : Dev) (rest : List Instr) :
    exec (.dbgMemoryRead req core a len) ⟨d, rest⟩ = .next ⟨d.dbgRead req core a len, rest⟩ := rfl
theorem exec_getVersion (d : Dev) (rest : List Instr) :
    exec .getVersion ⟨d, rest⟩ = .next ⟨d.spdm 0x84 [], rest⟩ := rfl
theorem exec_getCapabilities (d : Dev) (rest : List Instr) :
    exec .getCapabilities ⟨d, rest⟩ = .next ⟨d.spdm 0xE1 [], rest⟩ := rfl
theorem exec_negotiateAlgorithms (d : Dev) (rest : List Instr) :
    exec .negotiateAlgorithms ⟨d, rest⟩ = .next ⟨d.spdm 0xE3 [], rest⟩ := rfl
theorem exec_getDigests (d : Dev) (rest : List Instr) :
    exec .getDigests ⟨d, rest⟩ = .next ⟨d.spdm 0x81 [], rest⟩ := rfl
theorem exec_getCertificate (slot off len : Nat) (d : Dev) (rest : List Instr) :
    exec (.getCertificate slot off len) ⟨d, rest⟩ = .next ⟨d.spdm 0x82 [slot, off, len], rest⟩ := rfl
theorem exec_challenge (slot : Nat) (d : Dev) (rest : List Instr) :
    exec (.challenge slot) ⟨d, rest⟩ = .next ⟨d.spdm 0x83 [slot], rest⟩ := rfl
theorem exec_getMeasurements (index : Nat) (sign : Bool) (d : Dev) (rest : List Instr) :
    exec (.getMeasurements index sign) ⟨d, rest⟩ = .next ⟨d.spdm 0xE0 [index, bN sign], rest⟩ := rfl
theorem exec_mgmtUpdCtl (v : Word) (d : Dev) (rest : List Instr) :
    exec (.mgmtUpdCtl v) ⟨d, rest⟩ = .next ⟨if v.bit 0 then d.updStart else d, rest⟩ := rfl
theorem exec_updDone (img : ImageCheck) (flashOk : Bool) (d : Dev) (rest : List Instr) :
    exec (.updDone img flashOk) ⟨d, rest⟩ = .next ⟨d.updDone img flashOk, rest⟩ := rfl
theorem exec_status (withPec : Bool) (d : Dev) (rest : List Instr) :
    exec (.status withPec) ⟨d, rest⟩ = .next ⟨d.smbRead 1 d.smbStatus withPec, rest⟩ := rfl
theorem exec_alert (withPec : Bool) (d : Dev) (rest : List Instr) :
    exec (.alert withPec) ⟨d, rest⟩ = .next ⟨d.smbRead 2 (bytesOf 4 (d.rn R.topAlertStat)) withPec, rest⟩ := rfl
theorem exec_alertClear (v : Word) (p : Option Byte) (d : Dev) (rest : List Instr) :
    exec (.alertClear v p) ⟨d, rest⟩ = .next ⟨d.smbClear v p, rest⟩ := rfl
theorem exec_serial (withPec : Bool) (d : Dev) (rest : List Instr) :
    exec (.serial withPec) ⟨d, rest⟩ = .next ⟨d.smbRead 3 (bytesOf 8 d.sec.serial) withPec, rest⟩ := rfl
theorem exec_trip (withPec : Bool) (d : Dev) (rest : List Instr) :
    exec (.trip withPec) ⟨d, rest⟩ = .next ⟨d.smbRead 4 (bytesOf 4 (d.rn R.pwrTripRec)) withPec, rest⟩ := rfl
theorem exec_alertResponseAddress (d : Dev) (rest : List Instr) :
    exec .alertResponseAddress ⟨d, rest⟩ = .next ⟨d.alertResponse, rest⟩ := rfl
theorem exec_setEndpointId (eid : Nat) (d : Dev) (rest : List Instr) :
    exec (.setEndpointId eid) ⟨d, rest⟩ = .next ⟨d.setEid eid, rest⟩ := rfl
theorem exec_getEndpointId (d : Dev) (rest : List Instr) :
    exec .getEndpointId ⟨d, rest⟩ = .next ⟨d.mctpSay false { proto := 1, code := 2, status := 0, data := [d.mctp.eid] }, rest⟩ := rfl
theorem exec_getMctpVersionSupport (d : Dev) (rest : List Instr) :
    exec .getMctpVersionSupport ⟨d, rest⟩ = .next ⟨d.mctpSay false { proto := 1, code := 4, status := 0, data := [Config.freeNat 98 0] }, rest⟩ := rfl
theorem exec_getMessageTypeSupport (d : Dev) (rest : List Instr) :
    exec .getMessageTypeSupport ⟨d, rest⟩ = .next ⟨d.mctpSay false { proto := 1, code := 5, status := 0, data := [0, 1] }, rest⟩ := rfl
theorem exec_gettid (d : Dev) (rest : List Instr) :
    exec .gettid ⟨d, rest⟩ = .next ⟨d.mctpSay false { proto := 2, code := 2, status := 0, data := [Config.freeNat 98 1] }, rest⟩ := rfl
theorem exec_getpldmversion (d : Dev) (rest : List Instr) :
    exec .getpldmversion ⟨d, rest⟩ = .next ⟨d.mctpSay false { proto := 2, code := 3, status := 0, data := [Config.freeNat 98 2] }, rest⟩ := rfl
theorem exec_getpldmtypes (d : Dev) (rest : List Instr) :
    exec .getpldmtypes ⟨d, rest⟩ = .next ⟨d.mctpSay false { proto := 2, code := 4, status := 0, data := [0, 2] }, rest⟩ := rfl
theorem exec_getpldmcommands (type : Nat) (d : Dev) (rest : List Instr) :
    exec (.getpldmcommands type) ⟨d, rest⟩ = let l := if type = 0 then [2, 3, 4, 5] else if type = 2 then [4, 0x11, 0x50, 0x51] else []
  .next ⟨d.mctpSay false { proto := 2, code := 5, status := bN l.isEmpty, data := l }, rest⟩ := rfl
theorem exec_getsensorreading (id : Nat) (d : Dev) (rest : List Instr) :
    exec (.getsensorreading id) ⟨d, rest⟩ = .next ⟨d.sensorRead id, rest⟩ := rfl
theorem exec_getpdrrepositoryinfo (d : Dev) (rest : List Instr) :
    exec .getpdrrepositoryinfo ⟨d, rest⟩ = .next ⟨d.mctpSay false { proto := 2, code := 0x50, status := 0, data := [d.sensorIds.length] }, rest⟩ := rfl
theorem exec_getpdr (h : Nat) (d : Dev) (rest : List Instr) :
    exec (.getpdr h) ⟨d, rest⟩ = .next ⟨d.pdr h, rest⟩ := rfl
theorem exec_seteventreceiver (eid : Nat) (d : Dev) (rest : List Instr) :
    exec (.seteventreceiver eid) ⟨d, rest⟩ = .next ⟨d.setReceiver eid, rest⟩ := rfl
theorem exec_timeNowLo (req : Nat) (d : Dev) (rest : List Instr) :
    exec (.timeNowLo req) ⟨d, rest⟩ = .next ⟨(d.regRead R.timeNowLo).2.emit (.cpl req (bytesOf 4 (d.regRead R.timeNowLo).1.toNat) false), rest⟩ := rfl
theorem exec_ventLastAddrLo (req : Nat) (d : Dev) (rest : List Instr) :
    exec (.ventLastAddrLo req) ⟨d, rest⟩ = .next ⟨
    (d.regRead R.ventLastAddrLo).2.emit (.cpl req (bytesOf 4 (d.regRead R.ventLastAddrLo).1.toNat) false), rest⟩ := rfl
theorem exec_message (core ch : Nat) (via : Option (Nat × Frame)) (d : Dev) (rest : List Instr) :
    exec (.message core ch via) ⟨d, rest⟩ = .next ⟨match via with
      | some (p, f) => d.rowIn 0 4 p f
      | none => d.landFlight core ch, rest⟩ := rfl
theorem exec_credit (core : Nat) (via : Option (Nat × Frame)) (d : Dev) (rest : List Instr) :
    exec (.credit core via) ⟨d, rest⟩ = .next ⟨match via with
      | some (p, f) => d.rowIn 0 5 p f
      | none => d.landCredit core, rest⟩ := rfl
theorem exec_signalFrame (p : Nat) (f : Frame) (d : Dev) (rest : List Instr) :
    exec (.signalFrame p f) ⟨d, rest⟩ = .next ⟨d.rowIn 0 6 p f, rest⟩ := rfl
theorem exec_write (p : Nat) (f : Frame) (d : Dev) (rest : List Instr) :
    exec (.write p f) ⟨d, rest⟩ = .next ⟨d.rowIn 0 0 p f, rest⟩ := rfl
theorem exec_read (p : Nat) (f : Frame) (d : Dev) (rest : List Instr) :
    exec (.read p f) ⟨d, rest⟩ = .next ⟨d.rowIn 0 1 p f, rest⟩ := rfl
theorem exec_response (p : Nat) (f : Frame) (d : Dev) (rest : List Instr) :
    exec (.response p f) ⟨d, rest⟩ = .next ⟨d.rowIn 0 3 p f, rest⟩ := rfl
theorem exec_record (p : Nat) (f : Frame) (d : Dev) (rest : List Instr) :
    exec (.record p f) ⟨d, rest⟩ = .next ⟨d.rowIn 0 7 p f, rest⟩ := rfl
theorem exec_regRead (p : Nat) (f : Frame) (d : Dev) (rest : List Instr) :
    exec (.regRead p f) ⟨d, rest⟩ = .next ⟨d.rowIn 2 0 p f, rest⟩ := rfl
theorem exec_regWrite (p : Nat) (f : Frame) (d : Dev) (rest : List Instr) :
    exec (.regWrite p f) ⟨d, rest⟩ = .next ⟨d.rowIn 2 1 p f, rest⟩ := rfl
theorem exec_regResp (p : Nat) (f : Frame) (d : Dev) (rest : List Instr) :
    exec (.regResp p f) ⟨d, rest⟩ = .next ⟨d.rowIn 2 2 p f, rest⟩ := rfl
theorem exec_keepalive (p : Nat) (f : Frame) (d : Dev) (rest : List Instr) :
    exec (.keepalive p f) ⟨d, rest⟩ = .next ⟨d.rowIn 2 3 p f, rest⟩ := rfl
theorem exec_join (p : Nat) (f : Frame) (d : Dev) (rest : List Instr) :
    exec (.join p f) ⟨d, rest⟩ = .next ⟨d.rowIn 2 4 p f, rest⟩ := rfl
theorem exec_firmware (p : Nat) (f : Frame) (d : Dev) (rest : List Instr) :
    exec (.firmware p f) ⟨d, rest⟩ = .next ⟨d.rowIn 2 5 p f, rest⟩ := rfl
theorem exec_sleep (fr : Option (Nat × Frame)) (d : Dev) (rest : List Instr) :
    exec (.sleep fr) ⟨d, rest⟩ = .next ⟨match fr with
      | some (p, f) => if f.fw = some .sleep then d.rowIn 2 5 p f else d
      | none => d.sleepReq, rest⟩ := rfl
theorem exec_waybill (p : Nat) (f : Frame) (d : Dev) (rest : List Instr) :
    exec (.waybill p f) ⟨d, rest⟩ = .next ⟨d.rowIn 3 0 p f, rest⟩ := rfl
theorem exec_pcieLinkUp (speed width : Nat) (d : Dev) (rest : List Instr) :
    exec (.pcieLinkUp speed width) ⟨d, rest⟩ = .next ⟨d.pcieUp speed width, rest⟩ := rfl

end Sys2Proof.Machine
end

