-- ==== Sys2Proof/Laws/Fields.lean ====
section
/-! SUPPORT. The fields of the unit that the reporting operations leave, one lemma per field. -/

namespace Sys2Proof.Machine

/-! ### The frames without a condition on the page -/

theorem Dev.keeps_irq (s : Dev) (page i : Nat) : Dev.Keeps [.reg (page + R.irqStat)] s (s.irq page i) := by
  unfold Dev.irq
  have h1 := (Dev.Keeps.refl [.reg (page + R.irqStat)] s).setRb (page + R.irqStat) i true (.inr (.inl (by simp)))
  simp only
  split
  · exact h1.irqMsg _
  · exact h1

theorem Dev.keeps_capture (s : Dev) (page code ctx addr detail : Nat) :
    Dev.Keeps ((List.range 6).map fun i => Part.reg (page + R.capt i)) s (s.capture page code ctx addr detail) := by
  have m : ∀ i, i < 6 → Part.reg (page + R.capt i) ∈ (List.range 6).map fun i => Part.reg (page + R.capt i) :=
    fun i hi => List.mem_map.mpr ⟨i, by simpa using hi, rfl⟩
  have h := Dev.Keeps.refl ((List.range 6).map fun i => Part.reg (page + R.capt i)) s
  unfold Dev.capture; split
  · exact h.satFld _ _ _ _ (.inr (.inl (m 5 (by omega))))
  · exact (((((h.setReg _ _ (.inr (.inl (m 0 (by omega))))).setReg _ _ (.inr (.inl (m 1 (by omega))))).setReg
      _ _ (.inr (.inl (m 2 (by omega))))).setReg _ _ (.inr (.inl (m 3 (by omega))))).setReg _ _ (.inr (.inl (m 4 (by omega))))).setReg
      _ _ (.inr (.inl (m 5 (by omega))))

theorem Dev.keeps_fwSend (s : Dev) (u : Nat) (m : FwMsg) : Dev.Keeps [] s (s.fwSend u m) := (Dev.Keeps.refl _ _).fwSend _ _
theorem Dev.keeps_chainSend (s : Dev) (f : Frame) : Dev.Keeps [] s (s.chainSend f) := (Dev.Keeps.refl _ _).chainSend _
theorem Dev.keeps_tlp (s : Dev) (o : Out) : Dev.Keeps [] s (s.tlp o) := (Dev.Keeps.refl _ _).tlp _
theorem Dev.keeps_hostWr (s : Dev) (fn addr : Nat) (data : List Byte) : Dev.Keeps [] s (s.hostWr fn addr data) :=
  (Dev.Keeps.refl _ _).hostWr _ _ _
theorem Dev.keeps_msix (s : Dev) (fn vec : Nat) : Dev.Keeps [] s (s.msix fn vec) := (Dev.Keeps.refl _ _).msix _ _
theorem Dev.keeps_ltrUpdate (s : Dev) : Dev.Keeps [] s s.ltrUpdate := (Dev.Keeps.refl _ _).ltrUpdate
theorem Dev.keeps_alert (s : Dev) (n : Nm) : Dev.Keeps [] s (s.alert n) := (Dev.Keeps.refl _ _).alert _
theorem Dev.keeps_alertPin (s : Dev) (b : Bool) : Dev.Keeps [] s (s.alertPin b) := (Dev.Keeps.refl _ _).alertPin _
theorem Dev.keeps_raise (s : Dev) (e : Event) : Dev.Keeps [] s (s.raise e) := (Dev.Keeps.refl _ _).raise _
theorem Dev.keeps_ctxMsg (s : Dev) (c : Nat) : Dev.Keeps [] s (s.ctxMsg c) := (Dev.Keeps.refl _ _).ctxMsg _
theorem Dev.keeps_setGlk (s : Dev) (p : Nat) (g : Glk) : Dev.Keeps [] s (s.setGlk p g) := (Dev.Keeps.refl _ _).setGlk _ _

/-! ### irq -/

@[simp] theorem Dev.irq_draws (s : Dev) (page i : Nat) : (s.irq page i).draws = s.draws := (s.keeps_irq page i).draws (by simp)
@[simp] theorem Dev.irq_shop (s : Dev) (page i : Nat) : (s.irq page i).shop = s.shop := (s.keeps_irq page i).shop (by simp)
@[simp] theorem Dev.irq_bpm (s : Dev) (page i : Nat) : (s.irq page i).bpm = s.bpm := (s.keeps_irq page i).bpm (by simp)
@[simp] theorem Dev.irq_dram (s : Dev) (page i : Nat) : (s.irq page i).dram = s.dram := (s.keeps_irq page i).dram (by simp)
@[simp] theorem Dev.irq_marks (s : Dev) (page i : Nat) : (s.irq page i).marks = s.marks := (s.keeps_irq page i).marks (by simp)
@[simp] theorem Dev.irq_ras (s : Dev) (page i : Nat) : (s.irq page i).ras = s.ras := (s.keeps_irq page i).ras (by simp)
@[simp] theorem Dev.irq_as (s : Dev) (page i : Nat) : (s.irq page i).as = s.as := (s.keeps_irq page i).as (by simp)
@[simp] theorem Dev.irq_asMarks (s : Dev) (page i : Nat) : (s.irq page i).asMarks = s.asMarks := (s.keeps_irq page i).asMarks (by simp)
@[simp] theorem Dev.irq_boot (s : Dev) (page i : Nat) : (s.irq page i).boot = s.boot := (s.keeps_irq page i).boot (by simp)
@[simp] theorem Dev.irq_chain (s : Dev) (page i : Nat) : (s.irq page i).chain = s.chain := (s.keeps_irq page i).chain (by simp)
@[simp] theorem Dev.irq_sec (s : Dev) (page i : Nat) : (s.irq page i).sec = s.sec := (s.keeps_irq page i).sec (by simp)
@[simp] theorem Dev.irq_vent (s : Dev) (page i : Nat) : (s.irq page i).vent = s.vent := (s.keeps_irq page i).vent (by simp)
@[simp] theorem Dev.irq_pwr (s : Dev) (page i : Nat) : (s.irq page i).pwr = s.pwr := (s.keeps_irq page i).pwr (by simp)
@[simp] theorem Dev.irq_mgmt (s : Dev) (page i : Nat) : (s.irq page i).mgmt = s.mgmt := (s.keeps_irq page i).mgmt (by simp)
@[simp] theorem Dev.irq_slots (s : Dev) (page i : Nat) : (s.irq page i).slots = s.slots := (s.keeps_irq page i).slots (by simp)
@[simp] theorem Dev.irq_tim (s : Dev) (page i : Nat) : (s.irq page i).tim = s.tim := (s.keeps_irq page i).tim (by simp)
@[simp] theorem Dev.irq_eng (s : Dev) (page i : Nat) : (s.irq page i).eng = s.eng := (s.keeps_irq page i).eng (by simp)

/-! ### capture -/

@[simp] theorem Dev.capture_draws (s : Dev) (page code ctx addr detail : Nat) : (s.capture page code ctx addr detail).draws = s.draws := (s.keeps_capture page code ctx addr detail).draws (by simp)
@[simp] theorem Dev.capture_shop (s : Dev) (page code ctx addr detail : Nat) : (s.capture page code ctx addr detail).shop = s.shop := (s.keeps_capture page code ctx addr detail).shop (by simp)
@[simp] theorem Dev.capture_bpm (s : Dev) (page code ctx addr detail : Nat) : (s.capture page code ctx addr detail).bpm = s.bpm := (s.keeps_capture page code ctx addr detail).bpm (by simp)
@[simp] theorem Dev.capture_dram (s : Dev) (page code ctx addr detail : Nat) : (s.capture page code ctx addr detail).dram = s.dram := (s.keeps_capture page code ctx addr detail).dram (by simp)
@[simp] theorem Dev.capture_marks (s : Dev) (page code ctx addr detail : Nat) : (s.capture page code ctx addr detail).marks = s.marks := (s.keeps_capture page code ctx addr detail).marks (by simp)
@[simp] theorem Dev.capture_ras (s : Dev) (page code ctx addr detail : Nat) : (s.capture page code ctx addr detail).ras = s.ras := (s.keeps_capture page code ctx addr detail).ras (by simp)
@[simp] theorem Dev.capture_as (s : Dev) (page code ctx addr detail : Nat) : (s.capture page code ctx addr detail).as = s.as := (s.keeps_capture page code ctx addr detail).as (by simp)
@[simp] theorem Dev.capture_asMarks (s : Dev) (page code ctx addr detail : Nat) : (s.capture page code ctx addr detail).asMarks = s.asMarks := (s.keeps_capture page code ctx addr detail).asMarks (by simp)
@[simp] theorem Dev.capture_boot (s : Dev) (page code ctx addr detail : Nat) : (s.capture page code ctx addr detail).boot = s.boot := (s.keeps_capture page code ctx addr detail).boot (by simp)
@[simp] theorem Dev.capture_chain (s : Dev) (page code ctx addr detail : Nat) : (s.capture page code ctx addr detail).chain = s.chain := (s.keeps_capture page code ctx addr detail).chain (by simp)
@[simp] theorem Dev.capture_sec (s : Dev) (page code ctx addr detail : Nat) : (s.capture page code ctx addr detail).sec = s.sec := (s.keeps_capture page code ctx addr detail).sec (by simp)
@[simp] theorem Dev.capture_vent (s : Dev) (page code ctx addr detail : Nat) : (s.capture page code ctx addr detail).vent = s.vent := (s.keeps_capture page code ctx addr detail).vent (by simp)
@[simp] theorem Dev.capture_pwr (s : Dev) (page code ctx addr detail : Nat) : (s.capture page code ctx addr detail).pwr = s.pwr := (s.keeps_capture page code ctx addr detail).pwr (by simp)
@[simp] theorem Dev.capture_mgmt (s : Dev) (page code ctx addr detail : Nat) : (s.capture page code ctx addr detail).mgmt = s.mgmt := (s.keeps_capture page code ctx addr detail).mgmt (by simp)
@[simp] theorem Dev.capture_slots (s : Dev) (page code ctx addr detail : Nat) : (s.capture page code ctx addr detail).slots = s.slots := (s.keeps_capture page code ctx addr detail).slots (by simp)
@[simp] theorem Dev.capture_tim (s : Dev) (page code ctx addr detail : Nat) : (s.capture page code ctx addr detail).tim = s.tim := (s.keeps_capture page code ctx addr detail).tim (by simp)
@[simp] theorem Dev.capture_eng (s : Dev) (page code ctx addr detail : Nat) : (s.capture page code ctx addr detail).eng = s.eng := (s.keeps_capture page code ctx addr detail).eng (by simp)

/-! ### fwSend -/

@[simp] theorem Dev.fwSend_draws (s : Dev) (u : Nat) (m : FwMsg) : (s.fwSend u m).draws = s.draws := (s.keeps_fwSend u m).draws (by simp)
@[simp] theorem Dev.fwSend_shop (s : Dev) (u : Nat) (m : FwMsg) : (s.fwSend u m).shop = s.shop := (s.keeps_fwSend u m).shop (by simp)
@[simp] theorem Dev.fwSend_bpm (s : Dev) (u : Nat) (m : FwMsg) : (s.fwSend u m).bpm = s.bpm := (s.keeps_fwSend u m).bpm (by simp)
@[simp] theorem Dev.fwSend_dram (s : Dev) (u : Nat) (m : FwMsg) : (s.fwSend u m).dram = s.dram := (s.keeps_fwSend u m).dram (by simp)
@[simp] theorem Dev.fwSend_marks (s : Dev) (u : Nat) (m : FwMsg) : (s.fwSend u m).marks = s.marks := (s.keeps_fwSend u m).marks (by simp)
@[simp] theorem Dev.fwSend_ras (s : Dev) (u : Nat) (m : FwMsg) : (s.fwSend u m).ras = s.ras := (s.keeps_fwSend u m).ras (by simp)
@[simp] theorem Dev.fwSend_as (s : Dev) (u : Nat) (m : FwMsg) : (s.fwSend u m).as = s.as := (s.keeps_fwSend u m).as (by simp)
@[simp] theorem Dev.fwSend_asMarks (s : Dev) (u : Nat) (m : FwMsg) : (s.fwSend u m).asMarks = s.asMarks := (s.keeps_fwSend u m).asMarks (by simp)
@[simp] theorem Dev.fwSend_boot (s : Dev) (u : Nat) (m : FwMsg) : (s.fwSend u m).boot = s.boot := (s.keeps_fwSend u m).boot (by simp)
@[simp] theorem Dev.fwSend_chain (s : Dev) (u : Nat) (m : FwMsg) : (s.fwSend u m).chain = s.chain := (s.keeps_fwSend u m).chain (by simp)
@[simp] theorem Dev.fwSend_sec (s : Dev) (u : Nat) (m : FwMsg) : (s.fwSend u m).sec = s.sec := (s.keeps_fwSend u m).sec (by simp)
@[simp] theorem Dev.fwSend_vent (s : Dev) (u : Nat) (m : FwMsg) : (s.fwSend u m).vent = s.vent := (s.keeps_fwSend u m).vent (by simp)
@[simp] theorem Dev.fwSend_pwr (s : Dev) (u : Nat) (m : FwMsg) : (s.fwSend u m).pwr = s.pwr := (s.keeps_fwSend u m).pwr (by simp)
@[simp] theorem Dev.fwSend_mgmt (s : Dev) (u : Nat) (m : FwMsg) : (s.fwSend u m).mgmt = s.mgmt := (s.keeps_fwSend u m).mgmt (by simp)
@[simp] theorem Dev.fwSend_slots (s : Dev) (u : Nat) (m : FwMsg) : (s.fwSend u m).slots = s.slots := (s.keeps_fwSend u m).slots (by simp)
@[simp] theorem Dev.fwSend_tim (s : Dev) (u : Nat) (m : FwMsg) : (s.fwSend u m).tim = s.tim := (s.keeps_fwSend u m).tim (by simp)
@[simp] theorem Dev.fwSend_eng (s : Dev) (u : Nat) (m : FwMsg) : (s.fwSend u m).eng = s.eng := (s.keeps_fwSend u m).eng (by simp)

/-! ### chainSend -/

@[simp] theorem Dev.chainSend_draws (s : Dev) (f : Frame) : (s.chainSend f).draws = s.draws := (s.keeps_chainSend f).draws (by simp)
@[simp] theorem Dev.chainSend_shop (s : Dev) (f : Frame) : (s.chainSend f).shop = s.shop := (s.keeps_chainSend f).shop (by simp)
@[simp] theorem Dev.chainSend_bpm (s : Dev) (f : Frame) : (s.chainSend f).bpm = s.bpm := (s.keeps_chainSend f).bpm (by simp)
@[simp] theorem Dev.chainSend_dram (s : Dev) (f : Frame) : (s.chainSend f).dram = s.dram := (s.keeps_chainSend f).dram (by simp)
@[simp] theorem Dev.chainSend_marks (s : Dev) (f : Frame) : (s.chainSend f).marks = s.marks := (s.keeps_chainSend f).marks (by simp)
@[simp] theorem Dev.chainSend_ras (s : Dev) (f : Frame) : (s.chainSend f).ras = s.ras := (s.keeps_chainSend f).ras (by simp)
@[simp] theorem Dev.chainSend_as (s : Dev) (f : Frame) : (s.chainSend f).as = s.as := (s.keeps_chainSend f).as (by simp)
@[simp] theorem Dev.chainSend_asMarks (s : Dev) (f : Frame) : (s.chainSend f).asMarks = s.asMarks := (s.keeps_chainSend f).asMarks (by simp)
@[simp] theorem Dev.chainSend_boot (s : Dev) (f : Frame) : (s.chainSend f).boot = s.boot := (s.keeps_chainSend f).boot (by simp)
@[simp] theorem Dev.chainSend_chain (s : Dev) (f : Frame) : (s.chainSend f).chain = s.chain := (s.keeps_chainSend f).chain (by simp)
@[simp] theorem Dev.chainSend_sec (s : Dev) (f : Frame) : (s.chainSend f).sec = s.sec := (s.keeps_chainSend f).sec (by simp)
@[simp] theorem Dev.chainSend_vent (s : Dev) (f : Frame) : (s.chainSend f).vent = s.vent := (s.keeps_chainSend f).vent (by simp)
@[simp] theorem Dev.chainSend_pwr (s : Dev) (f : Frame) : (s.chainSend f).pwr = s.pwr := (s.keeps_chainSend f).pwr (by simp)
@[simp] theorem Dev.chainSend_mgmt (s : Dev) (f : Frame) : (s.chainSend f).mgmt = s.mgmt := (s.keeps_chainSend f).mgmt (by simp)
@[simp] theorem Dev.chainSend_slots (s : Dev) (f : Frame) : (s.chainSend f).slots = s.slots := (s.keeps_chainSend f).slots (by simp)
@[simp] theorem Dev.chainSend_tim (s : Dev) (f : Frame) : (s.chainSend f).tim = s.tim := (s.keeps_chainSend f).tim (by simp)
@[simp] theorem Dev.chainSend_eng (s : Dev) (f : Frame) : (s.chainSend f).eng = s.eng := (s.keeps_chainSend f).eng (by simp)

/-! ### tlp -/

@[simp] theorem Dev.tlp_draws (s : Dev) (o : Out) : (s.tlp o).draws = s.draws := (s.keeps_tlp o).draws (by simp)
@[simp] theorem Dev.tlp_shop (s : Dev) (o : Out) : (s.tlp o).shop = s.shop := (s.keeps_tlp o).shop (by simp)
@[simp] theorem Dev.tlp_bpm (s : Dev) (o : Out) : (s.tlp o).bpm = s.bpm := (s.keeps_tlp o).bpm (by simp)
@[simp] theorem Dev.tlp_dram (s : Dev) (o : Out) : (s.tlp o).dram = s.dram := (s.keeps_tlp o).dram (by simp)
@[simp] theorem Dev.tlp_marks (s : Dev) (o : Out) : (s.tlp o).marks = s.marks := (s.keeps_tlp o).marks (by simp)
@[simp] theorem Dev.tlp_ras (s : Dev) (o : Out) : (s.tlp o).ras = s.ras := (s.keeps_tlp o).ras (by simp)
@[simp] theorem Dev.tlp_as (s : Dev) (o : Out) : (s.tlp o).as = s.as := (s.keeps_tlp o).as (by simp)
@[simp] theorem Dev.tlp_asMarks (s : Dev) (o : Out) : (s.tlp o).asMarks = s.asMarks := (s.keeps_tlp o).asMarks (by simp)
@[simp] theorem Dev.tlp_boot (s : Dev) (o : Out) : (s.tlp o).boot = s.boot := (s.keeps_tlp o).boot (by simp)
@[simp] theorem Dev.tlp_chain (s : Dev) (o : Out) : (s.tlp o).chain = s.chain := (s.keeps_tlp o).chain (by simp)
@[simp] theorem Dev.tlp_sec (s : Dev) (o : Out) : (s.tlp o).sec = s.sec := (s.keeps_tlp o).sec (by simp)
@[simp] theorem Dev.tlp_vent (s : Dev) (o : Out) : (s.tlp o).vent = s.vent := (s.keeps_tlp o).vent (by simp)
@[simp] theorem Dev.tlp_pwr (s : Dev) (o : Out) : (s.tlp o).pwr = s.pwr := (s.keeps_tlp o).pwr (by simp)
@[simp] theorem Dev.tlp_mgmt (s : Dev) (o : Out) : (s.tlp o).mgmt = s.mgmt := (s.keeps_tlp o).mgmt (by simp)
@[simp] theorem Dev.tlp_slots (s : Dev) (o : Out) : (s.tlp o).slots = s.slots := (s.keeps_tlp o).slots (by simp)
@[simp] theorem Dev.tlp_tim (s : Dev) (o : Out) : (s.tlp o).tim = s.tim := (s.keeps_tlp o).tim (by simp)
@[simp] theorem Dev.tlp_eng (s : Dev) (o : Out) : (s.tlp o).eng = s.eng := (s.keeps_tlp o).eng (by simp)

/-! ### hostWr -/

@[simp] theorem Dev.hostWr_draws (s : Dev) (fn addr : Nat) (data : List Byte) : (s.hostWr fn addr data).draws = s.draws := (s.keeps_hostWr fn addr data).draws (by simp)
@[simp] theorem Dev.hostWr_shop (s : Dev) (fn addr : Nat) (data : List Byte) : (s.hostWr fn addr data).shop = s.shop := (s.keeps_hostWr fn addr data).shop (by simp)
@[simp] theorem Dev.hostWr_bpm (s : Dev) (fn addr : Nat) (data : List Byte) : (s.hostWr fn addr data).bpm = s.bpm := (s.keeps_hostWr fn addr data).bpm (by simp)
@[simp] theorem Dev.hostWr_dram (s : Dev) (fn addr : Nat) (data : List Byte) : (s.hostWr fn addr data).dram = s.dram := (s.keeps_hostWr fn addr data).dram (by simp)
@[simp] theorem Dev.hostWr_marks (s : Dev) (fn addr : Nat) (data : List Byte) : (s.hostWr fn addr data).marks = s.marks := (s.keeps_hostWr fn addr data).marks (by simp)
@[simp] theorem Dev.hostWr_ras (s : Dev) (fn addr : Nat) (data : List Byte) : (s.hostWr fn addr data).ras = s.ras := (s.keeps_hostWr fn addr data).ras (by simp)
@[simp] theorem Dev.hostWr_as (s : Dev) (fn addr : Nat) (data : List Byte) : (s.hostWr fn addr data).as = s.as := (s.keeps_hostWr fn addr data).as (by simp)
@[simp] theorem Dev.hostWr_asMarks (s : Dev) (fn addr : Nat) (data : List Byte) : (s.hostWr fn addr data).asMarks = s.asMarks := (s.keeps_hostWr fn addr data).asMarks (by simp)
@[simp] theorem Dev.hostWr_boot (s : Dev) (fn addr : Nat) (data : List Byte) : (s.hostWr fn addr data).boot = s.boot := (s.keeps_hostWr fn addr data).boot (by simp)
@[simp] theorem Dev.hostWr_chain (s : Dev) (fn addr : Nat) (data : List Byte) : (s.hostWr fn addr data).chain = s.chain := (s.keeps_hostWr fn addr data).chain (by simp)
@[simp] theorem Dev.hostWr_sec (s : Dev) (fn addr : Nat) (data : List Byte) : (s.hostWr fn addr data).sec = s.sec := (s.keeps_hostWr fn addr data).sec (by simp)
@[simp] theorem Dev.hostWr_vent (s : Dev) (fn addr : Nat) (data : List Byte) : (s.hostWr fn addr data).vent = s.vent := (s.keeps_hostWr fn addr data).vent (by simp)
@[simp] theorem Dev.hostWr_pwr (s : Dev) (fn addr : Nat) (data : List Byte) : (s.hostWr fn addr data).pwr = s.pwr := (s.keeps_hostWr fn addr data).pwr (by simp)
@[simp] theorem Dev.hostWr_mgmt (s : Dev) (fn addr : Nat) (data : List Byte) : (s.hostWr fn addr data).mgmt = s.mgmt := (s.keeps_hostWr fn addr data).mgmt (by simp)
@[simp] theorem Dev.hostWr_slots (s : Dev) (fn addr : Nat) (data : List Byte) : (s.hostWr fn addr data).slots = s.slots := (s.keeps_hostWr fn addr data).slots (by simp)
@[simp] theorem Dev.hostWr_tim (s : Dev) (fn addr : Nat) (data : List Byte) : (s.hostWr fn addr data).tim = s.tim := (s.keeps_hostWr fn addr data).tim (by simp)
@[simp] theorem Dev.hostWr_eng (s : Dev) (fn addr : Nat) (data : List Byte) : (s.hostWr fn addr data).eng = s.eng := (s.keeps_hostWr fn addr data).eng (by simp)

/-! ### msix -/

@[simp] theorem Dev.msix_draws (s : Dev) (fn vec : Nat) : (s.msix fn vec).draws = s.draws := (s.keeps_msix fn vec).draws (by simp)
@[simp] theorem Dev.msix_shop (s : Dev) (fn vec : Nat) : (s.msix fn vec).shop = s.shop := (s.keeps_msix fn vec).shop (by simp)
@[simp] theorem Dev.msix_bpm (s : Dev) (fn vec : Nat) : (s.msix fn vec).bpm = s.bpm := (s.keeps_msix fn vec).bpm (by simp)
@[simp] theorem Dev.msix_dram (s : Dev) (fn vec : Nat) : (s.msix fn vec).dram = s.dram := (s.keeps_msix fn vec).dram (by simp)
@[simp] theorem Dev.msix_marks (s : Dev) (fn vec : Nat) : (s.msix fn vec).marks = s.marks := (s.keeps_msix fn vec).marks (by simp)
@[simp] theorem Dev.msix_ras (s : Dev) (fn vec : Nat) : (s.msix fn vec).ras = s.ras := (s.keeps_msix fn vec).ras (by simp)
@[simp] theorem Dev.msix_as (s : Dev) (fn vec : Nat) : (s.msix fn vec).as = s.as := (s.keeps_msix fn vec).as (by simp)
@[simp] theorem Dev.msix_asMarks (s : Dev) (fn vec : Nat) : (s.msix fn vec).asMarks = s.asMarks := (s.keeps_msix fn vec).asMarks (by simp)
@[simp] theorem Dev.msix_boot (s : Dev) (fn vec : Nat) : (s.msix fn vec).boot = s.boot := (s.keeps_msix fn vec).boot (by simp)
@[simp] theorem Dev.msix_chain (s : Dev) (fn vec : Nat) : (s.msix fn vec).chain = s.chain := (s.keeps_msix fn vec).chain (by simp)
@[simp] theorem Dev.msix_sec (s : Dev) (fn vec : Nat) : (s.msix fn vec).sec = s.sec := (s.keeps_msix fn vec).sec (by simp)
@[simp] theorem Dev.msix_vent (s : Dev) (fn vec : Nat) : (s.msix fn vec).vent = s.vent := (s.keeps_msix fn vec).vent (by simp)
@[simp] theorem Dev.msix_pwr (s : Dev) (fn vec : Nat) : (s.msix fn vec).pwr = s.pwr := (s.keeps_msix fn vec).pwr (by simp)
@[simp] theorem Dev.msix_mgmt (s : Dev) (fn vec : Nat) : (s.msix fn vec).mgmt = s.mgmt := (s.keeps_msix fn vec).mgmt (by simp)
@[simp] theorem Dev.msix_slots (s : Dev) (fn vec : Nat) : (s.msix fn vec).slots = s.slots := (s.keeps_msix fn vec).slots (by simp)
@[simp] theorem Dev.msix_tim (s : Dev) (fn vec : Nat) : (s.msix fn vec).tim = s.tim := (s.keeps_msix fn vec).tim (by simp)
@[simp] theorem Dev.msix_eng (s : Dev) (fn vec : Nat) : (s.msix fn vec).eng = s.eng := (s.keeps_msix fn vec).eng (by simp)

/-! ### ltrUpdate -/

@[simp] theorem Dev.ltrUpdate_draws (s : Dev) : (s.ltrUpdate).draws = s.draws := (s.keeps_ltrUpdate).draws (by simp)
@[simp] theorem Dev.ltrUpdate_shop (s : Dev) : (s.ltrUpdate).shop = s.shop := (s.keeps_ltrUpdate).shop (by simp)
@[simp] theorem Dev.ltrUpdate_bpm (s : Dev) : (s.ltrUpdate).bpm = s.bpm := (s.keeps_ltrUpdate).bpm (by simp)
@[simp] theorem Dev.ltrUpdate_dram (s : Dev) : (s.ltrUpdate).dram = s.dram := (s.keeps_ltrUpdate).dram (by simp)
@[simp] theorem Dev.ltrUpdate_marks (s : Dev) : (s.ltrUpdate).marks = s.marks := (s.keeps_ltrUpdate).marks (by simp)
@[simp] theorem Dev.ltrUpdate_ras (s : Dev) : (s.ltrUpdate).ras = s.ras := (s.keeps_ltrUpdate).ras (by simp)
@[simp] theorem Dev.ltrUpdate_as (s : Dev) : (s.ltrUpdate).as = s.as := (s.keeps_ltrUpdate).as (by simp)
@[simp] theorem Dev.ltrUpdate_asMarks (s : Dev) : (s.ltrUpdate).asMarks = s.asMarks := (s.keeps_ltrUpdate).asMarks (by simp)
@[simp] theorem Dev.ltrUpdate_boot (s : Dev) : (s.ltrUpdate).boot = s.boot := (s.keeps_ltrUpdate).boot (by simp)
@[simp] theorem Dev.ltrUpdate_chain (s : Dev) : (s.ltrUpdate).chain = s.chain := (s.keeps_ltrUpdate).chain (by simp)
@[simp] theorem Dev.ltrUpdate_sec (s : Dev) : (s.ltrUpdate).sec = s.sec := (s.keeps_ltrUpdate).sec (by simp)
@[simp] theorem Dev.ltrUpdate_vent (s : Dev) : (s.ltrUpdate).vent = s.vent := (s.keeps_ltrUpdate).vent (by simp)
@[simp] theorem Dev.ltrUpdate_pwr (s : Dev) : (s.ltrUpdate).pwr = s.pwr := (s.keeps_ltrUpdate).pwr (by simp)
@[simp] theorem Dev.ltrUpdate_mgmt (s : Dev) : (s.ltrUpdate).mgmt = s.mgmt := (s.keeps_ltrUpdate).mgmt (by simp)
@[simp] theorem Dev.ltrUpdate_slots (s : Dev) : (s.ltrUpdate).slots = s.slots := (s.keeps_ltrUpdate).slots (by simp)
@[simp] theorem Dev.ltrUpdate_tim (s : Dev) : (s.ltrUpdate).tim = s.tim := (s.keeps_ltrUpdate).tim (by simp)
@[simp] theorem Dev.ltrUpdate_eng (s : Dev) : (s.ltrUpdate).eng = s.eng := (s.keeps_ltrUpdate).eng (by simp)

/-! ### alert -/

@[simp] theorem Dev.alert_draws (s : Dev) (n : Nm) : (s.alert n).draws = s.draws := (s.keeps_alert n).draws (by simp)
@[simp] theorem Dev.alert_shop (s : Dev) (n : Nm) : (s.alert n).shop = s.shop := (s.keeps_alert n).shop (by simp)
@[simp] theorem Dev.alert_bpm (s : Dev) (n : Nm) : (s.alert n).bpm = s.bpm := (s.keeps_alert n).bpm (by simp)
@[simp] theorem Dev.alert_dram (s : Dev) (n : Nm) : (s.alert n).dram = s.dram := (s.keeps_alert n).dram (by simp)
@[simp] theorem Dev.alert_marks (s : Dev) (n : Nm) : (s.alert n).marks = s.marks := (s.keeps_alert n).marks (by simp)
@[simp] theorem Dev.alert_ras (s : Dev) (n : Nm) : (s.alert n).ras = s.ras := (s.keeps_alert n).ras (by simp)
@[simp] theorem Dev.alert_as (s : Dev) (n : Nm) : (s.alert n).as = s.as := (s.keeps_alert n).as (by simp)
@[simp] theorem Dev.alert_asMarks (s : Dev) (n : Nm) : (s.alert n).asMarks = s.asMarks := (s.keeps_alert n).asMarks (by simp)
@[simp] theorem Dev.alert_boot (s : Dev) (n : Nm) : (s.alert n).boot = s.boot := (s.keeps_alert n).boot (by simp)
@[simp] theorem Dev.alert_chain (s : Dev) (n : Nm) : (s.alert n).chain = s.chain := (s.keeps_alert n).chain (by simp)
@[simp] theorem Dev.alert_sec (s : Dev) (n : Nm) : (s.alert n).sec = s.sec := (s.keeps_alert n).sec (by simp)
@[simp] theorem Dev.alert_vent (s : Dev) (n : Nm) : (s.alert n).vent = s.vent := (s.keeps_alert n).vent (by simp)
@[simp] theorem Dev.alert_pwr (s : Dev) (n : Nm) : (s.alert n).pwr = s.pwr := (s.keeps_alert n).pwr (by simp)
@[simp] theorem Dev.alert_mgmt (s : Dev) (n : Nm) : (s.alert n).mgmt = s.mgmt := (s.keeps_alert n).mgmt (by simp)
@[simp] theorem Dev.alert_slots (s : Dev) (n : Nm) : (s.alert n).slots = s.slots := (s.keeps_alert n).slots (by simp)
@[simp] theorem Dev.alert_tim (s : Dev) (n : Nm) : (s.alert n).tim = s.tim := (s.keeps_alert n).tim (by simp)
@[simp] theorem Dev.alert_eng (s : Dev) (n : Nm) : (s.alert n).eng = s.eng := (s.keeps_alert n).eng (by simp)

/-! ### alertPin -/

@[simp] theorem Dev.alertPin_draws (s : Dev) (b : Bool) : (s.alertPin b).draws = s.draws := (s.keeps_alertPin b).draws (by simp)
@[simp] theorem Dev.alertPin_shop (s : Dev) (b : Bool) : (s.alertPin b).shop = s.shop := (s.keeps_alertPin b).shop (by simp)
@[simp] theorem Dev.alertPin_bpm (s : Dev) (b : Bool) : (s.alertPin b).bpm = s.bpm := (s.keeps_alertPin b).bpm (by simp)
@[simp] theorem Dev.alertPin_dram (s : Dev) (b : Bool) : (s.alertPin b).dram = s.dram := (s.keeps_alertPin b).dram (by simp)
@[simp] theorem Dev.alertPin_marks (s : Dev) (b : Bool) : (s.alertPin b).marks = s.marks := (s.keeps_alertPin b).marks (by simp)
@[simp] theorem Dev.alertPin_ras (s : Dev) (b : Bool) : (s.alertPin b).ras = s.ras := (s.keeps_alertPin b).ras (by simp)
@[simp] theorem Dev.alertPin_as (s : Dev) (b : Bool) : (s.alertPin b).as = s.as := (s.keeps_alertPin b).as (by simp)
@[simp] theorem Dev.alertPin_asMarks (s : Dev) (b : Bool) : (s.alertPin b).asMarks = s.asMarks := (s.keeps_alertPin b).asMarks (by simp)
@[simp] theorem Dev.alertPin_boot (s : Dev) (b : Bool) : (s.alertPin b).boot = s.boot := (s.keeps_alertPin b).boot (by simp)
@[simp] theorem Dev.alertPin_chain (s : Dev) (b : Bool) : (s.alertPin b).chain = s.chain := (s.keeps_alertPin b).chain (by simp)
@[simp] theorem Dev.alertPin_sec (s : Dev) (b : Bool) : (s.alertPin b).sec = s.sec := (s.keeps_alertPin b).sec (by simp)
@[simp] theorem Dev.alertPin_vent (s : Dev) (b : Bool) : (s.alertPin b).vent = s.vent := (s.keeps_alertPin b).vent (by simp)
@[simp] theorem Dev.alertPin_pwr (s : Dev) (b : Bool) : (s.alertPin b).pwr = s.pwr := (s.keeps_alertPin b).pwr (by simp)
@[simp] theorem Dev.alertPin_mgmt (s : Dev) (b : Bool) : (s.alertPin b).mgmt = s.mgmt := (s.keeps_alertPin b).mgmt (by simp)
@[simp] theorem Dev.alertPin_slots (s : Dev) (b : Bool) : (s.alertPin b).slots = s.slots := (s.keeps_alertPin b).slots (by simp)
@[simp] theorem Dev.alertPin_tim (s : Dev) (b : Bool) : (s.alertPin b).tim = s.tim := (s.keeps_alertPin b).tim (by simp)
@[simp] theorem Dev.alertPin_eng (s : Dev) (b : Bool) : (s.alertPin b).eng = s.eng := (s.keeps_alertPin b).eng (by simp)

/-! ### raise -/

@[simp] theorem Dev.raise_draws (s : Dev) (e : Event) : (s.raise e).draws = s.draws := (s.keeps_raise e).draws (by simp)
@[simp] theorem Dev.raise_shop (s : Dev) (e : Event) : (s.raise e).shop = s.shop := (s.keeps_raise e).shop (by simp)
@[simp] theorem Dev.raise_bpm (s : Dev) (e : Event) : (s.raise e).bpm = s.bpm := (s.keeps_raise e).bpm (by simp)
@[simp] theorem Dev.raise_dram (s : Dev) (e : Event) : (s.raise e).dram = s.dram := (s.keeps_raise e).dram (by simp)
@[simp] theorem Dev.raise_marks (s : Dev) (e : Event) : (s.raise e).marks = s.marks := (s.keeps_raise e).marks (by simp)
@[simp] theorem Dev.raise_ras (s : Dev) (e : Event) : (s.raise e).ras = s.ras := (s.keeps_raise e).ras (by simp)
@[simp] theorem Dev.raise_as (s : Dev) (e : Event) : (s.raise e).as = s.as := (s.keeps_raise e).as (by simp)
@[simp] theorem Dev.raise_asMarks (s : Dev) (e : Event) : (s.raise e).asMarks = s.asMarks := (s.keeps_raise e).asMarks (by simp)
@[simp] theorem Dev.raise_boot (s : Dev) (e : Event) : (s.raise e).boot = s.boot := (s.keeps_raise e).boot (by simp)
@[simp] theorem Dev.raise_chain (s : Dev) (e : Event) : (s.raise e).chain = s.chain := (s.keeps_raise e).chain (by simp)
@[simp] theorem Dev.raise_sec (s : Dev) (e : Event) : (s.raise e).sec = s.sec := (s.keeps_raise e).sec (by simp)
@[simp] theorem Dev.raise_vent (s : Dev) (e : Event) : (s.raise e).vent = s.vent := (s.keeps_raise e).vent (by simp)
@[simp] theorem Dev.raise_pwr (s : Dev) (e : Event) : (s.raise e).pwr = s.pwr := (s.keeps_raise e).pwr (by simp)
@[simp] theorem Dev.raise_mgmt (s : Dev) (e : Event) : (s.raise e).mgmt = s.mgmt := (s.keeps_raise e).mgmt (by simp)
@[simp] theorem Dev.raise_slots (s : Dev) (e : Event) : (s.raise e).slots = s.slots := (s.keeps_raise e).slots (by simp)
@[simp] theorem Dev.raise_tim (s : Dev) (e : Event) : (s.raise e).tim = s.tim := (s.keeps_raise e).tim (by simp)
@[simp] theorem Dev.raise_eng (s : Dev) (e : Event) : (s.raise e).eng = s.eng := (s.keeps_raise e).eng (by simp)

/-! ### ctxMsg -/

@[simp] theorem Dev.ctxMsg_draws (s : Dev) (c : Nat) : (s.ctxMsg c).draws = s.draws := (s.keeps_ctxMsg c).draws (by simp)
@[simp] theorem Dev.ctxMsg_shop (s : Dev) (c : Nat) : (s.ctxMsg c).shop = s.shop := (s.keeps_ctxMsg c).shop (by simp)
@[simp] theorem Dev.ctxMsg_bpm (s : Dev) (c : Nat) : (s.ctxMsg c).bpm = s.bpm := (s.keeps_ctxMsg c).bpm (by simp)
@[simp] theorem Dev.ctxMsg_dram (s : Dev) (c : Nat) : (s.ctxMsg c).dram = s.dram := (s.keeps_ctxMsg c).dram (by simp)
@[simp] theorem Dev.ctxMsg_marks (s : Dev) (c : Nat) : (s.ctxMsg c).marks = s.marks := (s.keeps_ctxMsg c).marks (by simp)
@[simp] theorem Dev.ctxMsg_ras (s : Dev) (c : Nat) : (s.ctxMsg c).ras = s.ras := (s.keeps_ctxMsg c).ras (by simp)
@[simp] theorem Dev.ctxMsg_as (s : Dev) (c : Nat) : (s.ctxMsg c).as = s.as := (s.keeps_ctxMsg c).as (by simp)
@[simp] theorem Dev.ctxMsg_asMarks (s : Dev) (c : Nat) : (s.ctxMsg c).asMarks = s.asMarks := (s.keeps_ctxMsg c).asMarks (by simp)
@[simp] theorem Dev.ctxMsg_boot (s : Dev) (c : Nat) : (s.ctxMsg c).boot = s.boot := (s.keeps_ctxMsg c).boot (by simp)
@[simp] theorem Dev.ctxMsg_chain (s : Dev) (c : Nat) : (s.ctxMsg c).chain = s.chain := (s.keeps_ctxMsg c).chain (by simp)
@[simp] theorem Dev.ctxMsg_sec (s : Dev) (c : Nat) : (s.ctxMsg c).sec = s.sec := (s.keeps_ctxMsg c).sec (by simp)
@[simp] theorem Dev.ctxMsg_vent (s : Dev) (c : Nat) : (s.ctxMsg c).vent = s.vent := (s.keeps_ctxMsg c).vent (by simp)
@[simp] theorem Dev.ctxMsg_pwr (s : Dev) (c : Nat) : (s.ctxMsg c).pwr = s.pwr := (s.keeps_ctxMsg c).pwr (by simp)
@[simp] theorem Dev.ctxMsg_mgmt (s : Dev) (c : Nat) : (s.ctxMsg c).mgmt = s.mgmt := (s.keeps_ctxMsg c).mgmt (by simp)
@[simp] theorem Dev.ctxMsg_slots (s : Dev) (c : Nat) : (s.ctxMsg c).slots = s.slots := (s.keeps_ctxMsg c).slots (by simp)
@[simp] theorem Dev.ctxMsg_tim (s : Dev) (c : Nat) : (s.ctxMsg c).tim = s.tim := (s.keeps_ctxMsg c).tim (by simp)
@[simp] theorem Dev.ctxMsg_eng (s : Dev) (c : Nat) : (s.ctxMsg c).eng = s.eng := (s.keeps_ctxMsg c).eng (by simp)

/-! ### setGlk -/

@[simp] theorem Dev.setGlk_draws (s : Dev) (p : Nat) (g : Glk) : (s.setGlk p g).draws = s.draws := (s.keeps_setGlk p g).draws (by simp)
@[simp] theorem Dev.setGlk_shop (s : Dev) (p : Nat) (g : Glk) : (s.setGlk p g).shop = s.shop := (s.keeps_setGlk p g).shop (by simp)
@[simp] theorem Dev.setGlk_bpm (s : Dev) (p : Nat) (g : Glk) : (s.setGlk p g).bpm = s.bpm := (s.keeps_setGlk p g).bpm (by simp)
@[simp] theorem Dev.setGlk_dram (s : Dev) (p : Nat) (g : Glk) : (s.setGlk p g).dram = s.dram := (s.keeps_setGlk p g).dram (by simp)
@[simp] theorem Dev.setGlk_marks (s : Dev) (p : Nat) (g : Glk) : (s.setGlk p g).marks = s.marks := (s.keeps_setGlk p g).marks (by simp)
@[simp] theorem Dev.setGlk_ras (s : Dev) (p : Nat) (g : Glk) : (s.setGlk p g).ras = s.ras := (s.keeps_setGlk p g).ras (by simp)
@[simp] theorem Dev.setGlk_as (s : Dev) (p : Nat) (g : Glk) : (s.setGlk p g).as = s.as := (s.keeps_setGlk p g).as (by simp)
@[simp] theorem Dev.setGlk_asMarks (s : Dev) (p : Nat) (g : Glk) : (s.setGlk p g).asMarks = s.asMarks := (s.keeps_setGlk p g).asMarks (by simp)
@[simp] theorem Dev.setGlk_boot (s : Dev) (p : Nat) (g : Glk) : (s.setGlk p g).boot = s.boot := (s.keeps_setGlk p g).boot (by simp)
@[simp] theorem Dev.setGlk_chain (s : Dev) (p : Nat) (g : Glk) : (s.setGlk p g).chain = s.chain := (s.keeps_setGlk p g).chain (by simp)
@[simp] theorem Dev.setGlk_sec (s : Dev) (p : Nat) (g : Glk) : (s.setGlk p g).sec = s.sec := (s.keeps_setGlk p g).sec (by simp)
@[simp] theorem Dev.setGlk_vent (s : Dev) (p : Nat) (g : Glk) : (s.setGlk p g).vent = s.vent := (s.keeps_setGlk p g).vent (by simp)
@[simp] theorem Dev.setGlk_pwr (s : Dev) (p : Nat) (g : Glk) : (s.setGlk p g).pwr = s.pwr := (s.keeps_setGlk p g).pwr (by simp)
@[simp] theorem Dev.setGlk_mgmt (s : Dev) (p : Nat) (g : Glk) : (s.setGlk p g).mgmt = s.mgmt := (s.keeps_setGlk p g).mgmt (by simp)
@[simp] theorem Dev.setGlk_slots (s : Dev) (p : Nat) (g : Glk) : (s.setGlk p g).slots = s.slots := (s.keeps_setGlk p g).slots (by simp)
@[simp] theorem Dev.setGlk_tim (s : Dev) (p : Nat) (g : Glk) : (s.setGlk p g).tim = s.tim := (s.keeps_setGlk p g).tim (by simp)
@[simp] theorem Dev.setGlk_eng (s : Dev) (p : Nat) (g : Glk) : (s.setGlk p g).eng = s.eng := (s.keeps_setGlk p g).eng (by simp)

end Sys2Proof.Machine
end

