-- ==== Sys2Proof/Tests/Slice0.lean ====
section
/-! SUPPORT. The model's own tests: one ill-formed term for each check of WellFormed, the spec's worked examples, and for every
statement with hypotheses a state and operands that meet them, clause by clause. -/

namespace Sys2Proof.Tests

open Machine

-- One theorem at a time: each is checked before the next one is read.
set_option Elab.async false

/-- Register values `l` over a unit whose islands are on and whose clocks run. -/
def regsOn (l : List (Nat × Nat)) : Tab Word :=
  l.foldl (fun t x => Tab.set regReset t x.1 (Word.ofNat x.2))
    ((List.range 25).foldl (fun (t : Tab Word) i => t ++ [(R.clkIslStat i, 1)]) [] ++
      (List.range 25).foldl (fun (t : Tab Word) i => t ++ [(R.pwrIslCtl i, 0x19)]) [])

/-- A manager after its boot, with register values `l`: PERST_N is released, the PF answers, MGMT runs, no port is isolated. -/
def mgr (l : List (Nat × Nat)) : State :=
  { State.reset with
    regs := regsOn ([(R.topStrap, 1), (R.nocPortIso, 0), (R.mgmtStat, 4)] ++ l)
    boot := { perst := false, sampled := true }
    hif := { rrs := false, cfg := [(1, 0x00100006)] } }

/-- A worker of address 1 after its boot, with register values `l`. -/
def wkr (l : List (Nat × Nat)) : State :=
  { State.reset with
    regs := regsOn ([(R.chainStat, 0x11), (R.mgmtStat, 4)] ++ l)
    boot := { perst := false, sampled := true } }

/-- Every channel is trained, 120 GiB are usable. -/
def trained : List (Nat × Nat) := (List.range 8).map fun k => (R.memcCfg k, 0x250)

/-- `mgr l` with configuration dwords `c`. -/
def mgrCfg (l c : List (Nat × Nat)) : State :=
  { mgr l with hif := { rrs := false, cfg := c.foldl (fun t x => Tab.set cfgReset t x.1 (Word.ofNat x.2)) [(1, 0x00100006)] } }

/-- Registers of context `c`: its four rings hold 16 entries each at 0x10000, 0x20000, 0x30000, 0x40000; `st` is its state. -/
def rings (c st : Nat) : List (Nat × Nat) :=
  (R.ctxStat c, st) :: (List.range 4).flatMap fun r => [(R.ctxRingSize c r, 4), (R.ctxRingBaseLo c r, 0x10000 * (r + 1))]

/-- `s` with context `c` holding `x`. -/
def withCtx (s : State) (c : Nat) (x : Ctx) : State := { s with ctxs := Tab.set (fun _ => {}) s.ctxs c x }

/-- A host command of opcode `op` with SEQ 1 and operand words `l` (word 2 on). -/
def hcmd (op : Nat) (l : List Nat) : List Word := [Word.ofNat op, 1] ++ l.map Word.ofNat ++ List.replicate (14 - l.length) 0

/-- Registers of pool `p`: enabled, `n` buffers of 4 KiB of class `cls` at `base`. -/
def pool (p n cls base : Nat) : List (Nat × Nat) :=
  [(R.bpmPoolCfg0 p, n), (R.bpmPoolCfg1 p, 16), (R.bpmPoolCfg2 p, 0x4000 + cls), (R.bpmPoolBaseLo p, base)]

/-- A manager whose context 255, OPEN in slot 63, has command `w` alone at the front of its queue, with operand record `d`; trained
memory; pools 0 (PIXEL), 1 (CONTROL) and 15 (CLIP). -/
def front (w : List Word) (d : Option (List Byte)) : State :=
  let s := mgr (rings 255 1 ++ trained ++ pool 0 4 0 0x100000 ++ pool 1 4 4 0x200000 ++ pool 15 4 3 0x300000 ++ [(R.ctxCoreset 255 15, 0xFFFF)])
  { withCtx s 255 { sqTail := 1, sqIssued := 1, sq := [w], opData := d } with slots := [(63, 255)] }

/-- Fifteen VFs are enabled, VF 15 with memory and context 255. -/
def vfs (l : List (Nat × Nat)) : State := mgrCfg ([(R.hifVfCtx 56, 255)] ++ l) [(0x5A, 0x19), (0x5C, 15)]

/-- A coach whose description is all zeros. -/
def noCoach : Coach :=
  { kind := 0, seats := 0, nslot := 0, src := 0, seatAddr := 0, ppuTpl := 0, inStride := 0, post0 := 0, post1 := 0, headStride := 0,
    outStride := 0, ttLcore := 0, ttAddr := 0, ttStride := 0, ttCount := 0, expand := 0 }

theorem test_witness_AnIdleStepIsOneTclkEdge : State.reset.pending = [] := rfl

theorem test_witness_EveryStepKeepsTheQueueWellFormed :
    ({ mgr [] with pending := [.hostNop 255, .replayTimeout 1] } : State).queueWf = true ∧
    ∃ t, step { mgr [] with pending := [.hostNop 255, .replayTimeout 1] } = .next t := ⟨by decide +kernel, _, rfl⟩

/-- A state with one byte at the last address of DRAM and one in the last activation store, before a write through BAR 2. -/
def memState : State :=
  { mgr [] with dram := [(0, 1), (2 ^ 35 - 1, 255)], as := [(15 * 2 ^ 23 + 8388607, 7)], pending := [.bar2Write 0 0 0 [1, 2, 3, 4] false false] }

theorem test_witness_EveryStepKeepsTheMemoriesCanonical : memState.memWf = true ∧ ∃ t, step memState = .next t :=
  ⟨by decide +kernel, _, rfl⟩

theorem test_witness_AStoreReadsBackAndMemoriesThatReadAlikeAreEqual :
    memState.memWf = true ∧ (8388608 - 4) + ([1, 2, 3, 4] : List Byte).length ≤ 2 ^ 23 ∧ Memory.wf [(3, 5)] = true := by decide +kernel

/-- Sectors 0 to 2 hold a correctable, an uncorrectable and a poisoned code word. -/
def marked : State := { mgr [] with marks := [(0, .ce), (1, .ue), (2, .poison)] }

theorem test_witness_ADemandReadCorrectsOrPoisonsItsSector : marked.mark 0 = .ce ∧ marked.mark 1 = .ue := by decide

/-- A manager that works: a context open with a command, a slot, memory and an island register written. -/
def busy : State :=
  { mgr [(R.ctxStat 3, 1), (R.rasCtl, 2), (R.clkIslFreq 2, 800), (R.topRstCause, 0xFFFF0001)] with
    shop := 2 ^ 60, ctxs := [(3, { sqTail := 1 })], slots := [(0, 3)], dram := [(5, 6)], as := [(7, 8)], marks := [(9, .ce)] }

theorem test_witness_AResetClearsTheUnitOrDoesNotStart :
    busy.isMgr = true ∧ busy.boot.powered = true ∧ busy.boot.perst = false ∧ busy.absorbs 3 = false ∧ busy.absorbs 4 = false ∧
    busy.absorbs 5 = false ∧ busy.absorbs 7 = false ∧ (wkr []).isMgr = false ∧ (wkr []).slotsUsed = false := by decide +kernel

/-- A worker that runs a context, and a manager in the middle of a chain reset with PERST_N asserted and no power. -/
def slotted : State := { wkr [] with slots := [(0, 3)] }

theorem test_witness_AResetClearsTheUnitOrDoesNotStart_not :
    slotted.isMgr = false ∧ slotted.slotsUsed = true ∧ ({ mgr [] with boot := { powered := false } } : State).boot.powered = false ∧
    State.reset.boot.perst = true ∧ ({ mgr [] with boot := { perst := true } } : State).absorbs 3 = true ∧
    ({ mgr [] with boot := { perst := true } } : State).absorbs 4 = true ∧
    ({ mgr [] with boot := { perst := true } } : State).absorbs 5 = true := by decide +kernel

theorem test_witness_PowerStrapsAndTheBootSequence :
    State.reset.boot.sampled = false ∧ (mgr []).boot.sampled = true ∧ (1 : Word).bit 0 = true ∧ (1 : Word).bit 8 = false ∧
    ({ mgr [] with boot := {} } : State).isMgr = true ∧ ({ mgr [] with boot := {} } : State).rb R.topStrap 8 = false ∧
    ((mgr []).mgmt.order ((mgr []).rb R.topStrap 7)).head? = some 0 := by decide +kernel

/-- `s` while its boot ROM tries slot `k` of image state `st`, with firmware not yet running. -/
def trying (s : State) (k : Nat) (st : SlotSt) : State :=
  { s with regs := Tab.del R.mgmtStat s.regs, mgmt := { s.mgmt with slotB := { st, svn := 7 } },
           boot := { s.boot with trying := some k, tried := [k], started := true } }

/-- An image of security version 7, which passes the check when `ok`. -/
def image (ok : Bool) : ImageCheck :=
  { ok, runs := true, codec := true, reason := 1, mgmtSvn := 7, codecSvn := 1, version := 0x010203, revoke := 0, signSlot := 0 }

theorem test_witness_ImagesRunFailAndRestart :
    (trying (mgr []) 1 .pending).boot.trying = some 1 ∧ (trying (mgr []) 1 .pending).isMgr = true ∧
    (trying (mgr []) 1 .pending).rf R.mgmtStat 0 2 = 0 ∧ (trying (mgr []) 1 .pending).imageOk (image true) = true ∧
    (trying (mgr []) 1 .pending).imageOk (image false) = false ∧ (image true).runs = true ∧
    ((trying (mgr []) 1 .pending).mgmt.slot 1).st = .pending ∧ (trying (wkr []) 1 .empty).isMgr = false ∧
    (trying (wkr []) 1 .empty).rf R.mgmtStat 0 2 = 0 ∧ 1 ∈ (trying (mgr []) 1 .pending).boot.tried ∧
    (trying (mgr []) 1 .pending).rb R.mgmtStat 2 = false ∧ (mgr []).mgmtUp = true ∧ (mgr []).boot.started = false ∧
    State.reset.mgmtUp = false := by decide +kernel

theorem test_witness_TrainingZeroisationAndFunctionResetEnd : (7 : Nat) < 8 ∧ (mgr []).rb (R.memcCfg 7) 9 = false := by decide +kernel

/-- A manager that zeroises two extents of DRAM and resets its PF. -/
def zeroing : State :=
  { mgr [(R.topStat, 0x10), (R.hifFlrStat, 1)] with
    dram := [(0x7FF, 1), (0x800, 2), (0x8FF, 3), (0x980, 4)]
    boot := { perst := false, zero := [{ base := 0x800, len := 256, cls := 1 }, { base := 0x880, len := 256, cls := 1 }] } }

theorem test_witness_TrainingZeroisationAndFunctionResetEnd_rest :
    zeroing.boot.zero ≠ [] ∧ zeroing.boot.waitEn = [] ∧ (mgr []).boot.zero = [] ∧ zeroing.rb R.hifFlrStat 0 = true ∧
    (mgr []).rb R.hifFlrStat 0 = false := by decide +kernel

theorem test_witness_ConfigurationRequestsAreAnswered :
    (mgr []).cfgUp = true ∧ (vfs []).vfOn 15 = true ∧ (vfs []).isMgr = true ∧ (vfs []).boot.perst = false ∧
    (vfs []).boot.powered = true ∧ ({ mgr [] with hif := {} } : State).hif.rrs = true ∧ (mgr []).vfOn 1 = false ∧
    1023 ∉ [1, 0x11, 0x14, 0x1A, 0x22, 0x5A, 0x6C] ∧ 1023 ∉ [1, 0x12, 0x20] ∧ (wkr []).isMgr = false := by decide +kernel

theorem test_witness_VirtualFunctionsAndBarsFollowConfiguration :
    (mgrCfg [] [(0x5C, 7)]).cfgUp = true ∧ (mgrCfg [] [(0x5C, 7)]).vfRefused = false ∧ (mgrCfg [] [(0x5C, 8)]).vfEn = false ∧
    (mgrCfg [] [(0x5C, 8)]).vfRefused = true ∧ (vfs []).cfgUp = true ∧ (vfs []).vfEn = true ∧ (mgrCfg [] [(1, 0)]).mse 0 = false ∧
    (mgrCfg [] [(1, 0)]).cfgUp = true ∧ (mgr []).mse 0 = true ∧ (vfs []).vfOn 15 = true ∧ (vfs []).hif.waitQ = [] ∧
    (vfs []).inFlr 15 = false ∧ (vfs [(R.hifFlrStat, 0x8000)]).inFlr 15 = true ∧ (vfs []).rf R.hifPmStat 0 2 ≠ 3 := by decide +kernel

/-- A manager whose PF may not master the bus while a write waits. -/
def waits : State := { mgr [] with hif := { rrs := false, cfg := [(1, 0x00100002)], waitQ := [.wr 0 16 [1, 2]] } }

theorem test_witness_BusMasterEnableLetsOut :
    waits.cfgUp = true ∧ waits.rf R.hifPmStat 0 2 ≠ 3 ∧ waits.hif.waitQ = [.wr 0 16 [1, 2]] := by decide +kernel

/-- A link in L0 with ASPM L1 enabled, PTM enabled and TIME following PTM. -/
def linked : State :=
  let s := mgrCfg [(R.hifLinkStat, 0x400), (R.timeCtl, 2)] [(0x1C, 2), (0x76, 1), (0x72, 4)]
  { s with hif := { s.hif with ptmOut := true }, tim := { ptmMiss := 8 } }

theorem test_witness_HostLinkTrainsSleepsAndAsksForTime :
    (mgr []).pfUp = true ∧ (mgr []).pageUp R.hifLinkCtl = true ∧ (mgr []).boot.perst = false ∧ (mgr []).boot.powered = true ∧
    linked.rb R.hifLinkStat 10 = true ∧ (linked.cfg 0 0x1C).bit 1 = true ∧ (mgr []).rb R.hifLinkStat 10 = false ∧
    linked.isMgr = true ∧ (linked.cfg 0 0x76).bit 0 = true ∧ linked.inD3 = false ∧ (wkr []).isMgr = false ∧
    linked.timeSrc = 2 ∧ 8 ≤ linked.tim.ptmMiss ∧ (mgr []).timeSrc ≠ 2 ∧ linked.hif.ptmOut = true ∧
    (mgr []).hif.ptmOut = false := by decide +kernel

/-- A manager with trained memory and configuration dwords `c`, whose endpoint holds a read-ahead line of requester 9 at address 0. -/
def ahead (c : List (Nat × Nat)) : State :=
  let s := mgrCfg trained c
  { s with
    hif := { s.hif with ahead := [{ req := 9, lines := [{ fn := 0, addr := 0, data := [] }] }] }
    dram := [(0, 5), (32, 6)] }

/-- The last byte of the usable capacity. -/
def lastByte : Nat := 128849018879

theorem test_witness_Bar2WritesStoreTheirBytes :
    (ahead []).ecrcOn = false ∧ (ahead []).bar2Addr 0 lastByte 1 = some lastByte ∧ (ahead []).bar2Addr 0 lastByte 2 = none ∧
    (ahead [(0x46, 0x100)]).ecrcOn = true ∧ (ahead []).rf R.rasInjCtl 0 2 = 0 := by decide +kernel

theorem test_witness_ReadsCompleteWithWhatTheyMaySee :
    (ahead []).ecrcOn = false ∧ (ahead []).bar2Addr 0 lastByte 1 = some lastByte ∧ (ahead []).pfOf (lastByte / 4096) = none ∧
    (ahead []).bar2Addr 0 lastByte 2 = none ∧ (ahead []).barMay (.host 0) = true ∧ (ahead []).barMay (.host 1) = false ∧
    0x7FFFFC % 4 = 0 := by decide +kernel

/-- Requests of a manager: tag 1 brings command entries of context 3, tag 2 an operand, tag 4 is dead, tag 7 in quarantine. -/
def reading : State :=
  let s := mgr [(R.ctxStat 3, 1), (R.ctxStat 5, 1)]
  { s with
    hif := { s.hif with
      reads := [{ tag := 1, fn := 0, for_ := .sq 3 0, addr := 0, len := 64 }, { tag := 2, fn := 0, for_ := .operand 5, addr := 64, len := 8, got := [1] },
        { tag := 4, fn := 0, for_ := .dead, addr := 0, len := 64 }]
      quar := [(7, false)] } }

theorem test_witness_TagsAndCompletions :
    reading.hif.quar.find? (·.1 == 1) = none ∧
    reading.hif.reads.find? (·.tag == 1) = some { tag := 1, fn := 0, for_ := .sq 3 0, addr := 0, len := 64 } ∧
    reading.hif.reads.find? (·.tag == 2) = some { tag := 2, fn := 0, for_ := .operand 5, addr := 64, len := 8, got := [1] } ∧
    reading.ctxSt 5 = 1 ∧ reading.hif.quar.find? (·.1 == 7) = some (7, false) ∧ reading.hif.reads.find? (·.tag == 7) = none ∧
    reading.hif.quar.find? (·.1 == 1023) = none ∧ reading.hif.reads.find? (·.tag == 1023) = none ∧ reading.hif.tagQ = [] ∧
    reading.hif.reads.find? (·.tag == 4) = some { tag := 4, fn := 0, for_ := .dead, addr := 0, len := 64 } ∧
    reading.isMgr = true ∧ reading.ctxSt 3 = 1 := by decide +kernel

theorem test_witness_HeaderRegistersOfABlock :
    (mgr []).pfUp = true ∧ (mgr []).pageUp (pageBase 0x10000) = true ∧ pageBase 0x10000 ≠ 0x71000 ∧
    (mgr []).pageUp (pageBase 0x7FF000) = true ∧ pageBase 0x7FF000 ≠ 0x71000 ∧
    (mgr [(0x10018, 1), (0x1001C, 1), (0x10020, 1)]).irqOn (hdrPage 0x10000) = true ∧
    (mgr [(0x10018, 1), (0x1001C, 1), (0x10020, 1)]).rf (hdrPage 0x10000 + R.irqRoute) 0 2 = 1 := by decide +kernel

theorem test_witness_SoftResetQuiesceAndFreezeOfABlock :
    (mgr []).pfUp = true ∧ (mgr []).pageUp (pageBase 0x30000) = true ∧ hdrPage 0x30000 < 0x400000 ∧
    ((mgr []).busPosted (.host 0)).srstWork (hdrPage 0x30000) = (mgr []).busPosted (.host 0) ∧
    hdrPage 0x30000 / 0x1000 ∉ [1, 2, 5] ∧ (mgr [(0x30010, 2)]).rb (hdrPage 0x30000 + R.ctl) 1 = true ∧
    hdrPage 0x30000 / 0x1000 ∉ [7, 0x10, 0x78, 0x79, 0x7A] ∧ 0x400000 ≤ hdrPage 0x401000 ∧
    (mgr []).rb (hdrPage 0x30000 + R.ctl) 1 = false ∧ (4 : Word).bit 2 = true ∧ (mgr []).rb (hdrPage 0x30000 + R.ctl) 2 = false ∧
    (mgr [(0x30010, 4)]).rb (hdrPage 0x30000 + R.ctl) 2 = true ∧ (mgr [(0x30010, 4)]).rb (hdrPage 0x30000 + R.ctl) 1 = false ∧
    (mgr [(0x30010, 4)]).outstanding (hdrPage 0x30000) = false := by decide +kernel

/-- Core 2 is gated, core 3 waits for its clock, the camera island runs at another frequency than is asked, core 4 holds a byte. -/
def islands : State :=
  { mgr [(R.pwrIslCtl 2, 9), (R.clkIslStat 3, 0), (R.clkIslStat 21, 1)] with as := [(4 * 2 ^ 23 + 8388607, 5)] }

theorem test_witness_PortsClocksAndIslands :
    islands.pfUp = true ∧ islands.pageUp R.nocPortIsoSet = true ∧ islands.inD3 = false ∧ domOf 15 ≠ 3 ∧
    freqOk (domOf 15) ((1200 : Word).fld 0 11) = true ∧ (1200 : Word).fld 0 11 ≤ vselMax (domOf 15) (islands.rf (R.pwrIslCtl 15) 2 2) ∧
    freqOk (domOf 15) ((1201 : Word).fld 0 11) = false ∧ islands.islRuns 3 = true ∧ islands.rb (R.clkIslStat 3) 0 = false ∧
    islands.islRuns 2 = false ∧ islands.rb (R.clkIslStat 4) 0 = true ∧ (1 : Word).bit 0 = true ∧ islands.rf (R.pwrIslCtl 2) 4 2 = 0 ∧
    (2 : Word).bit 0 = false ∧ islands.rf (R.pwrIslCtl 4) 4 2 ≠ 0 ∧ gateable 25 = false := by decide +kernel

/-- A manager with unit 15 JOINED and a remote read of TXID 9 outstanding. -/
def remote : State :=
  { mgr [] with chain := { units := [(15, { st := .joined })], out := [{ dst := 15, vc := 3, txid := 9, frame := { cls := 2 }, what := .regRead 7 }] } }

theorem test_witness_RegisterAndRemoteAccesses :
    remote.barMay (.host 0) = true ∧ 0x18100 % 4 = 0 ∧ pageBase 0x18100 ≠ 0x71000 ∧ remote.pageUp 0x18100 = true ∧
    pageAt 0x18100 = some .ras ∧ (findReg PageInfo.ras.regs 0x100).isSome = true ∧
    (remote.busPosted (.host 0)).wrSpecial (.host 0) 0x18100 2 = none ∧ remote.rb (R.capt 0) 31 = false ∧ remote.isMgr = true ∧
    remote.remoteUnit 1 = false ∧ remote.remoteUnit 15 = true ∧ remote.rb (0x7A000 + R.capt 0) 31 = false ∧
    (remote.chain.out.filter fun t => t.dst = 15 ∧ t.vc = 3).length < 256 ∧
    remote.chain.out.find? (fun t => t.vc == 3 && t.txid == 9 && (match t.what with | .regRead _ => true | _ => false)) =
      some { dst := 15, vc := 3, txid := 9, frame := { cls := 2 }, what := .regRead 7 } ∧ (wkr []).isMgr = false := by decide +kernel

theorem test_witness_ContextsOpenResetAndFault :
    (mgr (rings 255 0)).pageMay (.host 0) 255 = true ∧ (mgr (rings 255 0)).ctxSt 255 = 0 ∧
    (mgr (rings 255 0)).openBad 255 false = false ∧ (mgr [(R.ctxRingSize 255 0, 3)]).ctxSt 255 = 0 ∧ (mgr [(R.ctxRingSize 255 0, 3)]).openBad 255 false = true ∧
    (mgr []).pageMay (.host 1) 255 = false ∧ (mgr (rings 255 2)).ctxSt 255 ≠ 3 ∧ (mgr (rings 255 2)).eng = {} ∧
    (mgr (rings 255 2)).tim.ents = [] ∧ (mgr (rings 255 2)).slotOf 255 = none ∧ ((mgr (rings 255 2)).ctx 255).mqWait = [] ∧
    (mgr (rings 255 3)).ctxSt 255 = 3 ∧ (mgr (rings 255 1)).ctxVf 255 = 0 ∧ (4 : Word).bit 0 = false ∧ (4 : Word).bit 2 = true ∧
    (mgr (rings 255 1)).ctxSt 255 ≠ 0 ∧ (∀ o, o < 256 → o ≠ 255 → (mgr (rings 255 1)).rb (R.ctxCtl o) 2 = false) ∧
    (mgr (rings 255 1 ++ [(R.ctxCtl 0, 4)])).rb (R.ctxCtl 0) 2 = true := by decide +kernel

/-- A manager whose context 255 has faulted and torn down its work. -/
def torn : State := withCtx (mgr (rings 255 2)) 255 { tear := some { status := some { nm := .ctxFaultAddr, blk := 7 }, seq := 3, d2 := 1, core := 0 } }

theorem test_witness_TeardownDone :
    torn.ringTakes 255 2 = true ∧ torn.staged = [] ∧ torn.lost = [] ∧ torn.hifHeld (torn.ctxVec 255).1 = false ∧ torn.isMgr = true ∧
    (torn.ctx 255).tear = some { status := some { nm := .ctxFaultAddr, blk := 7 }, seq := 3, d2 := 1, core := 0 } ∧
    torn.ctxSt 255 = 2 ∧ (torn.ctx 1).tear = none := by decide +kernel

/-- A staged event for context 255, a metadata record that waits for it, and an unannounced completion; its vector is unmasked. -/
def staged : State :=
  let s := withCtx (mgrCfg (rings 255 1 ++ [(R.ctxMod 255 1, 0x00002804)]) [(0x14, 0x80000000)]) 255
    { un1 := 1, mqWait := [{ ctx := 255, words := List.replicate 16 0, blk := 0x11 }] }
  { s with
    staged := [{ plane := 3, ring := 255, ev := { nm := .ctxFaultAddr, blk := 7 } }]
    hif := { s.hif with msixTab := [(255 * 4 + 3, 0)] } }

theorem test_witness_RecordsReachTheirRings :
    staged.staged = [{ plane := 3, ring := 255, ev := { nm := .ctxFaultAddr, blk := 7 } }] ∧ staged.ringCtx 255 = some 255 ∧
    staged.ringTakes 255 2 = true ∧ staged.lost = [] ∧ staged.hifHeld (staged.ctxVec 255).1 = false ∧
    (∀ x ∈ staged.staged, x.plane ≠ 0 ∨ staged.evTakes x.ring = false) ∧
    (staged.ctx 255).mqWait = [{ ctx := 255, words := List.replicate 16 0, blk := 0x11 }] ∧ staged.ringTakes 255 3 = true ∧
    (staged.ctx 254).mqWait = [] ∧ staged.modCount 255 1 ≠ 0 ∧ staged.rf (R.ctxMod 255 1) 8 16 ≠ 0 ∧ (staged.ctx 255).un 1 ≠ 0 ∧
    (staged.msixCtl (staged.ctxVec 255).1).bit 31 = true ∧ (staged.msixCtl (staged.ctxVec 255).1).bit 30 = false ∧
    (Tab.get msixReset staged.hif.msixTab ((staged.ctxVec 255).1 * 1024 + (staged.ctxVec 255).2 * 4 + 3)).bit 0 = false ∧
    (staged.ctx 255).un 3 = 0 := by decide +kernel

/-- A manager whose context 255 is OPEN and has written 9 events, of which 4 are consumed; stream 4095 has a ring of 16 entries. -/
def doors (l : List (Nat × Nat)) : State :=
  let s := withCtx (mgr (rings 255 1 ++ (R.ctxRingCnt 255 2, 9) :: l)) 255 { eqHead := 4 }
  { s with eng := { s.eng with rings := [(4095, some { ctx := 255, unit := 0, addr := 0x100000, n := 4, pool := 0, base := 0, size := 4096 })] } }

/-- The driver's next value of a doorbell. -/
def door (v : Word) (s : State) : Prop := s.isMgr = true ∧ s.inD3 = false ∧ s.dbMay (.host 0) 255 = true ∧ (s.ctx 255).flr = false ∧ v.toNat ≠ (s.ctx 255).db 2

theorem test_witness_DoorbellsActByTheContextsState :
    door 9 (doors []) ∧ (doors []).rb (R.capt 0) 31 = false ∧ door 9 (doors [(0x7010, 2)]) ∧ (doors [(0x7010, 2)]).schedDown = true ∧
    door 9 (doors [(R.ctxStat 255, 2)]) ∧ (doors [(R.ctxStat 255, 2)]).schedDown = false ∧ (doors [(R.ctxStat 255, 2)]).ctxSt 255 = 2 ∧
    (doors []).ctxSt 254 = 0 ∧ (doors []).ctxSt 255 = 1 ∧ ((doors []).ctx 255).sqIssued = ((doors []).ctx 255).sqTail ∧
    ((9 : Word).toNat + 2 ^ 32 - ((doors []).ctx 255).db 2) % 2 ^ 32 ≤
      ((doors []).rn (R.ctxRingCnt 255 2) + 2 ^ 32 - ((doors []).ctx 255).db 2) % 2 ^ 32 ∧
    ((doors []).rn (R.ctxRingCnt 255 2) + 2 ^ 32 - ((doors []).ctx 255).db 2) % 2 ^ 32 <
      ((10 : Word).toNat + 2 ^ 32 - ((doors []).ctx 255).db 2) % 2 ^ 32 ∧
    (doors []).rb (R.ctxCtl 255) 3 = false ∧ (doors []).ringFull 255 1 = false ∧ (doors []).hifHeld ((doors []).ctxVec 255).1 = false ∧
    ((doors []).nextTag).isSome = true ∧ (1 + 2 ^ 32 - (doors []).rn (R.ctxRingCnt 255 0)) % 2 ^ 32 ≤ (doors []).ringLen 255 0 ∧
    (wkr []).isMgr = false := by unfold door; decide +kernel

theorem test_witness_InRingsAndSchedResetEnd :
    (doors []).inRing ((0x10FFF : Word).fld 0 12) =
      some { ctx := 255, unit := 0, addr := 0x100000, n := 4, pool := 0, base := 0, size := 4096 } ∧
    ((0x10FFF : Word).fld 12 20 + 2 ^ 20 - 0) % 2 ^ 20 ≤ 2 ^ 4 ∧ 2 ^ 4 < ((0x11FFF : Word).fld 12 20 + 2 ^ 20 - 0) % 2 ^ 20 ∧
    (∀ x ∈ (doors []).ctxs, x.2.sq = [] ∧ x.2.sqIssued = x.2.sqTail) ∧ (doors []).hif.dbLatch = [] ∧
    (doors []).rf (R.pwrIslCtl 23) 4 2 = 1 := by decide +kernel

/-- A model image: one logical core, one section with one core command. -/
def modelImage : List Byte :=
  bytesOfWords ([0x4D445045, 0x00010001, 1, 0xA0, 4258887951] ++ List.replicate 11 0 ++ [1, 0x80, 0x20, 0] ++ List.replicate 12 0 ++
    List.replicate 8 0)

/-- MODEL_LOAD of model 3 into pool 1 for this unit; MODEL_UNLOAD of it; GRAPH_LAUNCH of route 255 on core 0 of unit 15; GRAPH_STOP of it. -/
def loadCmd : List Word := hcmd 1 [0x1000, 0, 0xA0, 0x00010003, 1]
/-- MODEL_UNLOAD of model 3. -/
def unloadCmd : List Word := hcmd 2 [0, 0, 0, 0x00010003]
/-- GRAPH_LAUNCH of model 3 as route 255 on core 0 of unit 15. -/
def launchCmd : List Word := hcmd 3 ([0x00FF0003, 0] ++ List.replicate 7 0 ++ [0x10000])
/-- GRAPH_STOP of route 255. -/
def stopCmd : List Word := hcmd 4 [0x00FF0000]

/-- `front w` with model 3 of context `c` for units `mask` in buffer 0 of pool 1, and route 255 as `r`. -/
def loaded (w : List Word) (c mask : Nat) (r : Option Route) : State :=
  let s := front w none
  { s with
    eng := { s.eng with models := [(3, some { ctx := c, mask, h := 0x10000001, len := 160, nl := 1 })], routes := [(255, r)] }
    bpm := { s.bpm with bufs := [(2 ^ 20, { st := .alloc, count := 1, allocs := 1, rq := 77, ctx := c, pinned := true })] }
    chain := { s.chain with units := [(15, { st := .joined })] } }

/-- A coach route of context `c` with a step. -/
def coachRoute (c : Nat) : Route := { ctx := c, model := 3, map := [15], seq := 0, coach := some noCoach, steps := [{ n := 0, seats := [] }] }

theorem test_front_nop : (front (hcmd 0 []) none).Front 255 0 (hcmd 0 []) := by constructor <;> decide +kernel
theorem test_front_load : (front loadCmd (some modelImage)).Front 255 1 loadCmd := by constructor <;> decide +kernel
theorem test_front_unload : (loaded unloadCmd 255 1 none).Front 255 2 unloadCmd := by constructor <;> decide +kernel
theorem test_front_launch : (loaded launchCmd 255 0x8000 none).Front 255 3 launchCmd := by constructor <;> decide +kernel
theorem test_front_stop : (loaded stopCmd 255 1 (some (coachRoute 255))).Front 255 4 stopCmd := by constructor <;> decide +kernel

theorem test_witness_ModelLoadEnds :
    (hAddrAt loadCmd 8).dram = false ∧ ((front loadCmd (some modelImage)).ctx 255).opData = some modelImage ∧
    64 ≤ (hW loadCmd 0x10).toNat ∧ imageCheck modelImage = some (160, 1) ∧
    hUnits loadCmd = [(front loadCmd (some modelImage)).addr] ∧ (front loadCmd (some modelImage)).model (hModel loadCmd) = none ∧
    (front loadCmd (some modelImage)).Sound ∧ (front loadCmd (some modelImage)).bpmDown = false ∧
    (front loadCmd (some modelImage)).poolEn (hF loadCmd 0x18 0 4) = true ∧
    (front loadCmd (some modelImage)).poolAs (hF loadCmd 0x18 0 4) = false ∧
    160 ≤ (front loadCmd (some modelImage)).poolSize (hF loadCmd 0x18 0 4) ∧
    (front loadCmd (some modelImage)).poolMay (hF loadCmd 0x18 0 4) 255 = true ∧
    (front loadCmd (some modelImage)).admits (hF loadCmd 0x18 0 4) 77 = none ∧
    ((front loadCmd (some modelImage)).freeHead (hF loadCmd 0x18 0 4)).map (·.1) = some 0 := by unfold Dev.Sound; decide +kernel

theorem test_witness_ModelUnloadEnds :
    (((loaded unloadCmd 1 1 none).model (hModel unloadCmd)).all fun x => decide (x.ctx ≠ 255)) = true ∧
    (loaded unloadCmd 255 1 none).model (hModel unloadCmd) = some { ctx := 255, mask := 1, h := 0x10000001, len := 160, nl := 1 } ∧
    (∀ u, u < 16 → bitN 1 u = true → u = (loaded unloadCmd 255 1 none).addr) ∧
    (∀ r ∈ (loaded unloadCmd 255 1 none).eng.routes, r.2.map (·.model) ≠ some (hModel unloadCmd)) ∧
    (∀ y ∈ (loaded unloadCmd 255 1 none).ctxs, ∀ e ∈ y.2.run, e.op ≠ 2) ∧ (loaded unloadCmd 255 1 none).Frees 255 0x10000001 :=
  ⟨by decide +kernel, by decide +kernel, by decide +kernel, by decide +kernel, by decide +kernel, by constructor <;> decide +kernel⟩

theorem test_witness_GraphLaunchStarts :
    (loaded launchCmd 255 0x8000 none).model (hModel launchCmd) = some { ctx := 255, mask := 0x8000, h := 0x10000001, len := 160, nl := 1 } ∧
    hCores launchCmd = [240] ∧
    (∀ a ∈ hCores launchCmd, a / 16 ≠ (loaded launchCmd 255 0x8000 none).addr ∧ (loaded launchCmd 255 0x8000 none).unitIn (a / 16) = true ∧
      bitN 0x8000 (a / 16) = true ∧ ((loaded launchCmd 255 0x8000 none).bankFor a).isSome = true ∧
      (loaded launchCmd 255 0x8000 none).rb (R.ctxCoreset 255 (a / 16)) (a % 16) = true) ∧
    (loaded launchCmd 255 0x8000 none).route (hRoute launchCmd) = none := by decide +kernel

theorem test_witness_GraphStopEnds :
    (loaded stopCmd 255 1 none).route (hRoute stopCmd) = none ∧
    (loaded stopCmd 255 1 (some (coachRoute 1))).route (hRoute stopCmd) = some (coachRoute 1) ∧ (coachRoute 1).ctx ≠ 255 ∧
    (coachRoute 255).coach ≠ none ∧ (coachRoute 255).steps ≠ [] ∧
    unitsOf (coachRoute 255).map = [(loaded stopCmd 255 1 (some (coachRoute 255))).addr] := by decide +kernel

/-- Context 255 has one completion to write. -/
def ended : State := withCtx (mgr (rings 255 1)) 255 { fin := [{ seq := 1, result := 2, cid := 3, status := 0, orig := 0, irq := true }] }

theorem test_witness_CommandComplete :
    (ended.ctx 255).fin = [{ seq := 1, result := 2, cid := 3, status := 0, orig := 0, irq := true }] ∧ ended.ringTakes 255 1 = true ∧
    (ended.ctx 255).sq = [] ∧ (ended.ctx 255).sqIssued = (ended.ctx 255).sqTail ∧ ended.hifHeld (ended.ctxVec 255).1 = false := by
  decide +kernel

/-- `front w` with buffer 0 of pool 1 allocated, `n` references, of which slot 63 holds `k`. -/
def holds (w : List Word) (n k : Nat) : State :=
  let s := front w none
  { s with bpm := { s.bpm with
      pools := [(1, { fresh := 1 })], ledger := if k = 0 then [] else [{ slot := 63, h := 0x10000001, n := k }]
      bufs := [(2 ^ 20, { st := .alloc, count := n, allocs := 1, rq := 63, ctx := 255 })] } }

/-- BUF_ALLOC of pool 1 on this unit; the same blocking with a time limit; BUF_REF and BUF_UNREF of buffer 0; POOL_CONFIG of pool 2. -/
def allocCmd : List Word := hcmd 0x50 [0x10]
/-- A blocking BUF_ALLOC of pool 2, which is disabled. -/
def blockCmd : List Word := hcmd 0x50 [0x00010120]
/-- BUF_ALLOC of pool 2. -/
def emptyCmd : List Word := hcmd 0x50 [0x20]
/-- BUF_REF of buffer 0 of pool 1. -/
def refCmd : List Word := hcmd 0x51 [0, 0x10000001]
/-- BUF_UNREF of it. -/
def unrefCmd : List Word := hcmd 0x52 [0, 0x10000001]
/-- POOL_CONFIG of pool 2 with `n` buffers of 4 KiB at 0x400000, without a requester table. -/
def poolCmd (n : Nat) : List Word := hcmd 0x53 [0x20, 0, n, 16, 0x4001, 0, 0x400000, 0, 0, 0]

theorem test_front_alloc : (front allocCmd none).Front 255 0x50 allocCmd := by constructor <;> decide +kernel
theorem test_front_empty : (front emptyCmd none).Front 255 0x50 emptyCmd := by constructor <;> decide +kernel
theorem test_front_block : (front blockCmd none).Front 255 0x50 blockCmd := by constructor <;> decide +kernel
theorem test_front_ref : (holds refCmd 2 1).Front 255 0x51 refCmd := by constructor <;> decide +kernel
theorem test_front_unref : (holds unrefCmd 2 1).Front 255 0x52 unrefCmd := by constructor <;> decide +kernel
theorem test_front_pool : (front (poolCmd 4) none).Front 255 0x53 (poolCmd 4) := by constructor <;> decide +kernel

theorem test_witness_BufAllocEnds :
    (front allocCmd none).slotOf 255 = some 63 ∧ hF allocCmd 8 0 4 = (front allocCmd none).addr ∧ (front allocCmd none).bpmDown = false ∧
    (hW allocCmd 8).bit 8 = false ∧ (front allocCmd none).poolMay (hF allocCmd 8 4 4) 255 = true ∧
    (front allocCmd none).admits (hF allocCmd 8 4 4) 63 = none ∧
    (front allocCmd none).freeHead (hF allocCmd 8 4 4) = some (0, { fresh := 1 }) ∧ (front allocCmd none).ledgerFull = false ∧
    (front emptyCmd none).admits (hF emptyCmd 8 4 4) 63 = some .poolEmpty ∧ (hW blockCmd 8).bit 8 = true ∧ hF blockCmd 8 16 16 ≠ 0 ∧
    (front blockCmd none).admits (hF blockCmd 8 4 4) 63 = some .poolEmpty ∧ (front blockCmd none).bpm.waiters.length < 128 := by
  decide +kernel

theorem test_witness_BufRefAndUnrefEnd :
    (holds refCmd 65534 1).hValid (hW refCmd 12).toNat = true ∧ (holds refCmd 65534 1).poolMay (hPool (hW refCmd 12).toNat) 255 = true ∧
    0 < ((holds refCmd 65534 1).buf (hPool (hW refCmd 12).toNat) (hIdx (hW refCmd 12).toNat)).count ∧
    ((holds refCmd 65534 1).buf (hPool (hW refCmd 12).toNat) (hIdx (hW refCmd 12).toNat)).count < 65535 ∧
    (holds unrefCmd 2 1).ledgerN 63 (hW unrefCmd 12).toNat ≠ 0 ∧
    1 < ((holds unrefCmd 2 1).buf (hPool (hW unrefCmd 12).toNat) (hIdx (hW unrefCmd 12).toNat)).count ∧
    (holds unrefCmd 2 0).ledgerN 63 (hW unrefCmd 12).toNat = 0 := by decide +kernel

theorem test_witness_PoolConfigEnds :
    (front (poolCmd 4) none).rb R.topStat 4 = false ∧ hAddrAt (poolCmd 4) 0x28 = ⟨false, 0⟩ ∧ (front (poolCmd 4) none).ctxVf 255 = 0 ∧
    (hW (poolCmd 4) 0x18).bit 14 = true ∧ (front (poolCmd 4) none).poolEn (hF (poolCmd 4) 8 4 4) = false ∧
    (front (poolCmd 4) none).cfgReason (hF (poolCmd 4) 8 4 4) 4 { w0 := 4, w1 := 16, w2 := 0x4001, base := 0x400000 } (fun _ => 4) (fun _ => 0) = 0 ∧
    (front (poolCmd 4) none).ras.table = [] ∧
    (front (poolCmd 0) none).cfgReason 2 0 { w0 := 0, w1 := 16, w2 := 0x4001, base := 0x400000 } (fun _ => 0) (fun _ => 0) ≠ 0 := by decide +kernel

/-- STREAM_ATTACH of stream 4095 with a ring of 16 entries in DRAM; STREAM_DETACH of it. -/
def attachCmd : List Word := hcmd 0x10 [0xABCD0FFF, 0x101, 0x8000, 0x80000000, 4]
/-- STREAM_DETACH of stream 4095. -/
def detachCmd : List Word := hcmd 0x11 [0xFFF]
/-- SOLVE whose descriptor and result lie in host memory. -/
def solveCmd : List Word := hcmd 0x20 [0x1000, 0, 0x2000, 0]
/-- CLIP_REQUEST whose descriptor lies in host memory. -/
def clipCmd : List Word := hcmd 0x30 [0x1000, 0]
/-- TT_ARM of entry 239 as one SYNC pulse at 1,000 ns. -/
def armCmd : List Word := hcmd 0x40 [0xEF00, 0, 1000, 0, 0, 5 * 64 + 100 * 2048]
/-- TT_DISARM of entry 239. -/
def disarmCmd : List Word := hcmd 0x41 [0xEF00]

/-- `front w d` with stream 4095 of context `c`, whose pictures engine 0 would decode, key slot 0 loaded, and entry 239 armed by context 1. -/
def streams (w : List Word) (d : Option (List Byte)) (c : Nat) : State :=
  let s := front w d
  let x : Stream := { ctx := c, camera := 1, opts := 0x101, bs := 0, picPool := 0, twinPool := 0, route := 0, eng := none }
  let r : Ring := { ctx := c, unit := 0, addr := 0x8000, n := 4, pool := 0, base := 0x100000, size := 4096 }
  { s with
    eng := { s.eng with rings := [(4095, some r)], streams := [(4095, some x)] }
    sec := { s.sec with evLoaded := 1 }
    tim := { s.tim with ents := [(239, { t := 2 ^ 60, w := 2 ^ 38, owner := 1 })] } }

/-- A clip descriptor of stream 4095: 64 × 64 from a crop of 64 × 64, pools 15 and 0, key slot 0. -/
def clipDesc : List Byte :=
  bytesOfWords ([0x00000FFF, 0x0F, 0, 0, 0, 0, 0, 0, 0x100000, 0x00400040, 0, 0x00400040, 0, 0, 0, 0, 0, 0, 0x01143314, 1, 0x10000] ++ List.replicate 11 0)

theorem test_front_attach : (front attachCmd none).Front 255 0x10 attachCmd := by constructor <;> decide +kernel
theorem test_front_detach : (streams detachCmd none 255).Front 255 0x11 detachCmd := by constructor <;> decide +kernel
theorem test_front_solve : (front solveCmd (some (List.replicate 256 0))).Front 255 0x20 solveCmd := by constructor <;> decide +kernel
theorem test_front_clip : (streams clipCmd (some clipDesc) 255).Front 255 0x30 clipCmd := by constructor <;> decide +kernel
theorem test_front_arm : (front armCmd none).Front 255 0x40 armCmd := by constructor <;> decide +kernel
theorem test_front_disarm : (front disarmCmd none).Front 255 0x41 disarmCmd := by constructor <;> decide +kernel

theorem test_witness_StreamAttachEnds :
    optsBad (hW attachCmd 0xC).toNat = false ∧ 4 ≤ hF attachCmd 0x18 0 4 ∧ (hAddrAt attachCmd 0x10).dram = true ∧
    (hAddrAt attachCmd 0x10).addr % 4096 = 0 ∧ (front attachCmd none).inRing (hF attachCmd 8 0 12) = none ∧
    hF attachCmd 8 12 4 = (front attachCmd none).addr ∧
    (front attachCmd none).ctxDram 255 (hAddrAt attachCmd 0x10).addr (64 + 32 * 2 ^ hF attachCmd 0x18 0 4) = some 0x8000 ∧
    ((front attachCmd none).eng.streams.filter (·.1 != clipKey)).length < 512 ∧ fldN (hW attachCmd 0xC).toNat 0 2 = 1 ∧
    (front attachCmd none).marks = [] ∧ (front attachCmd none).rf R.rasInjCtl 0 2 = 0 := by decide +kernel

theorem test_witness_StreamDetachEnds :
    ((streams detachCmd none 1).inRing (hF detachCmd 8 0 12)).all (fun r => decide (r.ctx ≠ 255)) = true ∧
    ((streams detachCmd none 255).inRing (hF detachCmd 8 0 12)).map (fun r => (r.ctx, r.unit, r.xfer)) = some (255, 0, .idle) ∧
    ((streams detachCmd none 255).strm (hF detachCmd 8 0 12)).map (fun x => (x.queue, x.retain, x.dpb, x.ready)) = some ([], [], [], []) ∧
    (streams detachCmd none 255).eng.vdec = [] := by decide +kernel

theorem test_witness_SolveStarts :
    (hAddrAt solveCmd 8).dram = false ∧ (hAddrAt solveCmd 0x10).dram = false ∧
    hF solveCmd 0x18 0 4 = (front solveCmd none).addr ∧ slvOp (List.replicate 256 0) ≠ 4 ∧ ((front solveCmd none).jq 4).jobs.length < 64 := by
  decide +kernel

/-- `streams` with eight clips waiting. -/
def clipsFull : State :=
  let s := streams clipCmd (some clipDesc) 255
  let q : Clip := { id := 1, ctx := 1, stream := 1, desc := [], masks := [], timed := false }
  { s with eng := { s.eng with venc := { s.eng.venc with clips := List.replicate 8 q } } }

theorem test_witness_ClipRequestStarts :
    clipDesc.take 128 = clipDesc ∧ clipBad clipDesc = false ∧ dF clipDesc 0 14 1 = 0 ∧ dF clipDesc 0x38 0 13 = 0 ∧
    bitN (dQ clipDesc 0x18) 63 = false ∧ dF clipDesc 0 0 12 = 4095 ∧
    (streams clipCmd (some clipDesc) 255).vencRefuse 255 clipDesc false = none ∧
    clipsFull.vencRefuse 255 clipDesc false = some ⟨.encBusy, 0xE⟩ := by decide +kernel

/-- The entry of TT_ARM. -/
def armed : Ent := entOf ((hW armCmd 0x10).toNat + (hW armCmd 0x14).toNat * 2 ^ 32) ((hW armCmd 0x18).toNat + (hW armCmd 0x1C).toNat * 2 ^ 32) 255

theorem test_witness_EntriesEnd :
    hF armCmd 8 8 8 < 240 ∧ hF armCmd 8 0 4 = (front armCmd none).addr ∧ (front armCmd none).entBad 255 (front armCmd none).addr armed = false ∧
    ((front armCmd none).ent (hF armCmd 8 8 8)).action = 0 ∧ (front armCmd none).now16 ≤ armed.t ∧ hF disarmCmd 8 8 8 < 240 ∧
    (front disarmCmd none).entTaken 255 (hF disarmCmd 8 8 8) = false ∧
    ((front disarmCmd none).ent (hF disarmCmd 8 8 8)).due (front disarmCmd none).now16 = false ∧
    (streams disarmCmd none 255).entTaken 255 (hF disarmCmd 8 8 8) = true := by decide +kernel

/-- A manager with trained memory, pools 1 (CONTROL, 4 buffers), and 15 (CLIP, 1 buffer); buffer 0 of pool 1 has `n` references and the
buffer of pool 15 is allocated; requester 95 of pool 1 is selected; registers `l`. -/
def ports (n : Nat) (l : List (Nat × Nat)) : State :=
  let s := mgr (trained ++ pool 1 4 4 0x200000 ++ pool 15 1 3 0x300000 ++ [(R.bpmRqSel, 0x5F01)] ++ l)
  { s with bpm := { s.bpm with
      pools := [(1, { fresh := 1 }), (15, { fresh := 1 })]
      bufs := [(2 ^ 20, { st := .alloc, count := n, allocs := 1, rq := 80, ctx := 3 }),
        (15 * 2 ^ 20, { st := .alloc, count := 1, allocs := 255, rq := 80, ctx := 3 })] } }

/-- `ports` with waiter 7 of tag 9 in pool 15, and an INC held. -/
def waiting : State :=
  let s := ports 1 [(0x10010, 2)]
  { s with bpm := { s.bpm with
      waiters := [{ id := 7, pool := 15, rq := 95, ctx := 3, who := .eng 9 }]
      held := [{ rq := 95, ctx := 3, h := 0x10000001, incr := true, tag := some 9 }] } }

theorem test_witness_PortsAllocateAndCountReferences :
    (ports 1 []).bpmDown = false ∧ (ports 1 []).poolMay 1 3 = true ∧ (ports 1 []).admits 1 95 = none ∧
    (ports 1 []).freeHead 1 = some (1, { fresh := 2 }) ∧ (ports 1 []).admits 15 95 = some .poolEmpty ∧
    (ports 1 []).bpm.waiters.length < 128 ∧ (ports 1 []).poolMay 15 3 = true ∧
    (ports 65534 []).hValid 0x10000001 = true ∧ (ports 65534 []).poolMay (hPool 0x10000001) 3 = true ∧
    ((ports 65534 []).buf (hPool 0x10000001) (hIdx 0x10000001)).count < 65535 ∧
    1 < ((ports 2 []).buf (hPool 0x10000001) (hIdx 0x10000001)).count ∧
    ((ports 1 []).buf (hPool 0x10000001) (hIdx 0x10000001)).count = 1 ∧ (ports 1 []).bpm.waiters = [] ∧
    ((ports 1 []).buf (hPool 0x10000001) (hIdx 0x10000001)).poisoned = false ∧
    ((ports 1 []).buf (hPool 0x10000001) (hIdx 0x10000001)).bad = false ∧ guarded ((ports 1 []).poolCls (hPool 0x10000001)) = false ∧
    (ports 1 []).hValid 0xF00000FF = true ∧ (ports 1 []).hValid 0x10000002 = false ∧ waiting.bpmDown = true ∧
    (ports 1 (pool 2 1 4 0x2800)).poolMay 2 3 = true := by decide +kernel

theorem test_witness_WaitersAndHeldOperations :
    waiting.bpm.waiters.find? (·.id == 7) = some { id := 7, pool := 15, rq := 95, ctx := 3, who := .eng 9 } ∧
    (ports 1 []).bpm.waiters.find? (·.id == 7) = none ∧ (ports 1 []).bpm.held = [] ∧ waiting.ras.held = [] ∧
    waiting.bpm.held = [{ rq := 95, ctx := 3, h := 0x10000001, incr := true, tag := some 9 }] ∧ waiting.hValid 0x10000001 = true ∧
    waiting.poolMay (hPool 0x10000001) 3 = true ∧ 0 < (waiting.buf (hPool 0x10000001) (hIdx 0x10000001)).count ∧
    (ports 1 [(R.hifVfCtx 0, 3)]).ctxVf 3 = 0 ∧ (vfs (pool 1 4 4 0x200000)).poolMay 1 255 = false := by decide +kernel

/-- The record of pool `p`'s registers with CFG2 `v`. -/
def cfgOf (s : State) (p : Nat) (v : Word) : PoolCfg := { w0 := s.rn (R.bpmPoolCfg0 p), w1 := s.rn (R.bpmPoolCfg1 p), w2 := v.fld 0 15, base := s.poolBase p }

theorem test_witness_PoolRegistersConfigureAndLookUp :
    (ports 1 [(R.bpmPoolCfg0 0, 1), (R.bpmPoolCfg1 0, 1)]).rb R.topStat 4 = false ∧ (0x4000 : Word).bit 14 = true ∧ (ports 1 []).poolEn 0 = false ∧
    (ports 1 [(R.bpmPoolCfg0 0, 1), (R.bpmPoolCfg1 0, 1)]).cfgReason 0 1 (cfgOf (ports 1 [(R.bpmPoolCfg0 0, 1), (R.bpmPoolCfg1 0, 1)]) 0 0x4000)
      ((ports 1 []).quota 0) ((ports 1 []).reserve 0) = 0 ∧ (ports 1 []).ras.table = [] ∧
    (ports 1 []).cfgReason 0 0 (cfgOf (ports 1 []) 0 0x4000) ((ports 1 []).quota 0) ((ports 1 []).reserve 0) ≠ 0 ∧
    (0 : Word).bit 14 = false ∧ (ports 1 []).allocN 0 = 0 ∧ (ports 1 []).poolEn 15 = true ∧ 0 < (ports 1 []).allocN 15 ∧
    (ports 1 []).rqSel = some (1, 95) ∧ (1048576 : Word).toNat ≤ 1048576 ∧ (ports 1 []).poolMode 1 = 0 ∧ (ports 1 []).bpm.waiters = [] ∧
    (ports 1 [(R.bpmPoolCfg2 1, 0x400C)]).poolMode 1 = 1 ∧ (ports 1 [(R.bpmPoolCfg2 1, 0x400C)]).poolEn 1 = true ∧
    (ports 1 [(R.bpmPoolCfg2 1, 0x400C)]).poolN 1 < ((List.range 96).map fun i => if i = 95 then (5 : Word).toNat else (ports 1 []).reserve 1 i).sum ∧
    (ports 1 [(R.bpmRqSel, 0x6001)]).rqSel = none ∧ 1048576 < (1048577 : Word).toNat ∧
    (ports 1 [(R.bpmOwnAddrLo, 0x204000)]).ownerOf ((ports 1 [(R.bpmOwnAddrLo, 0x204000)]).rn R.bpmOwnAddrLo + (0 : Word).toNat * 2 ^ 32) = none ∧
    (ports 1 [(R.bpmOwnAddrLo, 0x300FFF)]).ownerOf ((ports 1 [(R.bpmOwnAddrLo, 0x300FFF)]).rn R.bpmOwnAddrLo + (0 : Word).toNat * 2 ^ 32) =
      some (15, 0) := by decide +kernel

/-- A manager with trained memory whose scrubber is at sector `k` of span `n` of channel `c`, and code words `m`. -/
def scrub (c n k : Nat) (m : Tab SecMark) : State :=
  { mgr (trained ++ [(R.rasScrubPos, c + 8 * n)]) with ras := { pos := k }, marks := m }

/-- The address the scrubber reads. -/
def scrubAt (s : State) : Nat := usableOf (s.rf R.rasScrubPos 0 3) (s.rf R.rasScrubPos 3 29) (s.ras.pos * 32)

theorem test_witness_ScrubbingAndRetirement :
    (mgr []).scrubRuns = false ∧ (scrub 0 0 118 []).scrubRuns = true ∧ (scrub 0 0 118 []).ras.pending = [] ∧
    (scrub 7 4194303 119 []).rf R.rasScrubPos 3 29 + 1 = (scrub 7 4194303 119 []).chanSpans ∧ (scrub 7 4194303 119 []).rf R.rasScrubPos 0 3 = 7 ∧
    (scrub 7 4194303 119 []).mark (scrubAt (scrub 7 4194303 119 []) / 32) = .ok ∧ scrubAt (scrub 0 0 3 []) = 96 ∧
    (scrub 0 0 3 [(3, .ce)]).mark 3 = .ce ∧ (scrub 0 0 3 [(3, .ce)]).rb R.rasCtl 1 = false ∧ (scrub 0 0 3 [(3, .ue)]).mark 3 = .ue ∧
    (scrub 0 0 3 [(3, .ue)]).bpmDown = false ∧ (scrub 0 0 3 [(3, .ue)]).ownerOf 96 = none ∧ 96 / 4096 ∉ (scrub 0 0 3 [(3, .ue)]).retirePages ∧
    (scrub 0 0 3 [(3, .ue)]).ras.table.length < 1024 ∧ Tab.get (fun _ => 0) (scrub 0 0 3 [(3, .ue)]).ras.table 0 = 0 ∧ Src.host 0 ≠ .mgmt := by
  decide +kernel

/-- Frame of class `c` with SEQ `n`. -/
def frameOf (c n : Nat) : Frame := { cls := c, seq := n, dst := 0, src := 1 }

/-- A manager whose port 1 is in state `st`, with `k` replays and one frame of SEQ 4095 unacknowledged, and peer 77. -/
def link (st k : Nat) (l : List (Nat × Nat)) : State :=
  { mgr ((R.glkStat 1, st) :: l) with glk1 := { unacked := [frameOf 2 4095], replays := k, peerSerial := 77 } }

/-- A worker without an address whose port 1 trains, and has kept the state for peer 77. -/
def training : State :=
  { wkr [(R.glkStat 1, 1)] with glk1 := { unacked := [frameOf 2 4095], seqTx := 0, seqRx := 5, keep := some 77 } }

/-- A peer's report with serial number `n`. -/
def peer (n : Nat) (m : Bool) : PeerRep := { serial := n, mgr := m, addressed := false, addr := 0, mgrSerial := 0, quar := false, slot := 0, lanes := 4 }

theorem test_witness_LinksAcknowledgeReplayAndTrain :
    (link 2 0 []).glkSt 1 = 2 ∧ (frameOf 4 0).cls = 4 ∧ (frameOf 4 0).nak = false ∧ (frameOf 4 0).payload.length ≤ 256 ∧
    ((link 2 0 []).glk 1).unacked = [frameOf 2 4095] ∧ (frameOf 2 4095).seq = ({ frameOf 4 0 with ack := 4095 } : Frame).ack ∧
    ((link 2 0 []).glk 1).queue = [] ∧ (link 2 0 []).chain.prev = none ∧ (link 2 0 []).chain.draining = false ∧ (link 1 0 []).glkSt 1 ≠ 2 ∧
    (link 2 6 []).isMgr = true ∧ ((link 2 6 []).glk 1).replays < 7 ∧ ((link 2 7 []).glk 1).replays = 7 ∧ (link 3 0 []).glkSt 1 = 3 ∧
    (link 1 0 []).glkSt 1 ≠ 3 ∧ training.isMgr = false ∧ training.chain.asleep = false ∧ training.chain.addressed = false ∧
    training.glkSt 1 = 1 ∧ (training.glk 1).queue = [] ∧ training.reg (glkPage 1 + R.irqEn) = 0 ∧ (training.glk 1).keep = some (peer 77 false).serial ∧
    (training.glk 1).keep ≠ some (peer 78 false).serial ∧ (peer 78 true).mgr = true ∧ (link 1 0 []).glkSt 1 = 1 ∧ (1 : Word).bit 0 = true ∧
    (link 2 0 []).rb (R.glkCtl 1) 0 = true ∧ (link 0 0 [(R.glkCtl 1, 0)]).rb (R.glkCtl 1) 0 = false ∧ (0 : Word).bit 0 = false ∧
    ({ training with chain := { addressed := true } } : State).chain.addressed = true ∧ training.glkSt 1 < 2 ∧
    ({ training with chain := { asleep := true } } : State).chain.asleep = true := by decide +kernel

/-- A manager with unit 15, of serial number 77 and slot 1, in state `st`, cabled to port 1, which is UP; CHAIN_ROUTE is `r`. -/
def chained (st : UState) (r : Nat) (l : List (Nat × Nat)) : State :=
  { mgr ([(R.chainRoute, r), (R.glkStat 1, 2), (R.glkStat 0, 0)] ++ l) with
    chain := { units := [(15, { st, serial := 77, slot := 1 })], cables := [(0, 1, 77), (15, 0, 1)], keyed := [(0, 1)] } }

/-- A worker that waits for the switch to epoch 255, in whose table it is JOINED. -/
def switching : State := { wkr [] with chain := { next := some (255, 0x2FFFFFFFF), switchAt := some 100 } }

theorem test_witness_TheManagerKeepsItsChain :
    (chained .joined 0xBFFFFFFF []).isMgr = true ∧ (chained .joined 0xBFFFFFFF []).chain.asleep = false ∧
    (chained .joined 0xBFFFFFFF []).workers = [15] ∧
    (chained .joined 0xBFFFFFFF []).portFor { cls := 2, dst := 15, sub := 3, src := 0, epoch := 0 } = some 1 ∧
    (chained .joined 0xBFFFFFFF []).addr = 0 ∧ (chained .joined 0xBFFFFFFF []).epoch = 0 ∧ (chained .joined 0xBFFFFFFF []).glkSt 1 = 2 ∧
    ((chained .joined 0xBFFFFFFF []).glk 1).queue = [] ∧ 0 < ((chained .joined 0xBFFFFFFF []).glk 1).cr3 ∧
    (chained .joined 0xBFFFFFFF []).chain.draining = false ∧ (wkr []).isMgr = false ∧
    (chained .joined 0xBFFFFFFF [(R.mgmtStat, 0)]).isHere 15 = true ∧ (chained .joined 0xBFFFFFFF [(R.mgmtStat, 0)]).mgmtUp = false ∧
    (chained .joined 0xBFFFFFFF [(R.mgmtStat, 0)]).eng = {} ∧ (chained .joined 0xBFFFFFFF [(R.mgmtStat, 0)]).ctxs = [] ∧
    routeOf ((chained .joined 0xBFFFFFFF []).rn R.chainRoute) 15 ≠ 3 ∧ 15 ∉ (chained .joined 0xBFFFFFFF []).chain.wakeWait ∧
    15 ∈ ({ chained .joined 0xBFFFFFFF [(R.mgmtStat, 0)] with chain := { units := [(15, { st := .joined })], wakeWait := [15] } } : State).chain.wakeWait ∧
    ((chained .quarantine 0 []).unit 15).st = .quarantine ∧ ((chained .quarantine 0 []).unit 15).timedOut = false ∧
    ((chained .joined 0 []).unit 15).st ≠ .quarantine := by decide +kernel

theorem test_witness_KeysSwitchesAndSlots :
    (chained .joined 0 []).mgmtUp = true ∧ (chained .joined 0 []).linkPair (0, 1) = [(0, 1), (15, 0)] ∧
    (chained .joined 0 []).chain.keyed.contains (0, 1) = true ∧ (chained .joined 0 []).chain.keyNew = [] ∧ switching.isMgr = false ∧
    switching.chain.next = some (255, 0x2FFFFFFFF) ∧ switching.chain.switchAt = some 100 ∧ (mgr []).chain.next = none ∧
    (chained .joined 0 []).unitInSlot 1 = some 15 ∧ (chained .joined 0 []).isHere 15 = true ∧ (chained .joined 0 []).slotHeld 15 = false ∧
    ({ chained .joined 0 [] with chain := { (chained .joined 0 []).chain with held := [(15, 3)] } } : State).slotHeld 15 = true ∧
    (chained .quarantine 0 [(R.mgmtStat, 0)]).mgmtUp = false ∧ (mgr [(R.chainResSel, 15)]).rf R.chainResSel 0 4 = 15 ∧
    (mgr []).rb (R.chainSlotStat 0) 0 = false ∧ (mgr []).unitInSlot 1 = none := by decide +kernel

/-- A manager of address 0 whose port 1 is UP, with unit 1 JOINED behind it, context 3 OPEN, and transactions 5 and 6 of its own
unanswered; registers `l`, lifecycle state `lc`. -/
def hearing (lc : Lc) (l : List (Nat × Nat)) : State :=
  let s := mgr ((R.glkStat 1, 2) :: (R.chainRoute, 8) :: trained ++ rings 3 1 ++ l)
  { s with
    chain := { addressed := true, units := [(1, { st := .joined })],
               out := [{ dst := 1, vc := 0, txid := 5, frame := { cls := 0 }, what := .data 9 }, { dst := 1, vc := 3, txid := 6, frame := { cls := 2 }, what := .regRead 7 }] }
    sec := { s.sec with lc } }

/-- Frame of class `c`, VC `vc` and SUB `sub` from unit 1 to unit 0. -/
def fr (c vc sub arg txid : Nat) (b : List Byte) : Frame := { cls := c, vc, sub, arg, txid, src := 1, dst := 0, payload := b }

/-- A WRITE of 4 bytes to the last place of DRAM, one past it, a READ of 256 bytes there. -/
def writeFr (a : Nat) : Frame := fr 0 0 0 0 0 (bytesOf 8 a ++ bytesOf 8 0 ++ [1, 2, 3, 4])
/-- A READ of `n` bytes at `a`. -/
def readFr (a n : Nat) : Frame := fr 0 0 1 0 0 (bytesOf 8 a ++ bytesOf 8 (n * 2 ^ 16))
/-- A RECORD of two records for context `c`. -/
def recordFr (c : Nat) : Frame := fr 0 0 7 (c + 256) 0 (List.replicate 128 1)

theorem test_takes_write : (hearing .blank []).TakesTx 1 (writeFr 128849018876) := by repeat' first | decide +kernel | constructor
theorem test_takes_read : (hearing .decommissioned []).TakesTx 1 (readFr 128849018624 256) := by repeat' first | decide +kernel | constructor
theorem test_takes_response : (hearing .blank []).Takes 1 (fr 0 1 3 0 5 []) := by repeat' first | decide +kernel | constructor
theorem test_takes_record : (hearing .blank []).TakesTx 1 (recordFr 3) := by repeat' first | decide +kernel | constructor

theorem test_witness_DataFrames :
    (hearing .blank []).dataBad (writeFr 128849018876).payload ((writeFr 128849018876).payload.drop 16).length = none ∧
    bitN (preAddr (writeFr 128849018876).payload) 63 = false ∧ (hearing .blank []).marks = [] ∧ (hearing .blank []).rf R.rasInjCtl 0 2 = 0 ∧
    (hearing .blank []).dataBad (writeFr 128849018877).payload ((writeFr 128849018877).payload.drop 16).length = some ⟨.ctxFaultAddr, 0x15⟩ ∧
    preLen (readFr 128849018624 256).payload = 256 ∧ (hearing .blank []).dataBad (readFr 128849018624 256).payload 256 = none ∧
    (hearing .blank []).enforcing = false ∧ (hearing .decommissioned []).enforcing = true ∧ (hearing .blank []).glk0.key = none ∧
    (hearing .blank []).chain.wait = [] ∧
    (hearing .blank []).chain.out.find? (fun t => t.dst == 1 && t.txid == 5 && (t.vc == 3) == false) =
      some { dst := 1, vc := 0, txid := 5, frame := { cls := 0 }, what := .data 9 } ∧
    (hearing .blank []).chain.out.find? (fun t => t.dst == 1 && t.txid == 7 && (t.vc == 3) == false) = none ∧
    (hearing .blank []).isMgr = true ∧ (hearing .blank []).ctxSt (fldN (recordFr 3).arg 0 8) = 1 ∧
    ((hearing .blank []).ctx (fldN (recordFr 3).arg 0 8)).flr = false ∧ (hearing .blank []).ctxSt (fldN (recordFr 4).arg 0 8) ≠ 1 := by decide +kernel

/-- The manager's worker at address 1 as it hears the manager on port 0, in QUARANTINE. -/
def quarantined : State :=
  { wkr [(R.glkStat 0, 2)] with chain := { addressed := true, own := .quarantine, next := some (3, 0) } }

/-- A MGMT frame from unit 0 to unit 1. -/
def fromMgr (sub txid : Nat) (b : List Byte) (fw : Option FwMsg) : Frame := { cls := 2, sub, txid, src := 0, dst := 1, payload := b, fw }

theorem test_takes_regRead : (hearing .blank []).TakesTx 1 (fr 2 0 0 0 0 (bytesOf 4 0x100)) := by repeat' first | decide +kernel | constructor
theorem test_takes_quarantined : quarantined.TakesTx 0 (fromMgr 0 0 (bytesOf 4 0x10100) none) := by repeat' first | decide +kernel | constructor
theorem test_takes_regWrite : (hearing .blank []).TakesTx 1 (fr 2 0 1 0 0 (bytesOf 4 0x18100 ++ bytesOf 4 3)) := by repeat' first | decide +kernel | constructor
theorem test_takes_regResp : (hearing .blank []).Takes 1 (fr 2 0 2 0 6 (bytesOf 8 5)) := by repeat' first | decide +kernel | constructor
theorem test_takes_join : (hearing .blank []).Takes 1 (fr 2 0 4 0 0 (bytesOf 8 9)) := by repeat' first | decide +kernel | constructor
theorem test_takes_switch : quarantined.Takes 0 (fromMgr 5 0 [] (some (.switch 3 100))) := by repeat' first | decide +kernel | constructor

theorem test_witness_MgmtFrames :
    (hearing .blank []).inQuar = false ∧ quarantined.inQuar = true ∧ quarPage (natOf ((bytesOf 4 0x10100).take 4) % 0x400000 / 4 * 4) = false ∧
    ¬(natOf ((bytesOf 4 0x10100).take 4) % 0x400000 / 4 * 4 % 0x1000 < 0x10) ∧
    natOf ((bytesOf 4 0x18100 ++ bytesOf 4 3).take 4) % 0x400000 / 4 * 4 = 0x18100 ∧ pageAt 0x18100 = some .ras ∧
    (findReg PageInfo.ras.regs 0x100).isSome = true ∧ (hearing .blank []).islOn PageInfo.ras.isl = true ∧
    (hearing .blank []).rb (hdrPage 0x18100 + R.ctl) 1 = false ∧
    (hearing .blank []).chain.out.find? (fun t => t.dst == 1 && t.txid == 6 && (t.vc == 3) == true) =
      some { dst := 1, vc := 3, txid := 6, frame := { cls := 2 }, what := .regRead 7 } ∧ quarantined.isMgr = false ∧
    (hearing .blank []).chooseAddr (natOf ((bytesOf 8 9).take 8)) = some 2 ∧ routeOf ((hearing .blank []).rn R.chainRoute) 1 = 1 + 1 ∧
    quarantined.chain.next = some (3, 0) := by decide +kernel

theorem test_witness_RegWriteWithoutEffect : ∀ (u : Dev) (w : Word), u.wrSpecial (.host 0) 0x18100 w = none := by
  intro u w; rfl

/-- A worker without an address whose port 0 is UP. -/
def unaddressed : State := wkr [(R.glkStat 0, 2), (R.chainStat, 0)]

/-- A waybill of the manager of serial number `m` that offers address 1. -/
def waybillOf (m : Nat) : Frame := { cls := 3, src := 0, dst := 0, payload := wayBytes false false 0 (m :: List.replicate 15 0) (List.replicate 16 0) }

theorem test_hears_waybill : unaddressed.Hears 0 (waybillOf 5) := by constructor <;> decide +kernel
theorem test_hears_foreign : (hearing .blank []).Hears 1 (waybillOf 5) := by constructor <;> decide +kernel

theorem test_witness_WaybillsAddressAndSleepSuspends :
    unaddressed.isMgr = false ∧ unaddressed.chain.addressed = false ∧ unaddressed.chain.mgrSerial = 0 ∧ wayReturn (waybillOf 5).payload = false ∧
    wayDirected (waybillOf 5).payload = false ∧ (∀ k, k < 16 → 0 < k → (waySers (waybillOf 5).payload).getD k 0 ≠ unaddressed.sec.serial) ∧
    wayNext (waybillOf 5).payload = 1 ∧ (hearing .blank []).isMgr = true ∧
    (waySers (waybillOf 5).payload).getD 0 0 ≠ (hearing .blank []).sec.serial ∧ rowFrame 3 0 (fr 0 0 0 0 0 []) = false ∧
    unaddressed.chain.asleep = false ∧ unaddressed.glk0.unacked = [] ∧ unaddressed.glk1.unacked = [] ∧
    ({ unaddressed with glk0 := { unacked := [waybillOf 5] } } : State).glk0.unacked ≠ [] ∧
    ({ unaddressed with chain := { asleep := true } } : State).chain.asleep = true := by decide +kernel

/-- `hearing` with channel 31 of core 15 enabled with 4 slots at 64 KiB for route 255 of context 3, a message in flight to it and one to
channel 30, which is not enabled, credits on their way to core 15, and an outbound entry there. -/
def mail : State :=
  let s := hearing .blank [(R.mbxChCfg0 15 31, 0x80010000), (R.mbxChCfg1 15 31, 0x1001), (R.mbxChStat 15 31, 0xFFFFFFFF)]
  { s with eng := { s.eng with
      flights := [{ dst := 15, ch := 31, data := [1, 2, 3, 4], core := 0, op := 9 }, { dst := 15, ch := 30, data := [1], core := 0, op := 9 }]
      credits := [{ core := 15, route := 255, dst := 7, ch := 1, n := 3, size := 64 }]
      cores := [(15, { chans := [(31, { route := 255, ctx := 3 })], outs := [{ route := 255, dst := 16 + 7, ch := 1, credits := 2, size := 64 }] })] } }

/-- A last and a middle MESSAGE frame for channel 31 of core 15, a CREDIT frame and a SIGNAL frame for that core. -/
def messageFr (last : Nat) : Frame := fr 0 2 4 (15 + 31 * 16 + last * 2 ^ 18) 0 [5, 6]
/-- A CREDIT frame of 65,535 credits from core 7 of unit 1, channel 1. -/
def creditFr : Frame := fr 0 2 5 15 0 (bytesOf 4 (7 + 16 + 65535 * 65536))
/-- A SIGNAL frame of counter 15 of bank 3. -/
def signalFr : Frame := fr 0 2 6 (15 + 15 * 16 + 3 * 256) 0 (bytesOf 4 0xFFFFFFFF)

theorem test_takes_message : mail.TakesTx 1 (messageFr 1) := by repeat' first | decide +kernel | constructor
theorem test_takes_credit : mail.TakesTx 1 creditFr := by repeat' first | decide +kernel | constructor
theorem test_takes_signal : mail.TakesTx 1 signalFr := by repeat' first | decide +kernel | constructor

theorem test_witness_MessagesCreditsAndSignalsArrive :
    mail.coreIso 15 = false ∧
    mail.eng.flights.find? (fun f => f.dst == 15 && f.ch == 31) = some { dst := 15, ch := 31, data := [1, 2, 3, 4], core := 0, op := 9 } ∧
    mail.chOwner 15 31 = some { route := 255, ctx := 3 } ∧ mail.asMarks = [] ∧
    mail.eng.flights.find? (fun f => f.dst == 15 && f.ch == 30) = some { dst := 15, ch := 30, data := [1], core := 0, op := 9 } ∧
    mail.chOwner 15 30 = none ∧ mail.eng.flights.find? (fun f => f.dst == 15 && f.ch == 29) = none ∧
    mail.eng.credits.find? (·.core == 15) = some { core := 15, route := 255, dst := 7, ch := 1, n := 3, size := 64 } ∧
    mail.eng.credits.find? (·.core == 14) = none ∧ fldN signalFr.arg 0 4 = 15 ∧ fldN (messageFr 1).arg 0 4 = 15 ∧
    fldN (messageFr 1).arg 4 5 = 31 ∧ bitN (messageFr 0).arg 18 = false ∧ bitN (messageFr 1).arg 18 = true ∧ fldN creditFr.arg 0 4 = 15 ∧
    (mail.core 15).outs.find? (fun o => o.dst == 1 * 16 + fldN (natOf (creditFr.payload.take 4)) 0 4 &&
      o.ch == fldN (natOf (creditFr.payload.take 4)) 4 5) = some { route := 255, dst := 23, ch := 1, credits := 2, size := 64 } := by decide +kernel

/-- Stream 4095 of context 255 with a ring of 16 entries at 0x8000, whose first entry holds `e`, and state `x`; its doorbell stands at
`door` with the count 0xFFFFF0 fetched before it. -/
def ingress (e : List Word) (x : Option Stream) (door : Nat) : State :=
  let s := mgr (rings 255 1 ++ trained ++ pool 0 4 0 0x100000)
  let r : Ring := { ctx := 255, unit := 0, addr := 0x8000, n := 4, pool := 0, base := 0x100000, size := 4096, fetch := 0xFFFFF0, door }
  let t := s.toDev.putBytes 0x8040 (bytesOfWords e)
  { s with dram := t.dram, eng := { s.eng with rings := [(4095, some r)], streams := [(4095, x)] } }

/-- A stream of context 255 on engine 3, one access unit of which waits for its picture. -/
def decoding (q : List Au) : Stream :=
  { ctx := 255, camera := 1, opts := 0, bs := 0, picPool := 0, twinPool := 0, route := 0, eng := some 3, queue := q }

/-- An access unit in buffer 0 of pool 0 whose picture is `p`. -/
def au (p : Want) : Au := { h := 1, addr := 0x100000, len := 4, tag := 9, cts := 5, est := false, discont := false, start := true, pic := p }

/-- The entry of an access unit of 4,096 bytes at 0x20000 with a capture time. -/
def entry (len : Nat) : List Word := [0x20000, 0, Word.ofNat (len + 2 ^ 24), 4095, 77, 0, 99, 0]

/-- A stream whose first access unit waits for its picture. -/
def inQueue : Stream := decoding [au (.wait 3)]

/-- One entry of `n` bytes is announced. -/
def announced (n : Nat) : State := ingress (entry n) (some inQueue) 0xFFFF1

theorem test_witness_IngressEntriesBecomeAccessUnits :
    ((announced 4096).inRing 4095).isSome = true ∧
    (announced 4096).ctxSt 255 = 1 ∧
    (announced 4096).blkRuns 0x7A000 = true ∧
    (announced 4096).addr = 0 ∧
    (announced 4096).Sound ∧ 0xFFFFF0 % 2 ^ 20 = 0xFFFF0 ∧
    natOf ((announced 4096).bytes (0x8000 + 0x40 + 32 * (0xFFFFF0 % 2 ^ 4) + 8) 3) = 4096 ∧
    natOf ((announced 4096).bytes (0x8000 + 0x40 + 32 * (0xFFFFF0 % 2 ^ 4) + 0xC) 4) % 4096 = 4095 ∧
    (announced 4096).ctxDram 255 0x20000 4096 = some 0x20000 ∧
    (announced 4096).poolMay 0 255 = true ∧
    (announced 4096).admits 0 75 = none ∧
    ((announced 4096).freeHead 0).map (·.1) = some 0 ∧
    (announced 4096).strm 4095 = some inQueue ∧ inQueue.mode = 0 ∧
    (au (.wait 3)).pic ≠ .no ∧ 0x100000 + 0 * 4096 + 4096 ≤ 0x110000 ∧ 0x8000 + 4 ≤ 0x100000 + 0 * 4096 := by unfold Dev.Sound; decide +kernel

/-- A manager that runs codec firmware, with CONTROL pools of 4 KiB buffers: the bitstream buffer is index 0 of pool 0, the picture's index 0
of pool 1; stream 7 is `x`, engine 3 decodes `j`. -/
def decoder (x : Stream) (j : Option DecJob) : State :=
  let s := mgr (rings 255 1 ++ trained ++ pool 0 4 4 0x100000 ++ pool 1 4 4 0x200000)
  { s with
    boot := { s.boot with codecOk := true }
    bpm := { s.bpm with bufs := [(0, { st := .alloc, count := 1, allocs := 1, ctx := 255 }), (2 ^ 20, { st := .alloc, count := 1, allocs := 1, ctx := 255 })] }
    eng := { s.eng with streams := [(7, some x)], vdec := [(3, { job := j })] } }

/-- A parameter set of pictures of 16 × 16. -/
def sps16 : Sps :=
  { hevc := false, profile := 77, level := 30, mainTier := true, plain := true, chroma := 1, bits := 8, w := 16, h := 16, crop := {}, dpb := 1, dpbMax := 4 }

/-- What the headers of a key picture say; of a picture that is no start point. -/
def headers (p : StartPt) : AuRead := { start := p, sps := .same, usesBad := false, rasl := false, missing := false, refs := [] }

/-- Engine 3 is idle and the stream's access unit has its picture. -/
def readyState : State := decoder { decoding [au (.got 0x10000001)] with sps := some sps16 } none

theorem test_witness_PictureDecodeStart :
    readyState.blkRuns (vdecPage 3) = true ∧
    (readyState.vdec 3).job = none ∧
    readyState.boot.codecOk = true ∧
    readyState.eng.streams.filter (fun x => (x.2.bind (·.eng)) == some 3) =
      [(7, some { decoding [au (.got 0x10000001)] with sps := some sps16 })] ∧ (headers .key).sps = .same ∧
    (au (.got 0x10000001)).twin.settled = true ∧ (headers .key).start ≠ .no ∧ (au (.got 0x10000001)).twin = .no ∧ (headers .no).start = .no ∧
    (hPool 1, hIdx 1) ≠ (hPool 0x10000001, hIdx 0x10000001) ∧ State.reset.blkRuns (vdecPage 3) = false := by decide +kernel

/-- The picture that engine 3 decodes. -/
def job7 : DecJob := { stream := 7, au := au (.got 0x10000001), sps := sps16, synth := false, refs := [] }

/-- Engine 3 decodes the stream's picture. -/
def busyState : State := decoder { decoding [] with st := .decoding } (some job7)

theorem test_frees_readyState : readyState.Frees 255 1 ∧ readyState.Frees 255 0x10000001 ∧ readyState.Sound :=
  ⟨by constructor <;> decide +kernel, by constructor <;> decide +kernel, by constructor <;> decide +kernel⟩

theorem test_frees_busyState : busyState.Frees 255 1 ∧ busyState.Sound :=
  ⟨by constructor <;> decide +kernel, by constructor <;> decide +kernel⟩

theorem test_witness_PictureDecodeDone :
    (busyState.vdec 3).job = some job7 ∧ 7 ≠ clipKey ∧
    busyState.strm 7 = some { decoding [] with st := .decoding } ∧ (decoding []).twin = 0 ∧
    (decoding []).dpb = [] ∧ (decoding []).ready.length < 8 ∧ job7.au.pic = .got 0x10000001 ∧
    busyState.hValid 0x10000001 = true ∧
    busyState.poolMay (hPool 0x10000001) 255 = true ∧
    0 < (busyState.buf (hPool 0x10000001) (hIdx 0x10000001)).count := by decide +kernel

/-- Command `w` of opcode `op`: its words, filled with zeros to eight. -/
def cmd (l : List Nat) : List Word := l.map Word.ofNat ++ List.replicate (8 - l.length) 0

/-- A program of route 255 and context 3 in bank 3. -/
def prog : Prog := { route := 255, ctx := 3, lcore := 0, bank := 3, st := .run, len := 2, image := 0x100000, size := 4096 }

/-- Program `p` runs on core 15, `w` its first command and a WAIT its second; core 14 holds the route's other program, in bank 2. -/
def running (w : List Word) (p : Prog) (c : Core) (l : List (Nat × Nat)) : State :=
  let s := mgr (rings 3 1 ++ trained ++ pool 1 4 4 0x200000 ++ [(R.seqAsLimit 15, 0x7FB000), (R.seqWaitTmo 15, 1000)] ++ l)
  let t := s.toDev.putBytes 0x100000 (bytesOfWords (w ++ cmd [0x13, 0, 1]))
  { s with
    dram := t.dram
    eng := { s.eng with
      cores := [(14, { progs := [{ prog with lcore := 1, bank := 2, st := .ended }] }), (15, { c with cur := some 255, progs := [p] })]
      routes := [(255, some { ctx := 3, model := 0, map := [15, 14], banks := [3, 2], seq := 1 })] } }

/-- RECV that releases 2 slots of channel 31 and waits for 4 messages; SIGNAL of counter 3 of logical core 1 by 7; WAIT for 9 of counter 3; BARRIER
of the two logical cores; LOOP of one command; BRANCH on counter 4; TIMEWAIT for 100 ns; END; a RECV of an unknown channel. -/
def recvCmd : List Word := cmd [0x11, 31, 2, 4]
/-- SIGNAL. -/
def signalCmd : List Word := cmd [0x12, 1 + 3 * 256, 7]
/-- WAIT. -/
def waitCmd : List Word := cmd [0x13, 3, 9]
/-- BARRIER of cores `f` to `f` + 1. -/
def barrierCmd (f : Nat) : List Word := cmd [0x14, f, 2]
/-- LOOP of one command four times. -/
def loopCmd : List Word := cmd [0x20, 4, 1]
/-- BRANCH to command 1 with condition `c` on counter 4 against 5. -/
def branchCmd (c : Nat) : List Word := cmd [0x21 + c * 2 ^ 16, 1, 4, 5]
/-- TIMEWAIT for `t` ns. -/
def timeCmd (t : Nat) : List Word := cmd [0x22, t]
/-- END. -/
def endCmd : List Word := cmd [0x3F]
/-- A SIGNAL by 0, which is illegal. -/
def badCmd : List Word := cmd [0x12, 1, 0]

/-- Channel 31 of core 15 is the route's, from logical core 1, and holds 5 messages. -/
def chRegs : List (Nat × Nat) :=
  [(R.mbxChCfg0 15 31, 0x80010000), (R.mbxChCfg1 15 31, 0x1001), (R.mbxChCfg2 15 31, 1), (R.mbxChStat 15 31, 5)]

/-- The channel's owner. -/
def chCore : Core := { chans := [(31, { route := 255, ctx := 3 })] }

theorem test_issues_recv : (running recvCmd prog chCore chRegs).Issues 15 0x11 prog recvCmd := by repeat' first | decide +kernel | constructor
theorem test_issues_signal : (running signalCmd prog {} []).Issues 15 0x12 prog signalCmd := by repeat' first | decide +kernel | constructor
theorem test_issues_wait : (running waitCmd prog {} []).Issues 15 0x13 prog waitCmd := by repeat' first | decide +kernel | constructor
theorem test_issues_barrier : (running (barrierCmd 0) prog {} []).Issues 15 0x14 prog (barrierCmd 0) := by
  repeat' first | decide +kernel | constructor
theorem test_issues_barrier1 : (running (barrierCmd 0) { prog with lcore := 1 } {} []).Issues 15 0x14 { prog with lcore := 1 } (barrierCmd 0) := by
  repeat' first | decide +kernel | constructor
theorem test_issues_loop : (running loopCmd prog {} []).Issues 15 0x20 prog loopCmd := by repeat' first | decide +kernel | constructor
theorem test_issues_branch : (running (branchCmd 4) prog {} []).Issues 15 0x21 prog (branchCmd 4) := by repeat' first | decide +kernel | constructor
theorem test_issues_timewait : (running (timeCmd 100) prog {} []).Issues 15 0x22 prog (timeCmd 100) := by repeat' first | decide +kernel | constructor
theorem test_issues_end : (running endCmd prog {} []).Issues 15 0x3F prog endCmd := by repeat' first | decide +kernel | constructor
theorem test_next_bad : (running badCmd prog {} []).Next 15 0x12 prog badCmd := by repeat' first | decide +kernel | constructor

/-- The program as it waits with `w`; as it has a queue command left. -/
def waitsWith (w : List Word) : Prog := { prog with wait := some { w, acted := true } }
/-- A VEC command is left. -/
def withOp : Prog := { prog with ops := [{ id := 0, q := 1, w := cmd [4] }], nextId := 1 }
/-- The route is a coach route in its step, told to its cores. -/
def inStep (s : State) : State :=
  { s with eng := { s.eng with routes := [(255, some { ctx := 3, model := 0, map := [15], banks := [3], seq := 1, coach := some noCoach, told := some true, steps := [{ n := 0, seats := [], running := [15] }] })] } }

theorem test_runs_timewait : (running (timeCmd 100) (waitsWith (timeCmd 100)) {} []).Runs 15 (waitsWith (timeCmd 100)) := by constructor <;> decide +kernel
theorem test_runs_wait : (running waitCmd (waitsWith waitCmd) {} []).Runs 15 (waitsWith waitCmd) := by constructor <;> decide +kernel
theorem test_issues_endOp : (running endCmd withOp {} []).Issues 15 0x3F withOp endCmd := by repeat' first | decide +kernel | constructor
theorem test_issues_endStep : (inStep (running endCmd prog {} [])).Issues 15 0x3F prog endCmd := by repeat' first | decide +kernel | constructor

theorem test_witness_SequencerCommandsExecute :
    (running recvCmd prog chCore chRegs).chOwner 15 (cf recvCmd 1 0 5) = some { route := 255, ctx := 3 } ∧
    cf recvCmd 2 0 16 ≤ (running recvCmd prog chCore chRegs).chHeld 15 (cf recvCmd 1 0 5) ∧
    cf recvCmd 3 0 16 ≤ (running recvCmd prog chCore chRegs).slotsOf 15 (cf recvCmd 1 0 5) ∧
    (running recvCmd prog chCore chRegs).chKind 15 (cf recvCmd 1 0 5) = 0 ∧
    (running recvCmd prog chCore chRegs).physCore 255 ((running recvCmd prog chCore chRegs).chSender 15 (cf recvCmd 1 0 5)) = some 14 ∧
    (running recvCmd prog chCore chRegs).localCore 14 = some 14 ∧ (running recvCmd prog chCore chRegs).eng.notices = [] ∧
    (running signalCmd prog {} []).physCore 255 (cf signalCmd 1 0 8) = some 14 ∧ (running signalCmd prog {} []).unitThere (14 / 16) = true ∧
    (running signalCmd prog {} []).coreIso 14 = false ∧ ((running signalCmd prog {} []).progOf 14 255).map (·.bank) = some 2 ∧
    cOp waitCmd = 0x13 ∧ ((running waitCmd prog { sig := [(3 * 16 + 3, 9)] } []).tryWait 15 prog { w := waitCmd, acted := true }).isSome = true ∧
    cf (barrierCmd 0) 1 0 8 = prog.lcore ∧ 0 < cf (barrierCmd 0) 2 0 9 ∧ cf (barrierCmd 0) 1 0 8 < ({ prog with lcore := 1 } : Prog).lcore ∧
    (running (barrierCmd 0) { prog with lcore := 1 } {} []).localCore 15 = some 15 ∧ prog.loops.length < 4 ∧
    prog.pc + 1 + cf loopCmd 2 0 12 ≤ prog.len ∧ withOp.ops ≠ [] ∧ cOp (timeCmd 100) = 0x22 ∧ cOp waitCmd ≠ 0x22 ∧
    (running waitCmd (waitsWith waitCmd) {} []).rn (R.seqWaitTmo 15) ≠ 0 ∧ ccmdBad badCmd prog.len ((running badCmd prog {} []).nlOf 255) = true := by
  decide +kernel

/-- The program while command `o` is in its queue, issued before the WAIT. -/
def having (o : Op) : Prog := { prog with pc := 1, ops := [o], nextId := 9 }

/-- A queue command `w` of queue `q`, number 3. -/
def opOf (q : Nat) (w : List Word) : Op := { id := 3, q, w }

/-- `having o` runs on core 15 with core state `c`. -/
def queued (o : Op) (c : Core) (l : List (Nat × Nat)) : State := running (cmd []) (having o) c l

/-- A SEND of 64 bytes to channel 1 of logical core 1; a MOVE of 64 bytes within the activation store; from DRAM; to DRAM; a WSTREAM of 64
bytes of the image into the last place of half 1, alone and in multicast group 7. -/
def sendCmd : List Word := cmd [0x10, 0x100, 64, 1 + 256]
/-- MOVE from kind `a` to kind `b`, at offset 0 to 0x8000. -/
def moveCmd (a b : Nat) : List Word := cmd [5 + (a + 4 * b) * 2 ^ 16, 0, 0, if b = 1 then 0 else 0x8000, if b = 1 then 0x80 else 0, 64, 1, 0]
/-- WSTREAM. -/
def wsCmd (x : Nat) : List Word := cmd [6 + (1 + x) * 2 ^ 16, 0, 0, 64, 1048512]

/-- An outbound entry of core 15 with `n` credits. -/
def outCore (n : Nat) : Core := { outs := [{ route := 255, dst := 14, ch := 1, credits := n, size := 64 }] }

theorem test_runs_queue : (queued (opOf 3 sendCmd) (outCore 1) []).Runs 15 (having (opOf 3 sendCmd)) := by constructor <;> decide +kernel
theorem test_runs_move : (queued (opOf 2 (moveCmd 0 1)) {} []).Runs 15 (having (opOf 2 (moveCmd 0 1))) := by constructor <;> decide +kernel
theorem test_runs_wstream : (queued (opOf 4 (wsCmd 0)) {} []).Runs 15 (having (opOf 4 (wsCmd 0))) := by constructor <;> decide +kernel

theorem test_witness_SendsAndMoves :
    ((having (opOf 3 sendCmd)).ops.find? fun o => o.q == 3 && !o.done && decide (cXf o.w 0 1 = bN false)) = some (opOf 3 sendCmd) ∧
    (queued (opOf 3 sendCmd) (outCore 1) []).opCheck (having (opOf 3 sendCmd)) (opOf 3 sendCmd) = none ∧
    (queued (opOf 3 sendCmd) (outCore 1) []).sendTo 15 255 (cf sendCmd 3 0 8) (cf sendCmd 3 8 5) (cf sendCmd 2 0 17) (cTag sendCmd) false =
      .go 14 { route := 255, dst := 14, ch := 1, credits := 1, size := 64 } ∧ (queued (opOf 3 sendCmd) (outCore 1) []).localCore 14 = some 14 ∧
    (queued (opOf 3 sendCmd) (outCore 1) []).asAt 15 (cf sendCmd 1 0 23) 64 = .ok 0x100 ∧
    (queued (opOf 3 sendCmd) (outCore 0) []).sendTo 15 255 (cf sendCmd 3 0 8) (cf sendCmd 3 8 5) (cf sendCmd 2 0 17) (cTag sendCmd) false = .wait ∧
    (having (opOf 2 (moveCmd 0 0))).front 2 5 = some (opOf 2 (moveCmd 0 0)) ∧
    (queued (opOf 2 (moveCmd 0 0)) {} []).opCheck (having (opOf 2 (moveCmd 0 0))) (opOf 2 (moveCmd 0 0)) = none ∧
    (queued (opOf 2 (moveCmd 1 0)) {} []).opCheck (having (opOf 2 (moveCmd 1 0))) (opOf 2 (moveCmd 1 0)) = none ∧
    (queued (opOf 2 (moveCmd 0 1)) {} []).opCheck (having (opOf 2 (moveCmd 0 1))) (opOf 2 (moveCmd 0 1)) = none ∧
    cf (moveCmd 0 0) 6 0 16 = 1 ∧ (queued (opOf 2 (moveCmd 0 0)) {} []).Sound ∧ (queued (opOf 2 (moveCmd 0 0)) {} []).asMarks = [] ∧
    cf (moveCmd 0 0) 5 0 24 = 64 ∧ (queued (opOf 2 (moveCmd 0 0)) {} []).asAt 15 (cf (moveCmd 0 0) 3 0 23) 64 = .ok 0x8000 ∧
    (queued (opOf 2 (moveCmd 1 0)) {} []).operand (having (opOf 2 (moveCmd 1 0))) (cw (moveCmd 1 0) 1).toNat (cw (moveCmd 1 0) 2).toNat 64 = .ok 0x100000 ∧
    (queued (opOf 2 (moveCmd 0 1)) {} []).operand (having (opOf 2 (moveCmd 0 1))) (cw (moveCmd 0 1) 3).toNat (cw (moveCmd 0 1) 4).toNat 64 = .ok 0x100080 := by
  unfold Dev.Sound; decide +kernel

/-- Two members of multicast group 7: core 15, which has joined, and core 0. -/
def group : State := queued { opOf 4 (wsCmd (2 + 7 * 4)) with begun := true } {} [(R.wsuMcastMask 0 7, 0x18001), (R.wsuMcastTmo 15, 1000)]

theorem test_witness_WeightsAndGroups :
    (having (opOf 4 (wsCmd 0))).wsFront = some (opOf 4 (wsCmd 0)) ∧
    (queued (opOf 4 (wsCmd 0)) {} []).opCheck (having (opOf 4 (wsCmd 0))) (opOf 4 (wsCmd 0)) = none ∧ cXf (wsCmd 0) 1 1 = 0 ∧
    halfFree (having (opOf 4 (wsCmd 0))) (opOf 4 (wsCmd 0)) = true ∧
    (queued (opOf 4 (wsCmd 0)) {} []).operand (having (opOf 4 (wsCmd 0))) (cw (wsCmd 0) 1).toNat (cw (wsCmd 0) 2).toNat (cf (wsCmd 0) 3 0 21) = .ok 0x100000 ∧
    (queued (opOf 4 (wsCmd 0)) {} []).ownerOf 0x100000 = none ∧ group.mcast 7 = some [0, 15] ∧ (group.joined 7 15).isSome = true ∧
    group.joined 7 0 = none ∧ group.rn (R.wsuMcastTmo 15) ≠ 0 := by decide +kernel

/-- A program of context 4 that waits for core 15; one of lower priority. -/
def other (st : PSt) : Prog := { route := 254, ctx := 4, lcore := 0, bank := 0, st, len := 2, image := 0x100000, size := 4096 }

/-- Core 15 runs `p`, or nothing, beside `q`; context 3 has priority `a`, context 4 priority `b`. -/
def shared (p : Option Prog) (q : Prog) (a b : Nat) : State :=
  let s := running (cmd []) prog {} [(R.ctxPrio 3, a), (R.ctxPrio 4, b), (R.mxuPreemptTmo 15, 1000), (R.mbxCreditTmo 15, 1000)]
  { s with eng := { s.eng with cores := [(15, { cur := p.map (·.route), progs := p.toList ++ [q], imemOf := some 4 })] } }

/-- A program asked to stop in the middle of an MXU command. -/
def halted : Prog := { having { opOf 0 (cmd [1]) with begun := true } with halt := true }

theorem test_runs_halted : (shared (some halted) (other .ready) 0 7).Runs 15 halted := by constructor <;> decide +kernel
theorem test_runs_credit : (queued (opOf 3 sendCmd) (outCore 0) [(R.mbxCreditTmo 15, 1000)]).Runs 15 (having (opOf 3 sendCmd)) := by
  constructor <;> decide +kernel
theorem test_runs_done : (queued { opOf 3 sendCmd with done := true } {} []).Runs 15 (having { opOf 3 sendCmd with done := true }) := by
  constructor <;> decide +kernel

theorem test_witness_QueueCommandsOfCoresExecute :
    (having { opOf 3 sendCmd with done := true }).ops.find? (·.id == 3) = some { opOf 3 sendCmd with done := true } ∧
    (having (opOf 3 sendCmd)).ops.find? (·.id == 3) = some (opOf 3 sendCmd) ∧
    (queued (opOf 3 sendCmd) (outCore 0) [(R.mbxCreditTmo 15, 1000)]).rn (R.mbxCreditTmo 15) ≠ 0 ∧
    (queued (opOf 3 sendCmd) (outCore 0) [(R.mbxCreditTmo 15, 1000)]).creditWaiter 15 0 (having (opOf 3 sendCmd)) = some (opOf 3 sendCmd) ∧
    (shared (some halted) (other .ready) 0 7).rn (R.mxuPreemptTmo 15) ≠ 0 ∧ (∃ x ∈ halted.ops, x.q = 0 ∧ x.begun = true ∧ x.done = false) ∧
    (shared (some prog) (other .ready) 0 7).bestOn 15 = some (other .ready) ∧ (shared (some prog) (other .ready) 0 7).schedDown = false ∧
    (shared (some prog) (other .ready) 0 7).prioOf prog < (shared (some prog) (other .ready) 0 7).prioOf (other .ready) ∧
    (shared (some prog) (other .ready) 7 0).prioOf (other .ready) ≤ (shared (some prog) (other .ready) 7 0).prioOf prog ∧
    ((shared none (other .parked) 0 0).core 15).cur = none ∧ (shared none (other .parked) 0 0).rb R.schedCoreOff 15 = false ∧
    (shared none (other .parked) 0 0).bestOn 15 = some (other .parked) ∧ ((shared none (other .parked) 0 0).core 15).imemOf = some 4 ∧
    (mgr []).pfUp = true ∧ (mgr []).islOn (islOf 0x7000) = true ∧ (mgr []).rb (0x7000 + R.ctl) 1 = false ∧ ((mgr []).core 15).progs = [] ∧
    ((shared none (other .parked) 0 0).core 15).progs ≠ [] := by decide +kernel

/-- `s` with bytes `l` at offsets of core 15's activation store. -/
def withAs (s : State) (l : List (Nat × Nat)) : State :=
  { s with as := l.foldl (fun t x => Tab.set (fun _ => 0) t (15 * 2 ^ 23 + x.1) (BitVec.ofNat 8 x.2)) [] }

/-- MATMUL of M = N = K = 2, INT8, A at 0, B at 0x400, one row of seeds at 0x800, a one-stage block at 0x1000; CONV and DWCONV with their
descriptor at 0x3000. A MATMUL whose FMT_A is no format. -/
def mmCmd : List Word := cmd [1, 0, 0x100 + 2 * 2 ^ 29, 2 + 2 * 512, 2, 1 + 0x200 * 4, 0x1000 + 2 ^ 23 + 2 ^ 25]
def convCmd : List Word := cmd [2, 0x3000, 0x100 + 2 * 2 ^ 29, 2 * 512, 0, 1 + 0x200 * 4, 0x1000 + 2 ^ 23 + 2 ^ 25]
def dwCmd : List Word := cmd [3, 0x3000, 0, 1, 0, 0, 0x1000 + 2 ^ 23 + 2 ^ 25]
def mmBad : List Word := cmd [1, 0, 0, 2 + 2 * 512, 2 + 7 * 2 ^ 22, 0, 0]
def convBad : List Word := cmd [2, 0, 0, 2 * 512, 7 * 2 ^ 22, 0, 0]

/-- A of rows (3, 2) and (-1, -128), B of rows (5, 0) and (1, 127), seeds 100 and -1, STORE at 0x2000. -/
def asData : List (Nat × Nat) :=
  [(0, 3), (1, 255), (64, 2), (65, 128), (0x400, 5), (0x440, 1), (0x441, 127), (0x800, 100), (0x804, 255), (0x805, 255), (0x806, 255),
   (0x807, 255), (0x1010, 8), (0x1012, 0x20)]

/-- A block of one STORE at 0x2000 with ROW_PITCH and PLANE_PITCH of 64 bytes. -/
def block : List Byte := [1, 0, 0, 0, 1, 0, 0, 0, 0, 0, 0, 0, 0, 0, 0, 0, 8, 0, 0x20, 0, 0, 0, 0, 0].map (BitVec.ofNat 8)

/-- An image of 3 by 2 at 0, one channel, a kernel of two columns with one column of padding; passes of two columns. -/
def adg : List Byte := (bytesOfWords ([0, 0x20003, 0x20000, 0x10001, 2, 0, 0, 0, 0x01010101, 0x10000, 0x50201, 0, 0x30002, 2, 1, 1].map Word.ofNat))

/-- Commands that have started, after their first pass. -/
def convOp : Op := { opOf 0 convCmd with begun := true, pass := 1, desc := adg, epi := block, parms := [[]] }
def dwOp : Op := { opOf 1 dwCmd with begun := true, pass := 1, desc := adg, epi := block, parms := [[]], wts := [2, 3] }
def mmOp : Op := { opOf 0 mmCmd with begun := true, epi := block, parms := [[]] }

/-- The state in which `o` runs. -/
def matrix (o : Op) : State := withAs (queued o {} []) asData

theorem test_runs_matmul : (matrix (opOf 0 mmCmd)).Runs 15 (having (opOf 0 mmCmd)) := by constructor <;> decide +kernel
theorem test_runs_matmul1 : (matrix mmOp).Runs 15 (having mmOp) := by constructor <;> decide +kernel
theorem test_runs_conv : (matrix convOp).Runs 15 (having convOp) := by constructor <;> decide +kernel
theorem test_runs_dwconv : (matrix dwOp).Runs 15 (having dwOp) := by constructor <;> decide +kernel

/-- The STORE. -/
def store : Stage := { k := 8, opt := 0, addr := 0x2000, imm := 0, t := 6, tr := false }

theorem test_witness_Matmul :
    (having (opOf 0 mmCmd)).mxuPick 0 = some (opOf 0 mmCmd) ∧ cOp mmCmd = 1 ∧ (matrix (opOf 0 mmCmd)).blkRuns (corePage 15 1) = true ∧
    (matrix (opOf 0 mmCmd)).opCheck (having (opOf 0 mmCmd)) (opOf 0 mmCmd) = none ∧ cf mmCmd 2 29 2 = 2 ∧ epiKind mmCmd = 1 ∧ epiN mmCmd = 1 ∧
    ((matrix (opOf 0 mmCmd)).asRd 15 (epiAddr mmCmd) 24).isOk = true ∧
    (match (matrix (opOf 0 mmCmd)).asRd 15 (epiAddr mmCmd) 24 with
      | .ok b => natOf (b.take 8) == 0 && epiStages (passOf (opOf 0 mmCmd) 0) 1 (accType (opAcc (opOf 0 mmCmd))) b == .ok [store]
      | _ => false) = true ∧ (matrix (opOf 0 mmCmd)).asMarks = [] ∧
    (matrix (opOf 0 mmCmd)).matA 15 mmCmd = .ok [[3, 2], [255, 128]] ∧ (matrix (opOf 0 mmCmd)).matB 15 mmCmd 2 = .ok [[5, 1], [0, 127]] ∧
    (matrix (opOf 0 mmCmd)).matSeed 15 mmCmd 2 = .ok [[100, 0xFFFFFFFF], [100, 0xFFFFFFFF]] ∧
    (matrix (opOf 0 mmCmd)).asBase 15 + 0x2000 + 64 + 8 ≤ (matrix (opOf 0 mmCmd)).asLimit 15 := by decide +kernel

theorem test_witness_MatrixCommandsDeliverTheirPasses :
    (having convOp).mxuPick 0 = some convOp ∧ (having mmOp).mxuPick 0 = some mmOp ∧ (matrix convOp).opCheck (having convOp) convOp = none ∧
    (matrix mmOp).opCheck (having mmOp) mmOp = none ∧ convOp.pass < opPasses convOp ∧ mmOp.pass < opPasses mmOp ∧
    epiStages (passOf convOp 1) 1 (accType (opAcc convOp)) block = .ok [store] ∧ epiStages (passOf mmOp 0) 1 6 block = .ok [store] ∧
    ((matrix convOp).passA 15 convOp (passOf convOp 1)).isOk = true ∧ ((matrix mmOp).passA 15 mmOp (passOf mmOp 0)).isOk = true ∧
    ((matrix convOp).matB 15 convCmd (AdgDesc.ofBytes adg).k).isOk = true ∧
    ((matrix convOp).matSeed 15 convCmd (passOf convOp 1).mb).isOk = true ∧
    (having dwOp).front 1 3 = some dwOp ∧ (matrix dwOp).blkRuns (corePage 15 2) = true ∧ (matrix dwOp).opCheck (having dwOp) dwOp = none ∧
    dwOp.pass < opPasses dwOp ∧ epiStages (passOf dwOp 1) 1 (accType (opAcc dwOp)) block = .ok [store] ∧
    ((List.range (AdgDesc.ofBytes adg).noc).mapM ((matrix dwOp).dwCol 15 dwOp (AdgDesc.ofBytes adg) (passOf dwOp 1))).isOk = true ∧
    (having (opOf 0 mmBad)).mxuPick 0 = some (opOf 0 mmBad) ∧ ccmdBad mmBad 2 ((matrix (opOf 0 mmBad)).nlOf 255) = true ∧
    (having (opOf 0 convBad)).mxuPick 0 = some (opOf 0 convBad) ∧ ccmdBad convBad 2 ((matrix (opOf 0 convBad)).nlOf 255) = true := by
  decide +kernel

/-- The STORE of a pass can be written. -/
theorem test_witness_PassesStore :
    ((matrix convOp).putCells 15 0x2000 4 false (placeAt (passOf convOp 1) 4 false 64 64 0) (elemOrder (passOf convOp 1) false)
      [[1, 2]]).isOk = true ∧
    ((matrix mmOp).putCells 15 0x2000 4 false (placeAt (passOf mmOp 0) 4 false 64 64 0) (elemOrder (passOf mmOp 0) false)
      [[1, 2], [3, 4]]).isOk = true ∧
    ((matrix dwOp).putCells 15 0x2000 4 false (placeAt (passOf dwOp 1) 4 false 64 64 0) (elemOrder (passOf dwOp 1) false)
      [[1], [2]]).isOk = true := by decide +kernel

/-- Core 15 with instructions `l` at index 5. -/
def imemOf (l : List Nat) : Core := { imem := (l.flatMap (bytesOf 8)).zipIdx.filterMap fun x => if x.1 = 0 then none else some (40 + x.2, x.1) }

/-- VEC of two iterations from index 5 with ARG 0x40. -/
def vecOp : Op := opOf 1 (cmd [4, 5, 2, 0x40])

/-- The epilogue of the first pass of a two-tile result of command 3: 65 rows of one column, at tile `t`. -/
def epiAt (t : Nat) : Epi := { op := 3, p := 0, oy := 1, ox := 2, sub := 0, entry := 5, arg := 9, rows := List.replicate 65 [7], tile := t }

/-- A MATMUL with a vector-program epilogue whose pass was delivered. -/
def tileOp : Op := { opOf 0 mmCmd with begun := true, pass := 1 }

/-- VEND. -/
def vend : Nat := 0x63

/-- Bank `n` on at index 5. -/
def inBank (n : Nat) (o : Op) : Prog :=
  if n = 0 then { having o with bank0 := { on := true, pc := 5 } } else { having o with bank1 := { on := true, pc := 5, entry := 5 } }

/-- The state in which program `p` runs with instructions `l` and epilogue `e`. -/
def vector (p : Prog) (l : List Nat) (e : Option Epi) : State := running (cmd []) p { imemOf l with epi := e } []

theorem test_runs_vec : (vector (having vecOp) [vend] none).Runs 15 (having vecOp) := by constructor <;> decide +kernel
theorem test_runs_tile : (vector (having tileOp) [vend] (some (epiAt 0))).Runs 15 (having tileOp) := by constructor <;> decide +kernel
theorem test_lanes_vend0 : (vector (inBank 0 { vecOp with pass := 1 }) [vend] none).Lanes 15 0x63 0 (inBank 0 { vecOp with pass := 1 }) { vecOp with pass := 1 } vend := by
  repeat' first | decide +kernel | constructor
theorem test_lanes_vend1 : (vector (inBank 1 tileOp) [vend] (some (epiAt 0))).Lanes 15 0x63 1 (inBank 1 tileOp) tileOp vend := by
  repeat' first | decide +kernel | constructor
theorem test_lanes_vend2 : (vector (inBank 1 tileOp) [vend] (some (epiAt 1))).Lanes 15 0x63 1 (inBank 1 tileOp) tileOp vend := by
  repeat' first | decide +kernel | constructor

theorem test_witness_VectorProgramsStartAndEnd :
    (having vecOp).front 1 4 = some vecOp ∧ (vector (having vecOp) [vend] none).blkRuns (corePage 15 2) = true ∧
    (vector (having vecOp) [vend] none).opCheck (having vecOp) vecOp = none ∧ vIllegal 0 ((vector (having vecOp) [vend] none).imem 15 5) = false ∧
    ((vector (having tileOp) [vend] (some (epiAt 0))).core 15).epi = some (epiAt 0) ∧ (epiAt 0).tile < (epiAt 0).tiles ∧
    (having tileOp).ops.find? (·.id == 3) = some tileOp ∧ vIllegal 1 ((vector (having tileOp) [vend] (some (epiAt 0))).imem 15 5) = false ∧
    cf vecOp.w 2 0 16 ≤ 1 + 1 ∧ (epiAt 0).tile + 1 < (epiAt 0).tiles ∧ (epiAt 1).tiles ≤ (epiAt 1).tile + 1 := by decide +kernel

/-- The instruction of opcode `op` with D `d`, A `a`, B `b`, predicate `p`, further bits `f` (PZ 1, TYPE 2, BS 8, BI 16, SAT 32) and IMM. -/
def vi (op d a b p f imm : Nat) : Nat := op + d * 2 ^ 8 + a * 2 ^ 13 + b * 2 ^ 18 + p * 2 ^ 23 + f * 2 ^ 26 + imm * 2 ^ 32

/-- A bank on at index 5, with values in v1, v2, v3, v31, s1 to s5, p1 and p2. -/
def lanesBank : VBank :=
  { on := true, pc := 5, entry := 5
    v := ((List.range 64).map fun l => (64 + l, Word.ofNat (0xC0000000 + 0x1234567 * l))) ++
      ((List.range 64).map fun l => (128 + l, Word.ofNat (0x40000005 + 0x76543 * l * l))) ++
      ((List.range 64).map fun l => (192 + l, Word.ofNat (0x3F800000 + 4 * l))) ++ [(31 * 64, 7), (31 * 64 + 63, 9)]
    s := [(1, 0x40), (2, 3), (3, 0x80000000), (4, 6), (5, 0x41)], p := [(1, 0xF00000000000000F), (2, 0x5555)] }

/-- A VEC of one iteration, and a program in bank 0; the tile program of `tileOp` in bank 1. -/
def vec1 : Op := { opOf 1 (cmd [4, 5, 1, 0]) with begun := true }
def prog0 : Prog := { having vec1 with bank0 := lanesBank }
def prog1 : Prog := { having tileOp with bank1 := lanesBank }

/-- The state before instruction `i`, a VNOP behind it. -/
def before (bank i : Nat) : State :=
  let s := if bank = 0 then vector prog0 [i, 0] none else vector prog1 [i, 0] (some (epiAt 1))
  { s with as := [(15 * 2 ^ 23 + 0x40, 1), (15 * 2 ^ 23 + 0x41, 2), (15 * 2 ^ 23 + 0x42, 3), (15 * 2 ^ 23 + 0x43, 0x84)] }

/-- An instruction runs, and the next one is met. -/
theorem test_lanes_vadd : (before 0 (vi 1 31 1 2 1 1 0)).Lanes 15 1 0 prog0 vec1 (vi 1 31 1 2 1 1 0) := by
  repeat' first | decide +kernel | constructor
theorem test_lanes_vadd1 : (before 1 (vi 1 31 1 2 1 1 0)).Lanes 15 1 1 prog1 tileOp (vi 1 31 1 2 1 1 0) := by
  repeat' first | decide +kernel | constructor
theorem test_comes : (before 0 (vi 1 31 1 2 1 1 0)).Comes 15 0 { lanesBank with pc := 6, n := 1 } ∧
    (before 1 (vi 1 31 1 2 1 1 0)).Comes 15 1 { lanesBank with pc := 6, n := 1 } := by unfold Dev.Comes; decide +kernel

/-- The opcodes of the lane rows, and of the rows for which the table states a result under some TYPEs only. -/
theorem test_witness_LaneInstructionsWriteTheirActiveLanes :
    (vecRows (before 0 0).toDev 15).map (·.1) =
      [0x01, 0x02, 0x03, 0x05, 0x06, 0x07, 0x08, 0x09, 0x0A, 0x0B, 0x10, 0x11, 0x12, 0x13, 0x14, 0x18, 0x38, 0x39] ∧
    (vecRows (before 0 0).toDev 15).map (fun r => r.2.2.1 (vi r.1 0 0 0 0 4 0)) =
      [true, true, true, true, true, true, true, true, true, true, true, true, true, true, false, false, true, true] ∧
    (vecRows (before 0 0).toDev 15).all (fun r => (List.range 4).any fun t =>
      !vIllegal 0 (vi r.1 1 2 3 4 (2 * t) 0) && r.2.2.1 (vi r.1 1 2 3 4 (2 * t) 0)) = true ∧
    vIllegal 0 (vi 0x14 1 2 3 4 4 0) = false ∧ vIllegal 0 (vi 0x18 1 2 3 4 4 0) = false ∧ vIllegal 0 (vi 0x38 1 2 3 4 0 0) = false ∧
    vIllegal 0 (vi 0x39 1 2 3 4 0 0) = false := by decide +kernel

theorem test_lanes_shr : (before 0 (vi 0x14 31 1 2 1 5 0)).Lanes 15 0x14 0 prog0 vec1 (vi 0x14 31 1 2 1 5 0) := by
  repeat' first | decide +kernel | constructor

/-- Each instruction of the statement is legal in some form. -/
theorem test_witness_ScalarPredicateAndLaneMovesWriteTheirRegister :
    ([0x50, 0x51, 0x52, 0x53, 0x54, 0x55, 0x56, 0x57, 0x00, 0x32, 0x31, 0x36, 0x34, 0x30, 0x33, 0x35, 0x20, 0x28, 0x29, 0x2A, 0x2B, 0x60,
      0x61, 0x62].all fun op => !vIllegal 1 (vi op 1 2 3 4 0 5)) = true ∧ vIllegal 1 (vi 4 1 2 3 4 4 5) = false ∧
    bitN (lanesBank.pr 1) 4 = false ∧ lanesBank.sc 0 = 0 ∧ lanesBank.sc 1 ≠ 0 := by decide +kernel

theorem test_lanes_vred : (before 0 (vi 0x35 4 1 2 1 0 0)).Lanes 15 0x35 0 prog0 vec1 (vi 0x35 4 1 2 1 0 0) := by
  repeat' first | decide +kernel | constructor
theorem test_lanes_vcmp : (before 0 (vi 0x20 2 1 2 1 0 5)).Lanes 15 0x20 0 prog0 vec1 (vi 0x20 2 1 2 1 0 5) := by
  repeat' first | decide +kernel | constructor
theorem test_lanes_bz : (before 0 (vi 0x61 0 0 0 0 0 6)).Lanes 15 0x61 0 prog0 vec1 (vi 0x61 0 0 0 0 0 6) := by
  repeat' first | decide +kernel | constructor

/-- Loads of words from s1, a step of s4; stores of bytes; a misaligned scalar load. -/
def ldI : Nat := vi 0x40 31 1 4 1 0 (5 * 2 ^ 23 + 2 ^ 26 + 0x7FFFF0)
def stI : Nat := vi 0x41 3 1 0 1 0 0
def sldI : Nat := vi 0x42 7 1 0 0 0 0
def sstI : Nat := vi 0x43 3 1 0 0 0 0
def tinI : Nat := vi 0x48 31 10 0 1 1 0
def sendI : Nat := vi 0x49 0 0 1 0 0 0x101
def sldBad : Nat := vi 0x42 7 5 0 0 0 0
def sstBad : Nat := vi 0x43 7 5 0 0 0 0

/-- `before 0 i` with `n` credits for channel 1 of logical core 1. -/
def posting (i n : Nat) : State :=
  let s := before 0 i
  { s with eng := { s.eng with cores := [(14, s.core 14), (15, { s.core 15 with outs := [{ route := 255, dst := 14, ch := 1, credits := n, size := 64 }] })] } }

theorem test_lanes_vld : (before 0 ldI).Lanes 15 0x40 0 prog0 vec1 ldI := by repeat' first | decide +kernel | constructor
theorem test_lanes_vst : (before 0 stI).Lanes 15 0x41 0 prog0 vec1 stI := by repeat' first | decide +kernel | constructor
theorem test_lanes_sld : (before 0 sldI).Lanes 15 0x42 0 prog0 vec1 sldI := by repeat' first | decide +kernel | constructor
theorem test_lanes_sst : (before 0 sstI).Lanes 15 0x43 0 prog0 vec1 sstI := by repeat' first | decide +kernel | constructor
theorem test_lanes_vtin : (before 1 tinI).Lanes 15 0x48 1 prog1 tileOp tinI := by repeat' first | decide +kernel | constructor
theorem test_lanes_vsend : (posting sendI 1).Lanes 15 0x49 0 prog0 vec1 sendI := by repeat' first | decide +kernel | constructor
theorem test_lanes_vsend0 : (posting sendI 0).Lanes 15 0x49 0 prog0 vec1 sendI := by repeat' first | decide +kernel | constructor
theorem test_lanes_sldBad : (before 0 sldBad).Lanes 15 0x42 0 prog0 vec1 sldBad := by repeat' first | decide +kernel | constructor
theorem test_lanes_sstBad : (before 0 sstBad).Lanes 15 0x43 0 prog0 vec1 sstBad := by repeat' first | decide +kernel | constructor

theorem test_witness_VectorLoadsStoresAndSends :
    (∀ l, l < 64 → bitN (lanesBank.pr (vPred ldI)) l = true → lanesBank.elemAddr ldI l % elemSize ((vImm ldI).fld 23 3) = 0 ∧
      ((before 0 ldI).asRd 15 (lanesBank.elemAddr ldI l) (elemSize ((vImm ldI).fld 23 3))).isOk = true) ∧
    (before 0 stI).asMarks = [] ∧ (before 0 stI).tilePoison 15 0 = false ∧ 0 < elemSize ((vImm stI).fld 23 3) ∧
    (∀ l, l < 64 → bitN (lanesBank.pr (vPred stI)) l = true → lanesBank.elemAddr stI l % 1 = 0 ∧
      (before 0 stI).asBase 15 + lanesBank.elemAddr stI l + 1 ≤ (before 0 stI).asLimit 15) ∧
    (∀ l, l < 64 → ∀ m, m < 64 → l ≠ m → lanesBank.elemAddr stI l ≠ lanesBank.elemAddr stI m) ∧
    lanesBank.scAddr sldI % 4 = 0 ∧ (before 0 sldI).asWord 15 (lanesBank.scAddr sldI) = .ok 0x84030201 ∧ lanesBank.scAddr sstI % 4 = 0 ∧
    (before 0 sstI).asBase 15 + lanesBank.scAddr sstI + 4 ≤ (before 0 sstI).asLimit 15 ∧ (before 1 tinI).tilePoison 15 1 = false ∧
    (lanesBank.sc (vA tinI)).toNat < min 64 ((epiAt 1).nr - 64 * (epiAt 1).rb) ∧
    (posting sendI 1).sendTo 15 255 1 1 0x40 (cTag vec1.w) false = .go 14 { route := 255, dst := 14, ch := 1, credits := 1, size := 64 } ∧
    (posting sendI 1).localCore 14 = some 14 ∧ ((posting sendI 1).asRd 15 0 0x40).isOk = true ∧
    (posting sendI 0).sendTo 15 255 1 1 0x40 (cTag vec1.w) false = .wait ∧ lanesBank.scAddr sldBad % 4 ≠ 0 := by decide +kernel

/-- `n` bytes with words `l` by offset. -/
def desc (n : Nat) (l : List (Nat × Nat)) : List Byte :=
  bytesOfWords ((List.range (n / 4)).map fun i => Word.ofNat (((l.find? (·.1 == 4 * i)).map (·.2)).getD 0))

/-- Pools 0 (PIXEL), 3 (TENSOR) and 4 (META) in DRAM, 2 (TENSOR) in core 15's activation store. -/
def pools : List (Nat × Nat) :=
  pool 0 4 0 0x100000 ++ pool 2 4 (1 + 0x20 + 15 * 64) 0x100000 ++ pool 3 4 1 0x300000 ++ pool 4 4 2 0x400000

/-- The handle of buffer 0 of pool `p`. -/
def hd (p : Nat) : Nat := p * 2 ^ 28 + 1

/-- A manager whose context 3 is OPEN in slot 5, with a referenced buffer of each pool (count `n`), queues `qs`, and `b` at DRAM address `a`. -/
def engines (n : Nat) (qs : List (Nat × JobQ)) (a : Nat) (b : List Byte) (l : List (Nat × Nat)) : State :=
  let s := mgr (rings 3 1 ++ trained ++ pools ++ l)
  { s with
    dram := (s.toDev.putBytes a b).dram
    slots := [(5, 3)]
    bpm := { s.bpm with bufs := [0, 2, 3, 4].map fun p => (p * 2 ^ 20, { st := .alloc, count := n, allocs := 1, ctx := 3 }) }
    eng := { s.eng with queues := qs } }

/-- A JPEG job of 64 bytes at 0x500000 into pool 0, with IRQ; a baseline picture of 16 by 15 with chroma at 4:2:0. -/
def jpegDesc : List Byte := desc 64 [(0, 3 + 256), (8, 0x500000), (0x10, 64), (0x14, 7)]
def jpegData : List Byte := bytesOfWords ([0xC0FFD8FF, 0x00081100, 0x0310000F, 0x02002201, 0x11030111, 1].map Word.ofNat)

/-- A PPU job with IRQ: 16 by 16 to 2 by 2, bilinear, planes of bytes. -/
def ppuDesc : List Byte := desc 144 [(0, 3 + 256 + 2 ^ 18 + 2 ^ 25 + 2 ^ 29), (4, hd 0), (8, 0x100010), (0x10, 0x100010), (0x14, 0x20002), (0x1C, 0x20002),
  (0x28, 0x3F800000), (0x2C, 0x3F800000), (0x30, 0x3F800000), (0x80, hd 2), (0x88, 0x20000), (0x8C, 0x20001)]

/-- A DECODE_NMS job of one level of `n` cells of one anchor and class; an EMIT job of one record. -/
def nmsDesc (n : Nat) : List Byte := desc 160 [(0, 3 + 2 ^ 23), (4, 0x10000), (8, 0x3E800000), (0xC, 0x3E800000), (0x10, 10), (0x14, 4), (0x20, 0x3F800000),
  (0x24, 0x3F800000), (0x2C, hd 4), (0x80, hd 3), (0x88, 0x10000 + n), (0x8C, 1), (0x90, 1), (0x94, 0x41000000), (0x98, 0x3F800000), (0x9C, 256)]
def emitDesc : List Byte := desc 128 [(0, 3 + 256), (0x48, hd 4), (0x50, 1)]
def nmsData : List Byte := (List.range 5).flatMap fun p =>
  desc 64 (if p = 4 then [(0, 0x3F666666), (4, 0x3F4CCCCD)] else [(0, 0x3F800000), (4, 0x3F800000)])

/-- A SOLVER record of OP BUNDLE. -/
def bundleDesc : List Byte := desc 256 [(0, 3 + 4 * 256), (0x4C, hd 3)]

/-- Job 9 with descriptor `d` at 0x600000. -/
def job9 (d : List Byte) : Job := { by_ := .host, addr := some 0x600000, desc := d, ctx := 3, id := 9 }

/-- Descriptor `d` at 0x600000 waits to be pushed to queue `q`, whose jobs are `l`. -/
def pushing (q : Nat) (d : List Byte) (l : List Job) : State :=
  engines 1 [(q, { jobs := l, next := 12 })] 0x600000 d [(jqPage q + 0x100, 0x600000)]

theorem test_holds_push : (pushing 1 ppuDesc [job9 []]).Holds 3 0 (jobHandles 1 ppuDesc) ∧
    (pushing 3 (nmsDesc 2) [job9 []]).Holds 3 0 (jobHandles 3 (nmsDesc 2)) ∧ (pushing 0 jpegDesc []).Holds 3 0 (jobHandles 0 jpegDesc) := by
  refine ⟨?_, ?_, ?_⟩ <;> constructor <;> decide +kernel

theorem test_witness_PushedJobsAreAcceptedOrRefused :
    (pushing 1 ppuDesc [job9 []]).pfUp = true ∧ (pushing 1 ppuDesc [job9 []]).islOn (islOf (jqPage 1)) = true ∧
    (pushing 1 ppuDesc [job9 []]).rb (jqPage 1 + R.ctl) 1 = false ∧ (pushing 1 ppuDesc [job9 []]).rn (jqPage 1 + 0x100) = 0x600000 ∧
    (pushing 1 ppuDesc [job9 []]).Sound ∧
    (pushing 1 ppuDesc [job9 []]).bytes 0x600000 (descLen 1 ((pushing 1 ppuDesc [job9 []]).bytes 0x600000 128)) = ppuDesc ∧
    (pushing 1 ppuDesc [job9 []]).descBad 1 0x600000 = false ∧ ((pushing 1 ppuDesc [job9 []]).jq 1).jobs.length < 56 ∧
    (pushing 1 ppuDesc [job9 []]).byte 0x600000 = 3 ∧ (pushing 0 jpegDesc []).descBad 0 0x600000 = false ∧
    (pushing 4 bundleDesc [job9 []]).bytes 0x600000 (descLen 4 ((pushing 4 bundleDesc [job9 []]).bytes 0x600000 128)) = bundleDesc ∧
    dF bundleDesc 0 8 3 = 4 ∧ (pushing 4 bundleDesc [job9 []]).descBad 4 0x600000 = false ∧
    (pushing 0 jpegDesc []).descBad 0 0x600010 = true ∧ 64 ≤ ((pushing 0 jpegDesc (List.replicate 64 (job9 []))).jq 0).jobs.length ∧
    56 ≤ ((((pushing 2 ppuDesc (List.replicate 56 (job9 []))).jq 2).jobs.filter fun x => !x.timed).length) := by
  unfold Dev.Sound; decide +kernel

/-- A JPEG job before and after its start. -/
def jpeg0 : State := engines 2 [(0, { jobs := [job9 jpegDesc], next := 12 })] 0x500000 jpegData []
def jpegHead : JpegHead := { sof := 0xC0, w := 16, h := 15, chroma := 0 }
def jpeg1 : State :=
  { jpeg0 with eng := { jpeg0.eng with queues := [(0, { jobs := [{ job9 jpegDesc with phase := 1 }], next := 12 })], jpeg := { head := some jpegHead, out := .got (hd 0) } } }

/-- A PPU job with its references, in phase `n`. -/
def ppuJob (n : Nat) : Job := { job9 ppuDesc with refs := jobHandles 1 ppuDesc, phase := n }
def ppu (n : Nat) : State := engines 2 [(2, { jobs := [ppuJob n], next := 12 })] 0x100000 (bytesOfWords ((List.range 384).map fun i => Word.ofNat (0x10203040 + 0x01010101 * i))) []

theorem test_mayEnd_jpeg : jpeg1.MayEnd 0 { job9 jpegDesc with phase := 1 } 0x600000 := by
  constructor <;> first | decide +kernel | (unfold Dev.Sound; decide +kernel) | (constructor <;> decide +kernel)
theorem test_mayEnd_ppu : (ppu 1).MayEnd 2 (ppuJob 1) 0x600000 := by
  constructor <;> first | decide +kernel | (unfold Dev.Sound; decide +kernel) | (constructor <;> decide +kernel)

theorem test_witness_JpegAndPpuJobsStartAndComplete :
    jpeg0.jobFirst 0 = some (job9 jpegDesc) ∧ jpeg0.blkRuns 0x50000 = true ∧ jpeg0.Sound ∧ jpeg0.jpegBad jpegDesc = false ∧
    dQ jpegDesc 8 + dN jpegDesc 0x10 ≤ jpeg0.usable ∧ jpegCheck (jpeg0.bytes (dQ jpegDesc 8) 64) = .ok jpegHead 384 ∧
    picBytes 0 16 16 ≤ jpeg0.poolSize (dF jpegDesc 4 0 4) ∧ jpeg0.eng.tags < 2 ^ 47 ∧
    jpeg1.jobFirst 0 = some { job9 jpegDesc with phase := 1 } ∧ jpeg1.slotOf 3 = some 5 ∧ jpeg1.ledgerFull = false ∧
    (ppu 0).jobFirst 2 = some (ppuJob 0) ∧ (ppu 0).blkRuns (jqPage 2) = true ∧ ppuBad ppuDesc = false ∧ (ppu 0).ppuAddr ppuDesc = none ∧
    (ppu 1).jobFirst 2 = some (ppuJob 1) ∧ ppuN ppuDesc = 1 ∧ (ppu 1).poolCore (hPool (hd 2)) = 15 ∧ (ppu 1).coreIso 15 = false ∧
    (mgr []).jobFirst 0 = none ∧ (mgr []).jobFirst 1 = none := by unfold Dev.Sound; decide +kernel

/-- A DPP with job `j`, data `b` at 0x300000 and a record at 0x400000. -/
def dpp (j : Job) (l : List (Nat × Nat)) : State :=
  let s := engines 2 [(3, { jobs := [j], next := 12 })] 0x300000 nmsData l
  { s with dram := (s.toDev.putBytes 0x400000 (desc 64 [(0, 1)])).dram }

/-- The one candidate of a level of one cell. -/
def cand1 : Cand := { i := 0, box := { x0 := 0xC0800000, y0 := 0xC0800000, x1 := 0x41400000, y1 := 0x41400000 }, scores := [0x3F666666] }
def scored1 : Scored := { score := 0x3F666666, i := 0, cls := 0, box := cand1.box }

theorem test_witness_Detections :
    (dpp (job9 (nmsDesc 1)) []).dppNext = some (job9 (nmsDesc 1)) ∧ isEmit (nmsDesc 1) = false ∧ (dpp (job9 (nmsDesc 1)) []).blkRuns 0x60000 = true ∧
    dppBad (nmsDesc 1) = false ∧ (dpp (job9 (nmsDesc 1)) []).dppAddr (nmsDesc 1) = none ∧ (dpp (job9 (nmsDesc 1)) []).Sound ∧
    (dpp (job9 (nmsDesc 1)) []).asMarks = [] ∧ dF (nmsDesc 1) 0 11 1 = 0 ∧ (dpp (job9 (nmsDesc 1)) []).poolAs (hPool (dN (nmsDesc 1) 0x2C)) = false ∧
    ((dpp (job9 (nmsDesc 1)) []).dppCands (job9 (nmsDesc 1)) (dppLevelList (nmsDesc 1)) 0).2.1 = [cand1] ∧
    ([cand1].flatMap (Cand.ents false)).filter (fun e => !isNaN e.score && !flt e.score 0x3E800000) = [scored1] ∧
    nmsWalk false 0x3E800000 4 ([scored1].take 10) [] 0 = ([scored1], 0) := by unfold Dev.Sound; decide +kernel

theorem test_sorted1 : [scored1].mergeSort entLe = [scored1] := by simp

/-- A computed job; a HEARTBEAT's period. -/
def dppEnd : Job := { job9 emitDesc with phase := 2, refs := [hd 4], out := List.replicate 8 5 }
def beats : List (Nat × Nat) := [(R.ctxHbPeriod 3, 10)]

theorem test_mayEnd_dpp : (dpp dppEnd []).MayEnd 3 dppEnd 0x600000 := by
  constructor <;> first | decide +kernel | (unfold Dev.Sound; decide +kernel) | (constructor <;> decide +kernel)

theorem test_witness_DetectionsAreKeptAndRecordsEmitted :
    (dpp (job9 emitDesc) []).dppNext = some (job9 emitDesc) ∧ isEmit emitDesc = true ∧ dppBad emitDesc = false ∧
    (dpp (job9 emitDesc) []).dppAddr emitDesc = none ∧ (dpp (job9 emitDesc) []).poolAs (hPool (dN emitDesc 0x48)) = false ∧ (dpp (job9 emitDesc) []).isMgr = true ∧
    ((List.range (dNrec emitDesc)).map (fun i => wordsOf ((dpp (job9 emitDesc) []).bytes ((dpp (job9 emitDesc) []).hAddr (hd 4) + 64 * i) 64))).any recBad = false ∧
    (((dpp dppEnd []).jq 3).jobs.find? (fun i => i.phase == 2 && (((dpp dppEnd []).jq 3).jobs.find? (·.ctx == i.ctx)) == some i &&
        (dpp dppEnd []).outbox.all (fun r => !(r.ctx == i.ctx && r.job == i.id)))) = some dppEnd ∧
    (dpp dppEnd beats).ctxSt 3 = 1 ∧ (dpp dppEnd beats).rf (R.ctxHbPeriod 3) 0 16 ≠ 0 ∧ (dpp dppEnd beats).mgmtUp = true ∧
    ((dpp dppEnd beats).ctx 3).mqWait.find? (·.blk == 6) = none ∧ (dpp dppEnd []).rf (R.ctxHbPeriod 3) 0 16 = 0 := by decide +kernel

/-- Operands at 0x400000: a matrix at 0, a column at 0x80, a table of scales of 0 at 0xA0, a camera at 0xC0, an observation at 0x100, two
views at 0x140, a track table of one entry at 0x240, two updates at 0x300, BUNDLE's cameras at 0x340, point at 0x3C0 and observations at
0x3D0. -/
def operands : List Byte :=
  let cam := [(20, 0x3F800000), (24, 0x42C80000), (28, 0x42C80000), (32, 0x42480000), (36, 0x42480000)]
  desc 1024 ([(0, 0x40800000), (64, 0x40000000), (68, 0x40400000), (0x80, 0x40000000), (0x84, 0x40A00000),
    (0x100, 0x3F800000), (0x108, 0x40800000), (0x10C, 0x428C0000), (0x110, 0x42480000), (0x114, 0x3F800000),
    (0x180, 0x428C0000), (0x184, 0x42480000), (0x188, 0x3F800000), (0x200, 0x42700000), (0x204, 0x42480000), (0x208, 0x3F800000),
    (0x244, 0x10000), (0x284, 1), (0x308, 5), (0x310, 0x3F800000), (0x320, 7),
    (0x3C0, 0x3F800000), (0x3C8, 0x40800000), (0x3D4, 0x428C0000), (0x3D8, 0x42480000), (0x3DC, 0x3F800000), (0x3E0, 1), (0x3E4, 0x42700000),
    (0x3E8, 0x42480000), (0x3EC, 0x3F800000)] ++ [0xC0, 0x140, 0x1C0, 0x340, 0x380].flatMap fun o => cam.map fun x => (x.1 + o, x.2))

/-- Job records; results go to pool 3. -/
def facDesc (ld fixed : Nat) : List Byte := desc 256 ([(0, 3 + fixed * 2 ^ 14), (0x14, if fixed = 1 then 0 else 2), (0x40, 2 + 256), (0x44, hd 4), (0x4C, 1), (0x50, hd 4), (0x54, 0x80),
  (0x58, 1), (0x5C, hd 3), (0x60, 0x600), (0x68, 0x700), (0x6C, hd 4), (0x70, 0xA0)] ++ if ld = 1 then [(0x64, hd 3)] else [])
def asmDesc (after : Nat) : List Byte := desc 256 [(0, 3 + 256), (0x14, 1), (0x40, after * 512), (0x44, hd 4), (0x48, 0xC0), (0x4C, hd 4), (0x50, 0x100), (0x54, 1), (0x58, hd 3),
  (0x60, 0x3F800000), (0x6C, hd 3), (0x70, 0x400)]
def triDesc (init : Nat) : List Byte := desc 256 [(0, 3 + 512), (0x40, 2 + 64 + init * 1024), (0x44, hd 4), (0x48, 0x140), (0x54, 0x40800000), (0x64, hd 3), (0x68, 0x500)]
def trkDesc : List Byte := desc 256 [(0, 3 + 3 * 256), (0x40, hd 4), (0x44, 0x240), (0x48, hd 4), (0x4C, 0x300), (0x50, 2), (0x54, 0x3F800000), (0x64, 0x3F800000)]
def baDesc : List Byte := desc 256 [(0, 3 + 4 * 256), (0x40, 2), (0x44, 1), (0x48, 2), (0x4C, hd 4), (0x50, 0x340), (0x54, hd 4), (0x58, 0x3C0), (0x5C, hd 4), (0x60, 0x3D0),
  (0x64, hd 5), (0x6C, 0x18000), (0x70, 0x3A83126F)]

/-- The solver with jobs `l` in queue `q`, its operands and BUNDLE `b`. -/
def solver (q : Nat) (l : List Job) (b : Option Bundle) : State :=
  let s := engines 2 [(q, { jobs := l, next := 12 })] 0x400000 operands
    [(R.bpmPoolCfg0 5, 1), (R.bpmPoolCfg1 5, 521), (R.bpmPoolCfg2 5, 0x4001), (R.bpmPoolBaseLo 5, 0x800000), (R.ctxCoreset 3 0, 0x8000)]
  { s with
    bpm := { s.bpm with bufs := s.bpm.bufs ++ [(5 * 2 ^ 20, { st := .alloc, count := 2, allocs := 1, ctx := 3 })] }
    eng := { s.eng with bundle := b } }

theorem test_solves_factor : (solver 4 [job9 (facDesc 0 0)] none).Solves 4 0 (job9 (facDesc 0 0)) ∧
    (solver 4 [job9 (facDesc 1 0)] none).Solves 4 0 (job9 (facDesc 1 0)) ∧ (solver 4 [job9 (facDesc 0 1)] none).Solves 4 0 (job9 (facDesc 0 1)) := by
  refine ⟨?_, ?_, ?_⟩ <;> constructor <;> first | decide +kernel | (unfold Dev.Sound; decide +kernel)
theorem test_solves_assemble : (solver 4 [job9 (asmDesc 0)] none).Solves 4 1 (job9 (asmDesc 0)) ∧
    (solver 4 [job9 (asmDesc 1)] none).Solves 4 1 (job9 (asmDesc 1)) := by
  refine ⟨?_, ?_⟩ <;> constructor <;> first | decide +kernel | (unfold Dev.Sound; decide +kernel)
theorem test_solves_triangulate : (solver 4 [job9 (triDesc 0)] none).Solves 4 2 (job9 (triDesc 0)) ∧
    (solver 4 [job9 (triDesc 1)] none).Solves 4 2 (job9 (triDesc 1)) := by
  refine ⟨?_, ?_⟩ <;> constructor <;> first | decide +kernel | (unfold Dev.Sound; decide +kernel)
theorem test_solves_track : (solver 4 [job9 trkDesc] none).Solves 4 3 (job9 trkDesc) := by
  constructor <;> first | decide +kernel | (unfold Dev.Sound; decide +kernel)
theorem test_solves_bundle : (solver 5 [job9 baDesc] none).Solves 5 4 (job9 baDesc) := by
  constructor <;> first | decide +kernel | (unfold Dev.Sound; decide +kernel)

/-- Computed jobs: one that emits nothing, one that hands over its record, and one whose record is accepted. -/
def slvEnd (ph : Nat) (d : List Byte) : Job := { job9 d with phase := ph, refs := if ph = 5 then [] else [hd 3], out := List.replicate 16 6 }
def emitting : List Byte := desc 256 [(0, 3 + 2 ^ 13), (0x40, 2 + 256)]

theorem test_mayEnd_solver : (solver 4 [slvEnd 2 (facDesc 0 0)] none).MayEnd 4 (slvEnd 2 (facDesc 0 0)) 0x600000 ∧
    (solver 4 [slvEnd 2 emitting] none).MayEnd 4 (slvEnd 2 emitting) 0x600000 ∧ (solver 4 [slvEnd 5 emitting] none).MayEnd 4 (slvEnd 5 emitting) 0x600000 ∧
    (solver 5 [slvEnd 2 baDesc] none).MayEnd 5 (slvEnd 2 baDesc) 0x600000 := by
  refine ⟨?_, ?_, ?_, ?_⟩ <;> constructor <;> first | decide +kernel | (unfold Dev.Sound; decide +kernel) | (constructor <;> decide +kernel)

/-- A BUNDLE of `n` cameras in a phase. -/
def bundle (n ph : Nat) : Bundle :=
  { id := 9, ctx := 3, np := 6, ncam := n, intr := 0, fix := none, cores := 0, iters := 1, huber := 0, zmin := 0, tolCost := 0, cams := [], pts := [[0, 0, 0x40800000, 0]]
    obs := [[0, 0x428C0000, 0x42480000, 0x3F800000], [1, 0x42700000, 0x42480000, 0x3F800000]], mu := 0x3A83126F, phase := ph }

/-- Its job runs. -/
def bundling (b : Bundle) : State := solver 5 [{ job9 baDesc with phase := 1 }] (some b)

theorem test_witness_SolverJobsComputeAndComplete :
    slvFixed (facDesc 0 0) = false ∧ slvFixed (facDesc 0 1) = true ∧ dN (facDesc 0 0) 0x64 = 0 ∧ dN (facDesc 1 0) 0x64 ≠ 0 ∧
    4 * facN (facDesc 0 0) ≤ facBp (facDesc 0 0) ∧ 4 * facN (facDesc 1 0) ≤ facAp (facDesc 1 0) ∧ dF (asmDesc 0) 0x40 9 1 = 0 ∧ dF (asmDesc 1) 0x40 9 1 = 1 ∧
    dF (triDesc 1) 0x40 10 1 = 1 ∧ dF ((solver 4 [job9 trkDesc] none).bytes 0x400240 64) 4 16 16 = 1 ∧
    (solver 4 [slvEnd 2 (facDesc 0 0)] none).jobFirst 4 = some (slvEnd 2 (facDesc 0 0)) ∧ slvSends (slvEnd 2 (facDesc 0 0)) = false ∧
    slvSends (slvEnd 2 emitting) = true ∧ (solver 4 [slvEnd 5 emitting] none).slvHeld 4 (slvEnd 5 emitting) = false ∧
    (solver 5 [slvEnd 2 baDesc] none).slvStage 4 = none ∧ (solver 5 [slvEnd 2 baDesc] none).jobFirst 5 = some (slvEnd 2 baDesc) ∧
    slvSends (slvEnd 2 baDesc) = false ∧ (mgr []).slvStage 4 = none ∧ (mgr []).slvStage 5 = none ∧
    (bundling (bundle 2 1)).eng.bundle = some (bundle 2 1) ∧
    ((bundling (bundle 2 1)).jq 5).jobs.find? (fun i => i.id == (bundle 2 1).id && i.phase == 1) = some { job9 baDesc with phase := 1 } ∧
    ((bundling (bundle 2 1)).jq 4).jobs.any (·.phase == 0) = false ∧ (bundling (bundle 2 1)).blkRuns 0x68000 = true ∧
    obsBad 2 1 (((bundle 2 1).obs.drop 0).take 256) = false ∧ (bundle 2 1).obs.length ≤ 256 ∧ (bundle 60 5).k + 2 + (bundle 60 5).sub < (bundle 60 5).nb ∧
    (bundle 2 7).nb ≤ (bundle 2 7).sub + 1 ∧ ((solver 4 [job9 trkDesc] none).jq 4).jobs.any (·.phase == 0) = true ∧
    (∀ i, ((solver 4 [job9 trkDesc] none).jq 4).jobs.find? (·.phase == 0) = some i → slvOp i.desc ≠ 1 ∧ slvOp i.desc ≠ 2) := by
  refine ⟨by decide +kernel, by decide +kernel, by decide +kernel, by decide +kernel, by decide +kernel, by decide +kernel, by decide +kernel,
    by decide +kernel, by decide +kernel, by decide +kernel, by decide +kernel, by decide +kernel, by decide +kernel, by decide +kernel,
    rfl, by decide +kernel, by decide +kernel, rfl, rfl, by decide +kernel, by decide +kernel, by decide +kernel, by decide +kernel,
    by decide +kernel, by decide +kernel, by decide +kernel, by decide +kernel, by decide +kernel, ?_⟩
  intro i h
  have e : ((solver 4 [job9 trkDesc] none).jq 4).jobs.find? (·.phase == 0) = some (job9 trkDesc) := by decide +kernel
  rw [e] at h
  cases h
  decide +kernel

/-- A clip of stream 7 from 100 to 300 to DEST `a` (bit 63 in `hi`), 2 by 2 of a crop of 2 by 2, in pool 6. -/
def clipJob (a hi : Nat) : List Byte := desc 128 [(0, 7), (4, 6), (8, 100), (16, 300), (0x18, a), (0x1C, hi * 2 ^ 31), (0x20, 4096), (0x24, 0x20002), (0x2C, 0x20002),
  (0x48, 0x011E3314), (0x4C, 1000), (0x50, 0x10000)]
def vclip : Clip := { id := 5, ctx := 3, stream := 7, camera := 2, desc := clipJob 0x9000 0, masks := [], timed := false }

/-- Access unit `h` at `t`. -/
def auAt (h t : Nat) (b : Bool) : Au := { h, addr := 0x300000, len := 4, tag := 9, cts := t, est := false, discont := false, start := b }

/-- The retained stream, and a clip's span of it. -/
def retained : List Au := [auAt (hd 2) 50 true, auAt (hd 3) 150 false, auAt (hd 4) 250 false, auAt 1 350 false]
def stream7 : Stream := { ctx := 3, camera := 2, opts := 1, bs := 0, picPool := 0, twinPool := 0, route := 0, eng := some 3, retain := retained }

/-- A VENC with clips `l`; request 4, command 70 of context 3, waits for clip 5. -/
def venc (l : List Clip) (c : List (Nat × Nat)) : State :=
  let s := engines 2 [] 0x100000 (bytesOfWords ((List.range 64).map fun i => Word.ofNat (0x10203040 + 0x01010101 * i))) (pool 6 4 3 0x500000 ++ c)
  { withCtx s 3 { run := [{ seq := 70, op := 0x30, cid := 1, noCpl := false, irq := false }] } with
    boot := { s.boot with codecOk := true }
    bpm := { s.bpm with bufs := s.bpm.bufs ++ [(6 * 2 ^ 20, { st := .alloc, count := 2, allocs := 1, ctx := 3 })] }
    eng := { s.eng with
      streams := [(7, some stream7)]
      venc := { clips := l, reqs := [{ n := 4, by_ := .cmd 3 70, ctx := 3, desc := [], id := 5, masks := some [] }], iv := some 77 } } }

/-- A running clip with its buffer, of pictures `l`. -/
def runs (l : List Pic) : Clip := { vclip with acc := true, run := true, grow := false, buf := .got (hd 6), pics := l }
/-- A picture of 4 by 4 in buffer 0 of pool 0. -/
def pic4 : Pic := { h := hd 0, twin := 0, stream := 7, w := 4, hgt := 4, crop := { x := 0, y := 0, w := 4, h := 4 }, fmt := 0, cts := 150, tag := 9, est := false, noTwin := true, conc := 0 }

/-- One clip runs and one waits. -/
def waiting2 : State := venc [{ runs [] with id := 6 }, vclip] []
/-- An accepted clip waits for the slot. -/
def accepted : Clip := { vclip with acc := true, span := (retained.take 3) }

theorem test_holds_span : waiting2.Holds 3 0 [hd 2, hd 3, hd 4] := by constructor <;> decide +kernel
theorem test_holds_pic : (venc [runs [pic4]] []).Holds 3 1 [hd 0] := by constructor <;> decide +kernel

theorem test_witness_ClipStart :
    waiting2.blkRuns 0x48000 = true ∧ waiting2.boot.codecOk = true ∧ waiting2.isMgr = true ∧ waiting2.eng.venc.reqs.filter (·.id == 0) = [] ∧
    waiting2.eng.venc.clips.find? (fun i => !i.acc) = some vclip ∧ waiting2.runClip = some { runs [] with id := 6 } ∧
    waiting2.strm vclip.stream = some stream7 ∧ spanOf vclip.startCts stream7.retain = (retained, false) ∧
    (retained.takeWhile fun u => decide (u.cts ≤ vclip.endCts)).map (fun u => ({ u with pic := .no, twin := .no } : Au)) = retained.take 3 ∧
    (waiting2.eng.venc.reqs.find? (·.id == 5)).map (·.by_) = some (.cmd 3 70) ∧ vclip.id / 2 ^ 28 = waiting2.addr ∧
    (((waiting2.ctx 3).run.find? (·.seq == 70)).map (·.dups)) = some [] ∧
    (venc [accepted] []).eng.venc.clips = [accepted] ∧ (venc [accepted] []).eng.tags < 2 ^ 47 := by decide +kernel

theorem test_witness_ClipsAreAcceptedEncodedAndReported :
    (venc [runs [pic4]] []).runClip = some (runs [pic4]) ∧ (venc [runs [pic4]] []).Sound ∧ (venc [runs [pic4]] []).strm clipKey = none ∧
    ((runs [pic4]).scaler 4 4).sx + ((runs [pic4]).scaler 4 4).sw ≤ 4 ∧ ((runs [pic4]).scaler 4 4).sy + ((runs [pic4]).scaler 4 4).sh ≤ 4 ∧
    objBytes ((runs [pic4]).index.length + 1) ((runs [pic4]).size + 100) ≤ min (runs [pic4]).maxBytes ((venc [runs [pic4]] []).poolSize (hPool (hd 6))) ∧
    min (runs [pic4]).maxBytes ((venc [runs [pic4]] []).poolSize (hPool (hd 6))) < objBytes ((runs [pic4]).index.length + 1) ((runs [pic4]).size + 5000) ∧
    (venc [runs []] []).eng.venc.clips = [runs []] ∧ (venc [runs []] []).bpmDown = false ∧ (venc [runs []] []).bpm.waiters = [] ∧
    (venc [runs []] []).hValid (hd 6) = true ∧ (venc [runs []] []).poolMay (hPool (hd 6)) 3 = true ∧ (venc [runs []] []).poolAs (hPool (hd 6)) = false ∧
    1 ≤ ((venc [runs []] []).buf 6 0).count ∧ ((venc [runs []] []).buf 6 0).poisoned = false ∧ ((venc [runs []] []).buf 6 0).bad = false ∧
    (venc [runs []] []).spanDone (runs []) = true ∧ (venc [runs []] []).eng.venc.iv = some 77 ∧ (venc [runs []] []).ctxSt 3 = 1 ∧
    objBytes 0 0 ≤ (venc [runs []] []).poolSize (hPool (hd 6)) ∧ bitN (dQ (runs []).desc 0x18) 63 = false ∧
    (venc [runs []] []).hifHeld ((venc [runs []] []).ctxVec 3).1 = false ∧ bitN (dQ (clipJob 0x700000 1) 0x18) 63 = true ∧
    (venc [{ runs [] with desc := clipJob 0x700000 1 }] []).ctxDram 3 (dQ (clipJob 0x700000 1) 0x18 % 2 ^ 63) 80 = some 0x700000 ∧
    (venc [] []).eng.venc.clips = [] := by unfold Dev.Sound; decide +kernel

/-- A seat whose jobs have completed. -/
def seat0 : Seat := { q := 0, stream := 7, camera := 2, flags := 0, pic := hd 0, cts := 150, picN := 1, w := 4, hgt := 4, ppu := 3, finished := true }
/-- A coach of two seats, its table at 0x1000. -/
def coach2 : Coach := { noCoach with kind := 1, seats := 2, nslot := 1, seatAddr := 0x1000 }
/-- Route 255 on core 15 with steps `l`. -/
def routeOf (l : List Step) : Route := { ctx := 3, model := 2, map := [15], banks := [3], seq := 1, coach := some coach2, steps := l }
def coaching (x : Route) : State :=
  let s := engines 2 [] 0x100000 (bytesOfWords (cmd [0x13, 0, 1])) []
  { s with eng := { s.eng with cores := [(15, { progs := [{ prog with st := .ended, pc := 9 }], imemOf := some 3 })], routes := [(255, some x)] } }
/-- A boarded step, and one that has started. -/
def boarded : Step := { n := 3, seats := [seat0] }
def started : Step := { boarded with started := true }
/-- A started step whose seat has released its picture. -/
def finished1 : Step := { n := 3, seats := [{ seat0 with released := true }], started := true }

theorem test_holds_seat : (coaching (routeOf [started])).Holds 3 1 [hd 0] := by constructor <;> decide +kernel

theorem test_witness_CoachStepsStartReleaseTheirSeatsAndEnd :
    (coaching (routeOf [boarded])).route 255 = some (routeOf [boarded]) ∧ (coaching (routeOf [boarded])).schedDown = false ∧
    (∀ y ∈ (routeOf [boarded]).map, y / 16 = (coaching (routeOf [boarded])).addr) ∧ (coaching (routeOf [boarded])).asMarks = [] ∧
    ((coaching (routeOf [boarded])).window 3).1 + coach2.seatAddr + (coach2.table boarded).length ≤ 2 ^ 23 ∧
    (routeOf [started]).seats.find? (·.q == 0) = some seat0 ∧ seat0.done = true ∧ (coaching (routeOf [started])).listeners 255 = [] ∧
    (∀ i ∈ finished1.seats, i.done = true ∧ i.released = true) ∧ (routeOf [finished1]).held = [] ∧ (routeOf [finished1]).waiting = [] := by decide +kernel

/-- A manager with an open context, GOV_EN `g`, T_TRIP of 110 degrees and what `l` says. -/
def power (g : Nat) (l : List (Nat × Nat)) : State := mgr (rings 3 1 ++ [(R.pwrCtl, g), (R.pwrCap, 400), (R.pwrThermCfg, 0x6E05645F)] ++ l)

theorem test_witness_PowerAndTemperatureFollowTheirLadders :
    (power 1 []).inD3 = false ∧ (power 1 []).isMgr = true ∧ (wkr []).chain.asleep = false ∧ (power 1 []).govEn = true ∧ (power 1 []).mgmtUp = true ∧
    (power 0 []).govEn = false ∧ (power 1 []).boot.powered = true ∧ (power 1 []).pwr.tripped = false ∧
    (∀ x ∈ [(380 : Int), 439].take 26, x < 4 * (((power 1 []).rf R.pwrThermCfg 24 8 : Nat) : Int)) ∧
    ([(380 : Int), 440].take 26).findIdx? (fun x => decide ((4 * ((power 1 []).reg R.pwrThermCfg).fld 24 8 : Int) ≤ x)) = some 1 ∧
    (1 : Word).fld 0 2 = 1 ∧ (2 : Word).fld 0 2 = 2 := by decide +kernel

/-- Fumarole may be entered with core 0, or holds with core 0; the PF is in D3hot. -/
def fumReady : State := mgr []
def fumHolds (b : Bool) : State :=
  { fumReady with
    regs := regsOn ([(R.topStrap, 1), (R.nocPortIso, 0), (R.mgmtStat, 4), (R.schedCoreOff, 0xFFFE), (R.pwrIslCtl 3, 9), (R.clkIslStat 3, 0)])
    pwr := { fumReady.pwr with fum := true, gated := [3], coreOff := 5, wakeDet := b } }
def inD3hot : State :=
  let s := mgrCfg [(R.hifPmStat, 3), (R.pwrWakeEn, 0x1FF), (R.pwrWakeTimer, 9)] [(0x11, 0x103)]
  { s with chain := { s.chain with asleep := true } }
/-- Main power is absent. -/
def dark : State := { mgrCfg [(R.pwrWakeEn, 0x1FF)] [(0x11, 0x100)] with boot := { (mgr []).boot with powered := false } }
/-- Core 1 is in use. -/
def fumBusy : State := { mgr [] with eng := { (mgr []).eng with cores := [(1, { progs := [{ route := 255, ctx := 3, lcore := 0, bank := 3 }] })] } }

theorem test_witness_SleepAndWake :
    fumReady.isMgr = true ∧ fumReady.pwr.fum = false ∧ fumReady.fumRefuse 0 = 0 ∧ fumReady.islRuns 15 = true ∧ fumBusy.fumRefuse 0 ≠ 0 ∧
    (fumHolds false).inD3 = false ∧ (fumHolds true).pwr.wakeDet = true ∧ (wkr []).isMgr = false ∧ fumReady.inD3 = false ∧ inD3hot.inD3 = true ∧
    inD3hot.rb R.pwrWakeEn 7 = true ∧ (inD3hot.cfg 0 0x11).bit 8 = true ∧ dark.boot.powered = false ∧ dark.rb R.pwrWakeEn 3 = true ∧
    (dark.cfg 0 0x11).bit 8 = true ∧ inD3hot.rn R.pwrWakeTimer ≠ 0 ∧ inD3hot.rb R.pwrWakeEn 8 = true := by decide +kernel

/-- Word 1 of an entry: its period, action, late policy and argument. -/
def entW (per act late arg : Nat) : Nat := per + act * 2 ^ 38 + late * 2 ^ 41 + arg * 2 ^ 43

/-- `s` at shop time 125 ns (2000 in 1/16 ns) with entry 255 as `x`. -/
def timed (s : State) (x : Ent) : State := { s with shop := 2000 * 2 ^ 44, tim := { s.tim with ents := [(255, x)], pulses := [100, 130] } }
/-- Context 3's entry at 1999: `act` once or every 1000. -/
def ent (per act late arg : Nat) : Ent := { t := 1999, w := entW per act late arg, owner := 3 }

/-- A manager whose context 3, in state `st`, has an empty SQ. -/
def submitting (st : Nat) (x : Ent) : State := timed (engines 2 [] 0x600000 [] [(R.ctxStat 3, st)]) x

/-- Stream 7 has a picture of 120 ns ready for the coach of route 255. -/
def picReady : Pic := { pic4 with cts := 120 }
def capture (x : Ent) : State :=
  let s := engines 2 [] 0x100000 [] []
  timed { s with eng := { s.eng with routes := [(255, some (routeOf []))], streams := [(7, some { stream7 with route := 255, ready := [picReady] })] } } x

/-- Entry 255 pushes `d`, at 0x600000, whose PPU queues hold `l`. -/
def timedPush (d : List Byte) (l : List Job) (x : Ent) : State := timed (engines 1 [(1, { jobs := l, next := 12 }), (2, { jobs := l })] 0x600000 d []) x

/-- A clip descriptor of 64 by 64, and a manager whose stream 7 may be clipped. -/
def clip64 : List Byte := desc 128 [(0, 7), (4, 6), (8, 100), (16, 300), (0x18, 0x9000), (0x20, 4096), (0x24, 0x400040), (0x2C, 0x400040),
  (0x48, 0x011E3314), (0x4C, 1000), (0x50, 0x10000)]
def ring7 : Ring := { ctx := 3, unit := 0, mode := 1, addr := 0x20000, n := 16, pool := 0, base := 0x100000, size := 4096 }
def timedClip (x : Ent) : State :=
  let s := timed (engines 1 [] 0x600000 clip64 (pool 6 4 3 0x500000)) x
  { s with sec := { s.sec with evLoaded := 1 }, eng := { s.eng with rings := [(7, some ring7)], streams := [(7, some stream7)] } }

theorem test_witness_EntriesThatLaunch :
    (submitting 2 (ent 0 1 0 2)).Due 255 1 (ent 0 1 0 2) ∧ (submitting 1 (ent 1000 1 0 1)).Due 255 1 (ent 1000 1 0 1) ∧
    (capture (ent 1000 2 0 9)).Due 255 2 (ent 1000 2 0 9) ∧ (capture (ent 1000 2 0 255)).Due 255 2 (ent 1000 2 0 255) ∧
    (timedPush ppuDesc [] (ent 1000 3 0 0xC000)).Due 255 3 (ent 1000 3 0 0xC000) ∧
    (timedPush ppuDesc (List.replicate 64 (job9 [])) (ent 1000 3 1 0xC000)).Due 255 3 (ent 1000 3 1 0xC000) ∧
    (timedClip (ent 1000 4 0 0xC000)).Due 255 4 (ent 1000 4 0 0xC000) ∧ (capture (ent 0 5 0 7)).Due 255 5 (ent 0 5 0 7) := by
  refine ⟨?_, ?_, ?_, ?_, ?_, ?_, ?_, ?_⟩ <;> constructor <;> decide +kernel

theorem test_witness_Submit :
    (submitting 2 (ent 0 1 0 2)).ctxSt 3 = 2 ∧ (submitting 1 (ent 0 1 0 1)).ctxSt 3 = 1 ∧ fldN (ent 1000 1 0 1).arg 0 16 = 1 ∧
    (submitting 1 (ent 0 1 0 1)).isMgr = true ∧ (submitting 1 (ent 0 1 0 1)).rb (R.ctxCtl 3) 3 = false ∧
    (submitting 1 (ent 0 1 0 1)).ringFull 3 1 = false ∧ ((submitting 1 (ent 0 1 0 1)).ctx 3).sq = [] ∧
    ((submitting 1 (ent 0 1 0 1)).ctx 3).sqIssued = ((submitting 1 (ent 0 1 0 1)).ctx 3).sqTail ∧
    (((submitting 1 (ent 0 1 0 1)).ctx 3).sqTail + 1 + 2 ^ 32 - (submitting 1 (ent 0 1 0 1)).rn (R.ctxRingCnt 3 0)) % 2 ^ 32 ≤ (submitting 1 (ent 0 1 0 1)).ringLen 3 0 ∧
    (submitting 1 (ent 0 1 0 1)).hifHeld ((submitting 1 (ent 0 1 0 1)).ctxVec 3).1 = false ∧
    (submitting 1 (ent 0 1 0 1)).nextTag ≠ none := by decide +kernel

theorem test_witness_Close :
    (capture (ent 1000 2 0 9)).route (fldN (ent 1000 2 0 9).arg 0 8) = none ∧ fldN (ent 1000 2 0 255).arg 0 8 = 255 ∧
    (capture (ent 1000 2 0 255)).route 255 = some (routeOf []) ∧ (routeOf []).ctx = 3 ∧ (routeOf []).coach = some coach2 ∧ coach2.kind = 1 ∧
    (routeOf []).stopping = false ∧ (routeOf []).waiting = [] ∧
    (capture (ent 1000 2 0 255)).eng.streams = [(7, some { stream7 with route := 255, ready := [picReady] })] ∧ (7 : Nat) ≠ clipKey ∧
    (1999 : Int) - (ent 1000 2 0 255).per ≤ picReady.cts * 16 ∧ (picReady.cts * 16 : Int) < 1999 ∧
    fldN (ent 1000 2 0 255).arg 14 7 = 0 ∧ fldN (ent 1000 2 0 255).arg 8 6 = 0 := by decide +kernel

theorem test_witness_TimedPushes :
    (timedPush ppuDesc [] (ent 1000 3 0 0xC000)).ppuFor = 1 ∧ (timedPush ppuDesc [] (ent 1000 3 0 0xC000)).ctxDram 3 ((ent 1000 3 0 0xC000).arg * 128) 128 = some 0x600000 ∧
    ((timedPush ppuDesc [] (ent 1000 3 0 0xC000)).byte 0x600000).toNat = 3 ∧ (timedPush ppuDesc [] (ent 1000 3 0 0xC000)).descBad 1 0x600000 = false ∧
    (timedPush ppuDesc [] (ent 1000 3 0 0xC000)).bytes 0x600000 (descLen 1 ((timedPush ppuDesc [] (ent 1000 3 0 0xC000)).bytes 0x600000 128)) = ppuDesc ∧
    64 ≤ ((timedPush ppuDesc (List.replicate 64 (job9 [])) (ent 1000 3 1 0xC000)).jq 1).jobs.length ∧
    (timedPush ppuDesc (List.replicate 64 (job9 [])) (ent 1000 3 1 0xC000)).ppuFor = 1 ∧
    (timedPush ppuDesc (List.replicate 64 (job9 [])) (ent 1000 3 1 0xC000)).descBad 1 0x600000 = false ∧ (ent 1000 3 1 0xC000).late = 1 ∧
    (timedClip (ent 1000 4 0 0xC000)).ctxDram 3 ((ent 1000 4 0 0xC000).arg * 128) 128 = some 0x600000 ∧
    (timedClip (ent 1000 4 0 0xC000)).bytes 0x600000 128 = clip64 ∧ clipBad clip64 = false ∧ dF clip64 0 14 1 = 0 ∧ dF clip64 0x38 0 13 = 0 ∧
    bitN (dQ clip64 0x18) 63 = false ∧ (timedClip (ent 1000 4 0 0xC000)).inRing (dF clip64 0 0 12) = some ring7 ∧
    (timedClip (ent 1000 4 0 0xC000)).addr = 0 ∧ (timedClip (ent 1000 4 0 0xC000)).vencRefuse 3 clip64 true = none := by decide +kernel

theorem test_holds_timed : (timedPush ppuDesc [] (ent 1000 3 0 0xC000)).Holds 3 0 (jobHandles 1 ppuDesc) ∧
    (timedPush ppuDesc [] (ent 1000 3 0 0xC000)).Sound ∧ (timedPush ppuDesc (List.replicate 64 (job9 [])) (ent 1000 3 1 0xC000)).Sound ∧
    (timedClip (ent 1000 4 0 0xC000)).Sound := by
  refine ⟨?_, ?_, ?_, ?_⟩
  · constructor <;> decide +kernel
  all_goals (unfold Dev.Sound; decide +kernel)

/-- A late entry of `act` with the PPU, SCHED and VENC in soft reset. -/
def downed (x : Ent) : State :=
  timed (engines 1 [] 0x600000 ppuDesc [(0x7000 + R.ctl, 2), (0x60000 + R.ctl, 2), (0x61000 + R.ctl, 2), (0x48000 + R.ctl, 2), (jqPage 1 + R.ctl, 2)]) x
/-- An entry whose target was down, and one whose push was refused with 4 occurrences missed. -/
def wasDown (act : Nat) : Ent := { ent 100 act 2 0 with down := true }
def refused : Ent := { ent 1000 3 1 0xC000 with t := 2999, retry := some (1500, 4), held := some (1, 2) }

theorem test_witness_LateEntries :
    (∀ act ∈ [1, 2, 3, 4], (downed (ent 100 act 0 0)).targetDown (ent 100 act 0 0) = true ∧ (timed (mgr []) (wasDown act)).targetDown (wasDown act) = false) ∧
    (wasDown 5).late = 2 ∧ (wasDown 5).per ≠ 0 ∧ (timed (mgr []) (wasDown 5)).rb R.timeStat 1 = false ∧
    (timed (mgr []) (wasDown 5)).now16 - 1999 < 100 ∧ ((timed (mgr []) (wasDown 5)).ent 255).action ≠ 1 ∧
    refused.action = 3 ∧ refused.late = 1 ∧ (timedPush ppuDesc [] refused).clipOpen 255 = false ∧ (timedPush ppuDesc [] refused).targetDown refused = false ∧
    (timedPush ppuDesc [] refused).ppuFor = 1 ∧ (timedPush ppuDesc [] refused).descBad 1 0x600000 = false ∧
    ((timedPush ppuDesc [] refused).ent 255).held ≠ none ∧ ((mgr []).ent 255).retry = none ∧ ((mgr []).ent 255).held = none := by decide +kernel

/-- A worker with a key that hears TIME frames on port 1, its chain's far end on port 0. -/
def timedBy (g bad ns : Nat) : State :=
  let s := wkr [(R.glkStat 0, 2), (R.glkStat 1, 2), (R.timeStat, g * 256 + (if bad = 1 then 1 else 0))]
  { s with shop := ns * 2 ^ 48, tim := { s.tim with bad, rxAt := some 1, origin := 7, corr := 3 }, chain := { s.chain with addressed := true } }
/-- A manager in PTM mode that waits for a response. -/
def ptmAt (g ns : Nat) : State :=
  let s := mgr [(R.timeCtl, 2), (R.timeStat, g * 256), (R.timePtmOffLo, 5)]
  { s with shop := ns * 2 ^ 48, hif := { s.hif with ptmOut := true } }

theorem test_witness_TimeIsKeptAndTheTimetableLaunches :
    (mgr [(R.timeCtl, 16)]).rb R.timeCtl 4 = true ∧ (mgr [(R.timeCtl, 1)]).timeSrc = 1 ∧ (mgr []).timeSrc ≠ 1 ∧ (mgr []).islOn (islOf 0x70000) = true ∧
    (mgr []).rb (0x70000 + R.ctl) 1 = false ∧ (mgr []).pfUp = true ∧ (mgr []).unarmed ∧ (mgr []).isMgr = true ∧
    ((mgr [(R.glkStat 0, 2), (R.glkStat 1, 2)]).glk 0).queue = [] ∧ (mgr [(R.glkStat 0, 2), (R.glkStat 1, 2)]).glkSt 1 = 2 ∧
    (timedBy 7 0 1000).isMgr = false ∧ (timedBy 7 0 1000).tim.rxAt = some 1 ∧ (timedBy 7 0 1000).glkSt (otherPort 1) = 2 ∧
    ((timedBy 7 0 1000).glk 0).queue = [] ∧ ((timedBy 7 0 1000).glk 1).queue = [] ∧ (timedBy 7 0 1000).glkSt 1 = 2 ∧
    (timedBy 7 0 1000).upstream 1 = 1 ∧ (timedBy 7 0 1000).rb R.timeStat 1 = false ∧ (timedBy 7 0 1000).mgmtUp = true ∧ (timedBy 7 0 1000).unarmed ∧
    (timedBy 7 0 1000).rf R.timeStat 8 8 = 7 ∧ 1 ≤ (timedBy 7 1 1000).tim.bad ∧
    (ptmAt 7 500).timeSrc = 2 ∧ (ptmAt 7 500).rb R.timeStat 1 = false ∧ (ptmAt 7 500).mgmtUp = true ∧ (ptmAt 7 500).unarmed ∧
    (mgr []).pageUp R.timeNowLo = true ∧ (mgr []).pageUp R.ventLastAddrLo = true := by unfold Dev.unarmed; decide +kernel

/-- A manager of lifecycle state `lc` with security state changes `f`, with registers `l`. -/
def secure (lc : Lc) (f : Sec → Sec) (l : List (Nat × Nat)) : State :=
  let s := mgr l
  { s with sec := f { s.sec with lc } }

/-- A debug token of level `lv` for serial number 1 with challenge words 10 to 17, signed by the key of an owner for `own` 1. -/
def token (lv own : Nat) : List Byte := desc 64 ([(0, 0x4B4C4E55), (4, lv + 16 * own), (8, 1)] ++ (List.range 8).map fun i => (0x10 + 4 * i, 10 + i))
def nonce8 : List Nat := (List.range 8).map (10 + ·)

/-- A session of AUTH_DEBUG; pool 0 is a PIXEL pool, and bytes lie below and in it. -/
def session (lc : Lc) (lv : Nat) : State :=
  let s := secure lc (fun x => { x with dbgLevel := lv }) (trained ++ pool 0 4 0 0x100000)
  { s with dram := (s.toDev.putBytes 0xFFFFE [0x11, 0x22, 0x33, 0x44]).dram }
/-- An unlock to level `lv` is complete but for its resets. -/
def opening (lc : Lc) (lv : Nat) : State :=
  let s := session lc 0
  { s with sec := { s.sec with unlocking := some lv, evLoaded := 3 } }

theorem test_witness_LifecycleRequests :
    (secure .sealed (fun x => { x with dbgLevel := 1 }) []).lcBlock = 3 ∧ (secure .provisioned (fun x => { x with sealPending := true }) []).lcBlock = 4 ∧
    (∀ lc ∈ [Lc.blank, .provisioned, .sealed, .decommissioned], (secure lc id []).lcBlock = 0) ∧ (secure .sealed id []).slots = [] ∧
    (1 : Word).bit 0 = true ∧ (secure .sealed (fun x => { x with revokeMask := 15 }) []).sec.revokeMask < 16 ∧
    ({ secure .sealed id [] with boot := { (mgr []).boot with started := true } } : State).boot.started = true ∧ (mgr []).boot.started = false := by decide +kernel

theorem test_witness_Unlocks :
    (secure .provisioned (fun x => { x with nonce := nonce8 }) []).dbgWhy (token 2 1) true = 0 ∧
    (secure .sealed (fun x => { x with nonce := nonce8, dbgMax := 1 }) []).dbgWhy (token 2 1) true = 5 ∧
    (secure .sealed (fun x => { x with nonce := nonce8, dbgMax := 1 }) []).dbgWhy (token 1 1) true = 0 ∧ natOf (((token 1 1).drop 4).take 1) % 4 < 2 ∧
    (secure .blank (fun x => { x with nonce := nonce8 }) []).dbgWhy (token 3 1) true = 1 ∧
    (secure .blank (fun x => { x with nonce := nonce8 }) []).dbgWhy (token 3 0) true = 0 ∧
    (secure .provisioned (fun x => { x with nonce := nonce8 }) []).dbgWhy (token 3 1) true = 4 ∧
    (secure .provisioned id []).dbgWhy (token 2 1) true = 3 ∧ (secure .provisioned id []).sec.unlocking = none ∧
    (opening .sealed 2).sec.unlocking = some 2 ∧ (∀ x ∈ (opening .sealed 2).slots, x.2 = 0) ∧ (opening .sealed 2).guardedExtents ≠ [] ∧
    ({ opening .sealed 2 with slots := [(0, 0), (4, 1)] } : State).slots.any (fun x => x.2 != 0) = true ∧ (2 : Word).fld 0 2 < (session .sealed 3).sec.dbgLevel := by
  decide +kernel

theorem test_witness_LifecycleDebugAndAttestation :
    (session .sealed 1).sec.dbgLevel < 2 ∧ 2 ≤ (session .sealed 2).sec.dbgLevel ∧ (session .sealed 2).inD3 = false ∧
    0xFFFFE + 4 ≤ (session .sealed 2).usable ∧ ((session .sealed 2).dbgByte 0x100001).2 = true ∧ ((session .sealed 2).dbgByte 0xFFFFF).2 = false ∧
    (session .blank 3).pwr.fum = false ∧ (session .blank 3).dbgOpen = true ∧ (mgr []).isMgr = true ∧ (mgr []).mctp.doe = none ∧
    (mgr []).doeHolds = false ∧ (mgr [(R.mgmtStat, 0)]).doeHolds = true ∧ (wkr []).isMgr = false ∧ (mgr []).certSlot 1 = false ∧
    (secure .sealed id []).certSlot 1 = true := by decide +kernel

/-- A manager whose update stands as START finds it. -/
def updating (n stat : Nat) (busy : Bool) : State :=
  let s := mgr [(R.mgmtUpdLen, n), (R.mgmtStat, stat)]
  { s with mgmt := { s.mgmt with updBusy := busy }, sec := { s.sec with floorM := 2, floorC := 3 } }
def bundleImg (ok : Bool) (svn csvn : Nat) : ImageCheck :=
  { ok, runs := true, codec := true, reason := 1, mgmtSvn := svn, codecSvn := csvn, version := 9, revoke := 0, signSlot := 0 }

/-- A manager of endpoint ID `e`, SMBus address 0x62, with alert bit 3 and unit 1 JOINED. -/
def managed (e : Nat) : State :=
  let s := mgr [(R.topStrap, 5), (R.topAlertStat, 8), (R.topAlertEn, 15), (R.pwrTempMax, 400), (R.pwrThermCfg, 0x6E05645F)]
  { s with mctp := { s.mctp with eid := e }, chain := { s.chain with units := [(1, { st := .joined })] } }
/-- Neither main power nor standby. -/
def unpowered : State := { mgr [] with boot := { (mgr []).boot with powered := false, aonKept := false } }

theorem test_witness_UpdatesAndManagementMessages :
    (1 : Word).bit 0 = true ∧ (updating 0 4 false).isMgr = true ∧ (updating 16777216 4 false).rn R.mgmtUpdLen = 16777216 ∧
    (updating 16777216 4 false).rf R.mgmtStat 0 2 = 0 ∧ (updating 9 5 false).rf R.mgmtStat 0 2 = 1 ∧ (updating 9 4 true).mgmt.updBusy = true ∧
    (updating 9 4 true).mgmt.slotA.st = .active ∧ (bundleImg true 2 3).mgmtSvn = (updating 9 4 true).sec.floorM ∧ (bundleImg true 1 3).mgmtSvn < (updating 9 4 true).sec.floorM ∧
    (bundleImg false 2 3).ok = false ∧ (bundleImg true 2 3).codec = true ∧ unpowered.aonUp = false ∧ (managed 8).aonUp = true ∧ (managed 8).mctpUp = true ∧
    (managed 8).mctp.eid ≠ 0 ∧ (managed 0).mctp.eid = 0 ∧ ((managed 8).reg R.topAlertStat &&& (managed 8).reg R.topAlertEn) ≠ 0 ∧
    (managed 8).mctp.alertHeld = false ∧ (managed 8).isJoined 1 = true ∧ (managed 8).isJoined 2 = false ∧ (managed 8).isMgr = true ∧
    (mgr [(R.mgmtStat, 0)]).mctpUp = false ∧ (mgr [(R.mgmtStat, 0)]).aonUp = true ∧ ((mgr []).reg R.topAlertStat &&& (mgr []).reg R.topAlertEn) = 0 ∧
    pec ([(managed 8).smbAddr * 2, 2, 4] ++ (bytesOf 4 8).map (·.toNat)) ≠ (255 : Byte).toNat := by decide +kernel

/-- One ill-formed command for each check of `Instr.wf`: the others hold of it. -/
theorem test_wf_refuses_0 : ∀ i ∈ ([.memcTrainingDone 8 0 0 0 false, .configRequest 16 1023 (some (0, 15)), .configRequest 15 1024 (some (0, 15)), .configRequest 15 1023 (some (0, 16)),
      .barSize 64, .busMasterEnable 16, .vfFlr 16, .vfResetDone 16, .bar2Write 0 16 0 [] false false, .bar2Read 0 16 0 4096 false,
      .bar2Read 0 15 0 4097 false, .acquireRead 0 16 4 0 4096 false, .acquireRead 0 15 3 0 4096 false, .acquireRead 0 15 4 0 4097 false,
      .readaheadLineExpiry 0 16 0, .completionReceived 1024 [] false false false, .readTimeout 1024, .tagQuarantineEnd 1024, .gpioWakeEdge 4 false,
      .registerWrite (.host 16) 4 0 [(0, 15)] false false, .registerWrite (.host 15) 3 0 [(0, 15)] false false,
      .registerWrite (.host 15) 4 0 [(0, 15), (0, 16)] false false, .registerWrite (.host 15) 4 2 [(0, 15)] false false, .clkIslFreq 26 0, .islandRelock 26,
      .pwrIslCtl 26 0, .remoteRead (.host 16) 15 0, .remoteRead (.host 15) 16 0, .remoteWrite (.host 16) 15 0 0 15, .remoteWrite (.host 15) 16 0 0 15,
      .remoteWrite (.host 15) 15 0 0 16, .remoteReadTimeout 4294967296, .stagedEventWrite 4, .ctxOpen (.host 16) 255 0, .ctxOpen (.host 15) 256 0,
      .ctxReset (.host 16) 255 0, .ctxReset (.host 15) 256 0, .ctxResetDone 256, .devEvents (.host 16) 255 0, .devEvents (.host 15) 256 0,
      .dbSqTail (.host 16) 255 0 15, .dbSqTail (.host 15) 256 0 15, .dbSqTail (.host 15) 255 0 16, .dbCqHead (.host 16) 255 0 15,
      .dbCqHead (.host 15) 256 0 15, .dbCqHead (.host 15) 255 0 16, .dbEqHead (.host 16) 255 0 15, .dbEqHead (.host 15) 256 0 15,
      .dbEqHead (.host 15) 255 0 16, .dbMqHead (.host 16) 255 0 15, .dbMqHead (.host 15) 256 0 15, .dbMqHead (.host 15) 255 0 16,
      .ctxInDb (.host 16) 255 0 15, .ctxInDb (.host 15) 256 0 15, .ctxInDb (.host 15) 255 0 16, .hostNop 256, .modelLoad 256, .modelUnload 256,
      .graphLaunch 256, .graphStop 256] : List Instr), i.wf = false := by decide +kernel

theorem test_wf_refuses_1 : ∀ i ∈ ([.streamAttach 256, .streamDetach 256, .solve 256, .clipRequest 256, .ttArm 256, .ttDisarm 256, .bufAlloc 256, .bufRef 256, .bufUnref 256,
      .poolConfig 256, .commandComplete 256, .teardownDone 256, .metadataRecord 256, .moderationTimeout 256 3, .moderationTimeout 255 0,
      .moderationTimeout 255 4, .ctxPfCtl (.host 16) 255 0, .ctxPfCtl (.host 15) 256 0, .poolEnable 16 0,
      .alloc 96 255 15 false 4294967295 (some (1, ({ cls := 0, sub := 2 } : Frame))),
      .alloc 95 256 15 false 4294967295 (some (1, ({ cls := 0, sub := 2 } : Frame))),
      .alloc 95 255 16 false 4294967295 (some (1, ({ cls := 0, sub := 2 } : Frame))),
      .alloc 95 255 15 false 4294967296 (some (1, ({ cls := 0, sub := 2 } : Frame))),
      .alloc 95 255 15 false 4294967295 (some (2, ({ cls := 0, sub := 2 } : Frame))),
      .alloc 95 255 15 false 4294967295 (some (1, ({ cls := 1, sub := 0 } : Frame))),
      .alloc 95 255 15 false 4294967295 (some (1, ({ cls := 0, sub := 2, dst := 16 } : Frame))),
      .inc 96 255 4294967295 4294967295 (some (1, ({ cls := 0, sub := 2 } : Frame))),
      .inc 95 256 4294967295 4294967295 (some (1, ({ cls := 0, sub := 2 } : Frame))),
      .inc 95 255 4294967296 4294967295 (some (1, ({ cls := 0, sub := 2 } : Frame))),
      .inc 95 255 4294967295 4294967296 (some (1, ({ cls := 0, sub := 2 } : Frame))),
      .inc 95 255 4294967295 4294967295 (some (2, ({ cls := 0, sub := 2 } : Frame))),
      .inc 95 255 4294967295 4294967295 (some (1, ({ cls := 1, sub := 0 } : Frame))),
      .inc 95 255 4294967295 4294967295 (some (1, ({ cls := 0, sub := 2, dst := 16 } : Frame))),
      .dec 96 255 4294967295 4294967295 (some (1, ({ cls := 0, sub := 2 } : Frame))),
      .dec 95 256 4294967295 4294967295 (some (1, ({ cls := 0, sub := 2 } : Frame))),
      .dec 95 255 4294967296 4294967295 (some (1, ({ cls := 0, sub := 2 } : Frame))),
      .dec 95 255 4294967295 4294967296 (some (1, ({ cls := 0, sub := 2 } : Frame))),
      .dec 95 255 4294967295 4294967295 (some (2, ({ cls := 0, sub := 2 } : Frame))),
      .dec 95 255 4294967295 4294967295 (some (1, ({ cls := 1, sub := 0 } : Frame))),
      .dec 95 255 4294967295 4294967295 (some (1, ({ cls := 0, sub := 2, dst := 16 } : Frame))), .rasRetirePage (.host 16) 0,
      .idle 2 ({ cls := 4, sub := 0 } : Frame), .idle 1 ({ cls := 4, sub := 0, src := 16 } : Frame), .idle 1 ({ cls := 1, sub := 0 } : Frame),
      .frameCrcFailure 2 false, .replayTimeout 2, .laneLockLoss 2, .ingressEntry 4096 false false,
      .pictureDecodeStart 4 (⟨.no, .same, false, false, false, []⟩ : AuRead), .pictureDecodeDone 4 (⟨0, true, [], [], false⟩ : PicRead), .send 16 false,
      .recv 16, .signal 16, .wait 16, .barrier 16, .loop 16, .branch 16, .timewait 16, .timewaitReached 16, .seqWaitTimeout 16] : List Instr), i.wf = false := by decide +kernel

theorem test_wf_refuses_2 : ∀ i ∈ ([.move 16, .wstream 16, .wsuMcastTimeout 16, .matmul 16 0 false, .conv 16 0 false, .dwconv 16, .vec 16, .epilogueTile 16, .vnop 16, .vadd 16, .vsub 16,
      .vmul 16, .vfma 16, .vmin 16, .vmax 16, .vabs 16, .vneg 16, .vdiv 16, .vsqrt 16, .vmulq 16, .vand 16, .vor 16, .vxor 16, .vshl 16, .vshr 16, .vcvt 16,
      .vcmp 16, .pand 16, .por 16, .pnot 16, .pfirst 16, .vsel 16, .vperm 16, .vbcast 16, .viota 16, .vext 16, .vins 16, .vred 16, .vact 16, .vlut 16,
      .vld 16, .vst 16, .sld 16, .sst 16, .vtin 16, .vsend 16, .sadd 16, .ssub 16, .smul 16, .sli 16, .sand 16, .sor 16, .sshl 16, .sshr 16, .jmp 16, .bz 16,
      .bnz 16, .vend 16, .jobPushHi 6 (.host 15) 0, .jobPushHi 5 (.host 16) 0] : List Instr), i.wf = false := by decide +kernel

theorem test_wf_refuses_3 : ∀ i ∈ ([.dppJobPushHi (.host 16) 0, .slvJobPushHi (.host 16) 0, .end_ 16, .ccmdComplete 16 0, .creditTimeout 16 0, .mxuPreemptTimeout 16, .preempt 16,
      .resume 16, .stepStart 256, .seatRelease 256 0, .stepEnd 256, .schedCoreOff (.host 16) 0, .ppuJobStart 2, .ppuJobDone 2, .heartbeat 256,
      .clipWaitExpiry 4294967296, .submit 256, .close 256, .ppu 256, .clip 256, .sync 256, .lateRetry 256, .timeStepHi (.host 16) 0, .time 2 0 0 0,
      .heldReportRelease 256, .unitLost 16 0, .keepaliveTimeout 16, .wakeReportTimeout 16, .quarantineTimeout 16, .offlineReq 16 0,
      .glkLinkUp 2 (⟨1, false, true, 15, 1, false, 15, 4⟩ : PeerRep), .glkLinkUp 1 (⟨1, false, true, 16, 1, false, 15, 4⟩ : PeerRep), .glkCtlRetrain 2 0,
      .lossHoldExpiry 16 1, .lossHoldExpiry 15 2, .linkKeyRollover 16 1, .linkKeyRollover 15 2, .getCertificate 16 0 0, .challenge 16, .setEndpointId 256,
      .getsensorreading 4294967296, .getpdr 4294967296, .seteventreceiver 256, .message 16 31 (some (1, ({ cls := 0, sub := 4 } : Frame))),
      .message 15 32 (some (1, ({ cls := 0, sub := 4 } : Frame))), .message 15 31 (some (2, ({ cls := 0, sub := 4 } : Frame))),
      .message 15 31 (some (1, ({ cls := 1, sub := 0 } : Frame))), .message 15 31 (some (1, ({ cls := 0, sub := 4, dst := 16 } : Frame))),
      .credit 16 (some (1, ({ cls := 0, sub := 5 } : Frame))), .credit 15 (some (2, ({ cls := 0, sub := 5 } : Frame))),
      .credit 15 (some (1, ({ cls := 1, sub := 0 } : Frame))), .credit 15 (some (1, ({ cls := 0, sub := 5, dst := 16 } : Frame))),
      .signalFrame 2 ({ cls := 0, sub := 6 } : Frame), .signalFrame 1 ({ cls := 0, sub := 6, src := 16 } : Frame),
      .signalFrame 1 ({ cls := 1, sub := 0 } : Frame), .write 2 ({ cls := 0, sub := 0 } : Frame), .write 1 ({ cls := 0, sub := 0, src := 16 } : Frame),
      .write 1 ({ cls := 1, sub := 0 } : Frame), .read 2 ({ cls := 0, sub := 1 } : Frame), .read 1 ({ cls := 0, sub := 1, src := 16 } : Frame)] : List Instr), i.wf = false := by decide +kernel

theorem test_wf_refuses_4 : ∀ i ∈ ([.read 1 ({ cls := 1, sub := 0 } : Frame), .response 2 ({ cls := 0, sub := 3 } : Frame), .response 1 ({ cls := 0, sub := 3, src := 16 } : Frame),
      .response 1 ({ cls := 1, sub := 0 } : Frame), .record 2 ({ cls := 0, sub := 7 } : Frame), .record 1 ({ cls := 0, sub := 7, src := 16 } : Frame),
      .record 1 ({ cls := 1, sub := 0 } : Frame), .regRead 2 ({ cls := 2, sub := 0 } : Frame), .regRead 1 ({ cls := 2, sub := 0, src := 16 } : Frame),
      .regRead 1 ({ cls := 1, sub := 0 } : Frame), .regWrite 2 ({ cls := 2, sub := 1 } : Frame), .regWrite 1 ({ cls := 2, sub := 1, src := 16 } : Frame),
      .regWrite 1 ({ cls := 1, sub := 0 } : Frame), .regResp 2 ({ cls := 2, sub := 2 } : Frame), .regResp 1 ({ cls := 2, sub := 2, src := 16 } : Frame),
      .regResp 1 ({ cls := 1, sub := 0 } : Frame), .keepalive 2 ({ cls := 2, sub := 3 } : Frame), .keepalive 1 ({ cls := 2, sub := 3, src := 16 } : Frame),
      .keepalive 1 ({ cls := 1, sub := 0 } : Frame), .join 2 ({ cls := 2, sub := 4 } : Frame), .join 1 ({ cls := 2, sub := 4, src := 16 } : Frame),
      .join 1 ({ cls := 1, sub := 0 } : Frame), .firmware 2 ({ cls := 2, sub := 5 } : Frame), .firmware 1 ({ cls := 2, sub := 5, src := 16 } : Frame),
      .firmware 1 ({ cls := 1, sub := 0 } : Frame), .sleep (some (2, ({ cls := 2, sub := 5 } : Frame))), .sleep (some (1, ({ cls := 1, sub := 0 } : Frame))),
      .sleep (some (1, ({ cls := 2, sub := 5, dst := 16 } : Frame))), .waybill 2 ({ cls := 3, sub := 0 } : Frame),
      .waybill 1 ({ cls := 3, sub := 0, src := 16 } : Frame), .waybill 1 ({ cls := 1, sub := 0 } : Frame), .pcieLinkUp 6 8, .pcieLinkUp 5 3,
      .idle 1 ({ cls := 8 } : Frame), .idle 1 ({ cls := 4, vc := 4 } : Frame), .idle 1 ({ cls := 4, dst := 16 } : Frame),
      .idle 1 ({ cls := 4, src := 16 } : Frame), .idle 1 ({ cls := 4, hops := 16 } : Frame), .idle 1 ({ cls := 4, seq := 4096 } : Frame),
      .idle 1 ({ cls := 4, ack := 4096 } : Frame), .idle 1 ({ cls := 4, epoch := 256 } : Frame), .idle 1 ({ cls := 4, sub := 16 } : Frame),
      .idle 1 ({ cls := 4, arg := 1048576 } : Frame), .idle 1 ({ cls := 4, txid := 4294967296 } : Frame),
      .idle 1 ({ cls := 4, payload := List.replicate 512 0 } : Frame), .idle 1 ({ cls := 4, fw := some .sleep } : Frame),
      .glkLinkUp 1 (⟨18446744073709551616, false, true, 15, 1, false, 15, 4⟩ : PeerRep),
      .glkLinkUp 1 (⟨1, false, true, 15, 18446744073709551616, false, 15, 4⟩ : PeerRep), .glkLinkUp 1 (⟨1, false, true, 15, 1, false, 16, 4⟩ : PeerRep),
      .glkLinkUp 1 (⟨1, false, true, 15, 1, false, 15, 3⟩ : PeerRep)] : List Instr), i.wf = false := by decide +kernel

/-- The same commands with every operand at its largest value. -/
theorem test_wf_takes_0 : ∀ i ∈ ([.memcTrainingDone 7 0 0 0 false, .configRequest 15 1023 (some (0, 15)), .barSize 63, .busMasterEnable 15, .vfFlr 15, .vfResetDone 15,
      .bar2Write 0 15 0 [] false false, .bar2Read 0 15 0 4096 false, .acquireRead 0 15 4 0 4096 false, .readaheadLineExpiry 0 15 0,
      .completionReceived 1023 [] false false false, .readTimeout 1023, .tagQuarantineEnd 1023, .gpioWakeEdge 3 false,
      .registerWrite (.host 15) 4 0 [(0, 15)] false false, .clkIslFreq 25 0, .islandRelock 25, .pwrIslCtl 25 0, .remoteRead (.host 15) 15 0,
      .remoteWrite (.host 15) 15 0 0 15, .remoteReadTimeout 4294967295, .stagedEventWrite 3, .ctxOpen (.host 15) 255 0, .ctxReset (.host 15) 255 0,
      .ctxResetDone 255, .devEvents (.host 15) 255 0, .dbSqTail (.host 15) 255 0 15, .dbCqHead (.host 15) 255 0 15, .dbEqHead (.host 15) 255 0 15,
      .dbMqHead (.host 15) 255 0 15, .ctxInDb (.host 15) 255 0 15, .hostNop 255, .modelLoad 255, .modelUnload 255, .graphLaunch 255, .graphStop 255,
      .streamAttach 255, .streamDetach 255, .solve 255, .clipRequest 255, .ttArm 255, .ttDisarm 255, .bufAlloc 255, .bufRef 255, .bufUnref 255,
      .poolConfig 255, .commandComplete 255, .teardownDone 255, .metadataRecord 255, .moderationTimeout 255 3, .ctxPfCtl (.host 15) 255 0, .poolEnable 15 0,
      .alloc 95 255 15 false 4294967295 (some (1, ({ cls := 0, sub := 2 } : Frame))),
      .inc 95 255 4294967295 4294967295 (some (1, ({ cls := 0, sub := 2 } : Frame))),
      .dec 95 255 4294967295 4294967295 (some (1, ({ cls := 0, sub := 2 } : Frame))), .rasRetirePage (.host 15) 0, .idle 1 ({ cls := 4, sub := 0 } : Frame),
      .frameCrcFailure 1 false, .replayTimeout 1, .laneLockLoss 1] : List Instr), i.wf = true := by decide +kernel

theorem test_wf_takes_1 : ∀ i ∈ ([.ingressEntry 4095 false false, .pictureDecodeStart 3 (⟨.no, .same, false, false, false, []⟩ : AuRead),
      .pictureDecodeDone 3 (⟨0, true, [], [], false⟩ : PicRead), .send 15 false, .recv 15, .signal 15, .wait 15, .barrier 15, .loop 15, .branch 15,
      .timewait 15, .timewaitReached 15, .seqWaitTimeout 15, .move 15, .wstream 15, .wsuMcastTimeout 15, .matmul 15 0 false, .conv 15 0 false, .dwconv 15,
      .vec 15, .epilogueTile 15, .vnop 15, .vadd 15, .vsub 15, .vmul 15, .vfma 15, .vmin 15, .vmax 15, .vabs 15, .vneg 15, .vdiv 15, .vsqrt 15, .vmulq 15,
      .vand 15, .vor 15, .vxor 15, .vshl 15, .vshr 15, .vcvt 15, .vcmp 15, .pand 15, .por 15, .pnot 15, .pfirst 15, .vsel 15, .vperm 15, .vbcast 15,
      .viota 15, .vext 15, .vins 15, .vred 15, .vact 15, .vlut 15, .vld 15, .vst 15, .sld 15, .sst 15, .vtin 15, .vsend 15, .sadd 15] : List Instr), i.wf = true := by decide +kernel

theorem test_wf_takes_2 : ∀ i ∈ ([.ssub 15, .smul 15, .sli 15, .sand 15, .sor 15, .sshl 15, .sshr 15, .jmp 15, .bz 15, .bnz 15, .vend 15, .jobPushHi 5 (.host 15) 0,
      .dppJobPushHi (.host 15) 0, .slvJobPushHi (.host 15) 0, .end_ 15, .ccmdComplete 15 0, .creditTimeout 15 0, .mxuPreemptTimeout 15, .preempt 15,
      .resume 15, .stepStart 255, .seatRelease 255 0, .stepEnd 255, .schedCoreOff (.host 15) 0, .ppuJobStart 1, .ppuJobDone 1, .heartbeat 255,
      .clipWaitExpiry 4294967295, .submit 255, .close 255, .ppu 255, .clip 255, .sync 255, .lateRetry 255, .timeStepHi (.host 15) 0, .time 1 0 0 0,
      .heldReportRelease 255, .unitLost 15 0, .keepaliveTimeout 15, .wakeReportTimeout 15, .quarantineTimeout 15, .offlineReq 15 0,
      .glkLinkUp 1 (⟨1, false, true, 15, 1, false, 15, 4⟩ : PeerRep), .glkCtlRetrain 1 0, .lossHoldExpiry 15 1, .linkKeyRollover 15 1,
      .getCertificate 15 0 0, .challenge 15, .setEndpointId 255, .getsensorreading 4294967295, .getpdr 4294967295, .seteventreceiver 255,
      .message 15 31 (some (1, ({ cls := 0, sub := 4 } : Frame))), .credit 15 (some (1, ({ cls := 0, sub := 5 } : Frame))),
      .signalFrame 1 ({ cls := 0, sub := 6 } : Frame), .write 1 ({ cls := 0, sub := 0 } : Frame), .read 1 ({ cls := 0, sub := 1 } : Frame),
      .response 1 ({ cls := 0, sub := 3 } : Frame), .record 1 ({ cls := 0, sub := 7 } : Frame), .regRead 1 ({ cls := 2, sub := 0 } : Frame)] : List Instr), i.wf = true := by decide +kernel

theorem test_wf_takes_3 : ∀ i ∈ ([.regWrite 1 ({ cls := 2, sub := 1 } : Frame), .regResp 1 ({ cls := 2, sub := 2 } : Frame), .keepalive 1 ({ cls := 2, sub := 3 } : Frame),
      .join 1 ({ cls := 2, sub := 4 } : Frame), .firmware 1 ({ cls := 2, sub := 5 } : Frame), .sleep (some (1, ({ cls := 2, sub := 5 } : Frame))),
      .waybill 1 ({ cls := 3, sub := 0 } : Frame), .pcieLinkUp 5 8,
      .firmware 0 ({ cls := 2, sub := 5, vc := 3, dst := 15, src := 15, seq := 4095, ack := 4095, epoch := 255, arg := 1048575, txid := 4294967295, payload := List.replicate 511 0, fw := some .sleep } : Frame)] : List Instr), i.wf = true := by decide +kernel

/-! The spec's worked examples. -/

/-- Chapter 3: BLK_ID of the manager's TOP and VDEC2, of VDEC2 and CORE7 MXU of unit 1. -/
theorem test_blk_id : ((mgr []).regRead 0).1 = 0x01000001 ∧ ((mgr []).regRead 0x42000).1 = 0x0102000D ∧ ((wkr []).regRead 0x42000).1 = 0x0112000D ∧
    ((wkr []).regRead 0x171000).1 = 0x01170021 := by decide +kernel

/-- Chapter 8: MEMC3's physical address 0x22C2_22E0 and its usable address, there and back. -/
theorem test_scrub_address : usableOf 3 (0x22C222E0 / 4096) (0x22C222E0 % 4096) = 0x104B003E0 ∧ chanOf 0x104B003E0 = 3 ∧
    physOf (chanLocal 0x104B003E0) = 0x22C222E0 := by decide +kernel

/-- Chapter 10: the steps of the letterbox, rows 5 and 729, and the pixel 100, 110, 150 with its INT8 elements. -/
theorem test_ppu_step : stepOf 960 1280 = 49152 ∧ stepOf 544 725 = 49175 ∧ (tapsAt 1 ((49175 - 65536) / 2)).l = [(-1, 32), (0, 224)] ∧
    (tapsAt 1 ((1449 * 49175 - 65536) / 2)).l = [(543, 223), (544, 33)] := by decide +kernel
theorem test_ppu_pixel : toRgb 1 400 440 600 = [549, 360, 239] ∧ toRgb 1 456 512 512 = [456, 456, 456] ∧
    ([549, 360, 239, 456].map fun v => toSigned 8 (encOf 0 true (ffma (fofInt v) 0x3E800000 0xC3000000))) = [9, -38, -68, -14] := by decide +kernel

/-- Chapter 14: the requant entry MUL 0x5555_5555, h 40 of column 3. -/
theorem test_requant : requantInt 0 19545 0x55555555 40 0 = 25 ∧ requantInt 0 401200 0x55555555 40 0 = 127 := by decide +kernel

/-- Chapter 15: the candidate at level 1, gx 40, gy 20, and its mapped box. -/
theorem test_mapped_box :
    mapBox (desc 128 [(0x1C, 0x40A00000), (0x20, 0x3F400000), (0x24, 0x3F401700)])
      (boxOf 0 { Level.ofDesc [] 0 with stride := 0x41800000 } 0 40 20 fun i => [0x40700000, 0x40B40000, 0x40600000, 0x40C80000].getD i 0) =
      { x0 := 0x43DC8000, y0 := 0x432ED4EF, x1 := 0x44040000, y1 := 0x439EB300 } := by decide +kernel

/-- Chapter 20: the Hall's ring of 8 units, and the manager's routes with the units of `m`. -/
def hall (u p : Nat) : Option Nat := if u < 8 then some ((u + (if p = 0 then 1 else 7)) % 8) else none
def hallRoutes (m : Nat → Bool) : Nat :=
  ((List.range 16).map fun d => (if m d then routeBy hall m (hopsTo hall m d) 0 else 3) * 4 ^ d).sum

theorem test_hall_routes : hallRoutes (fun u => decide (u < 8)) = 0xFFFFA954 ∧ hallRoutes (fun u => decide (u < 8) && u != 5) = 0xFFFFAD54 := by
  decide +kernel

/-- Chapter 21: the ceilings at level 8 and at level 15. -/
theorem test_ceilings : [0, 1, 2].map (fun d => ceilOf d 8) = [800, 800, 1000] ∧ [0, 1, 2].map (fun d => ceilOf d 15) = [100, 200, 300] := by decide +kernel

/-- Chapter 25: values decoded and encoded. -/
theorem test_status_codes : Status.ofCode 0x1254 = ⟨.staleHandle, 9⟩ ∧ Status.ofCode 0x2843 = ⟨.ctxFaultAddr, 0x21⟩ ∧
    Status.ofCode 0x2549 = ⟨.unitLost, 0x15⟩ ∧ Status.code ⟨.staleHandle, 9⟩ = 0x1254 ∧ Status.code ⟨.ctxFaultAddr, 0x21⟩ = 0x2843 ∧
    Status.code ⟨.unitLost, 0x15⟩ = 0x2549 := by decide +kernel

/-! One step each. -/

/-- The unit after a command. -/
def after (o : Host.Outcome State Fault Refusal) : Dev := match o with
  | .next t => t.toDev
  | _ => State.reset.toDev

/-- R349: one TCLK edge of 2 ns, and the rate of TIME_RATE. -/
theorem test_idle : (after (step State.reset)).shop = 2 * 2 ^ 48 ∧ (after (step { mgr [(R.timeRate, 0xFFFFFFFF)] with pending := [] })).shop = 2 * 2 ^ 48 - 512 := by
  decide +kernel

/-- The front command leaves the queue; the one behind it waits. -/
theorem test_queue_order : (match step { mgr [] with pending := [.nocPortIsoSet 4, .nocPortIsoClr 4] } with
    | .next t => t.pending == [.nocPortIsoClr 4] && t.rn R.nocPortIso == 4
    | _ => false) = true := by decide +kernel

/-- R34, R35: a partial write is dropped and captured; SRST of a block clears its interrupt status. -/
theorem test_partial_write : (after (exec (.dbSqTail (.host 0) 255 7 3) (mgr (rings 255 1)))).rb (R.capt 0) 31 = true ∧
    (after (exec (.dbSqTail (.host 0) 255 7 3) (mgr (rings 255 1)))).ctx 255 = (mgr (rings 255 1)).ctx 255 := by decide +kernel

/-- R404: SEC_COMMIT raises the floor and revokes all marked slots but the running image's own. -/
theorem test_commit : let s := secure .sealed (fun x => { x with floorM := 3, runM := 5, revoked := 1, revokeMask := 6, signSlot := 1 }) []
    let t := after (exec (.secCommit 1) { s with boot := { s.boot with started := true } })
    t.sec.floorM = 5 ∧ t.sec.revoked = 5 := by decide +kernel

/-- R413: nothing but a reset raises a level that DBG_LOCK lowered. -/
theorem test_lock : (after (exec (.dbgLock 1) (session .sealed 2))).sec.dbgLevel = 1 ∧ (after (exec (.dbgLock 3) (session .sealed 2))).sec.dbgLevel = 2 := by
  decide +kernel

/-- R375: TIME frames carry the manager's shop time. -/
theorem test_time_frame : ((after (exec .timeFrameSend { mgr [(R.glkStat 0, 2)] with shop := 99 * 2 ^ 48 })).out.map fun o => match o with
    | .frame 0 f => f.payload
    | _ => []) = [bytesOf 8 99 ++ bytesOf 8 0] := by decide +kernel

/-- A manager whose image has booted. -/
def committed : State :=
  let s := secure .sealed (fun x => { x with floorM := 3, runM := 5, floorC := 2, runC := 4, revoked := 1, revokeMask := 6, signSlot := 1 }) []
  { s with boot := { s.boot with started := true, codecOk := true } }

theorem test_witness_ACommitRaisesFloorsThatNeverFall :
    (1 : Word).bit 0 = true ∧ committed.boot.started = true ∧ committed.sec.revokeMask < 16 ∧ (mgr []).boot.started = false ∧
    committed.sec.floorM < committed.sec.runM ∧ bitN committed.sec.revokeMask 2 = true ∧ bitN committed.sec.revokeMask committed.sec.signSlot = true ∧
    (match exec (.secCommit 1) committed with | .next t => decide (t.sec.floorM = 5) | _ => false) = true := by decide +kernel

theorem test_witness_RequesterValues96To127SelectNoRequester :
    96 ≤ (mgr [(R.bpmRqSel, 0x6000)]).rf R.bpmRqSel 8 7 ∧ 96 ≤ (mgr [(R.bpmRqSel, 0x7F0F)]).rf R.bpmRqSel 8 7 ∧ 1048576 < (1048577 : Word).toNat ∧
    ((mgr [(R.bpmRqSel, 0x7F0F), (R.bpmRqQuota, 9)]).regRead R.bpmRqQuota).1 = 0 := by decide +kernel

/-- R139: the addresses of eight consecutive granules go to the channels 6, 7, 4, 5, 2, 3, 0, 1 where the higher fields are 2 and 4. -/
theorem test_channels : (List.range 8).map (fun i => chanOf ((4 * 64 + 2 * 8 + i) * 256)) = [6, 7, 4, 5, 2, 3, 0, 1] := by decide +kernel

end Sys2Proof.Tests
end

