-- ==== Sys2Proof/Proofs/BufferPool.lean ====
section
/-! PROOFS. The requester window of the buffer pool manager: what a read of BPM_RQ_QUOTA returns while BPM_RQ_SEL selects no
requester, and where that is not 0. -/

namespace Sys2Proof.Machine

theorem Dev.rqSel_eq_none_iff (s : Dev) : s.rqSel = none ↔ 96 ≤ s.rf R.bpmRqSel 8 7 := by
  simp [Dev.rqSel]

theorem Dev.regVal_bpmRqQuota_of_rqSel_none {s : Dev} (h : s.rqSel = none) : s.regVal R.bpmRqQuota = some 0 := by
  have hpage : s.regVal R.bpmRqQuota = s.bpmVal R.bpmRqQuota := rfl
  rw [hpage]
  simp [Dev.bpmVal, h, R.bpmRqQuota, R.bpmStat, R.bpmLedgerUsed]

theorem Dev.openReg_bpmRqQuota (s : Dev) : s.openReg R.bpmRqQuota = none := by
  simp [Dev.openReg, R.bpmRqQuota, R.mgmtSlot]

/-- The model lets R38 come before R463: a powered BPM under soft reset shows the reset value of BPM_RQ_QUOTA, whatever is selected. -/
theorem Dev.regRead_bpmRqQuota_of_rqSel_none {s : Dev} (h : s.rqSel = none) :
    (s.regRead R.bpmRqQuota).1 = if s.islOn 23 ∧ s.rb (0x10000 + R.ctl) 1 then 0x100000 else 0 := by
  have hpage : pageAt R.bpmRqQuota = some PageInfo.bpm2 := rfl
  have hrow : findReg PageInfo.bpm2.regs (R.bpmRqQuota % 0x1000) = some { off := 0x104, reset := 0x100000 } := rfl
  have hhdr : hdrPage R.bpmRqQuota = 0x10000 := rfl
  have hisl : PageInfo.bpm2.isl = 23 := rfl
  have hval := Dev.regVal_bpmRqQuota_of_rqSel_none h
  have hopen := s.openReg_bpmRqQuota
  unfold Dev.regRead
  rw [hpage, hhdr]
  simp only [hrow, hisl, hopen, hval]
  cases hon : s.islOn 23 with
  | false => simp [R.bpmRqQuota, R.stat]
  | true =>
    cases hrst : s.rb (0x10000 + R.ctl) 1 with
    | false => simp [R.bpmRqQuota, R.timeNowLo, R.ventLastAddrLo, R.dbgChal]
    | true => simp [R.bpmRqQuota, Word.ofNat]

/-- A unit whose BPM is powered and under soft reset, with requester value 96 in BPM_RQ_SEL. -/
def bpmSoftReset : State :=
  { State.reset with regs := [(R.pwrIslCtl 23, 0x19), (R.bpmRqSel, 0x6000), (0x10000 + R.ctl, 2)] }

theorem bpmSoftReset_rqSel : bpmSoftReset.rf R.bpmRqSel 8 7 = 96 := by decide +kernel

theorem bpmSoftReset_srst : bpmSoftReset.islOn 23 ∧ bpmSoftReset.rb (0x10000 + R.ctl) 1 := by decide +kernel

/-- Refutes O16: the statement is over all states, and while the BPM's soft reset runs (R38) a read of BPM_RQ_QUOTA returns the
reset value 0x100000 although BPM_RQ_SEL holds 96. (The model's own SRST clears BPM_RQ_SEL as it starts: the statement lacks
the hypothesis that no soft reset of the BPM runs.) -/
theorem not_requesterValues96To127SelectNoRequester : ¬ Obligations.RequesterValues96To127SelectNoRequester := by
  unfold Obligations.RequesterValues96To127SelectNoRequester
  intro h
  have hsel : 96 ≤ bpmSoftReset.rf R.bpmRqSel 8 7 := bpmSoftReset_rqSel.ge
  obtain ⟨-, -, hreads⟩ := (h bpmSoftReset 0).1 hsel
  have hzero : (bpmSoftReset.regRead R.bpmRqQuota).1 = 0 := hreads _ (by simp)
  have hread := Dev.regRead_bpmRqQuota_of_rqSel_none ((Dev.rqSel_eq_none_iff _).mpr hsel)
  rw [if_pos bpmSoftReset_srst, hzero] at hread
  exact absurd hread (by decide)

end Sys2Proof.Machine
end

