-- ==== Sys2Proof/Proofs/DramMap.lean ====
section
/-! PROOFS. The DRAM address map of R139 and R140: the channel of an address is its granule's place in a row of eight, XORed with
a number that the row alone fixes. XOR with a fixed number below 8 permutes the eight places and undoes itself, so the map
spreads each row over all channels and is one to one. -/

namespace Sys2Proof.Machine

/-- What R139 XORs a granule's place with in row `h` of eight granules: bits 5:3 and 8:6 of the granule number are the low two
fields of `h`. -/
def rowHash (h : Nat) : Nat := h % 8 ^^^ h / 8 % 8

theorem rowHash_lt (h : Nat) : rowHash h < 8 :=
  Nat.xor_lt_two_pow (n := 3) (Nat.mod_lt _ (by decide)) (Nat.mod_lt _ (by decide))

theorem chanOf_eq_xor_rowHash (a : Nat) : chanOf a = a / 256 % 8 ^^^ rowHash (a / 2048) := by
  have h8 : a / 256 / 8 = a / 2048 := Nat.div_div_eq_div_mul a 256 8
  have h64 : a / 256 / 64 = a / 2048 / 8 := by omega
  calc chanOf a = a / 256 % 8 ^^^ (a / 256 / 8 % 8 ^^^ a / 256 / 64 % 8) := rfl
    _ = a / 256 % 8 ^^^ rowHash (a / 2048) := by rw [h8, h64, rowHash]

theorem chanOf_lt (a : Nat) : chanOf a < 8 := by
  rw [chanOf_eq_xor_rowHash]
  exact Nat.xor_lt_two_pow (n := 3) (Nat.mod_lt _ (by decide)) (rowHash_lt _)

theorem bitN_mod_eight (v k : Nat) : bitN (v % 8) k = (decide (k < 3) && bitN v k) := Nat.testBit_mod_two_pow v 3 k

theorem bitN_xor (v w k : Nat) : bitN (v ^^^ w) k = (bitN v k ^^ bitN w k) := Nat.testBit_xor v w k

theorem bitN_div_two_pow (v n k : Nat) : bitN (v / 2 ^ n) k = bitN v (k + n) := Nat.testBit_div_two_pow v k

/-- R139: the channel is g[2:0] XOR g[5:3] XOR g[8:6] of the granule number g, bit by bit. -/
theorem bitN_chanOf (a k : Nat) :
    bitN (chanOf a) k = (decide (k < 3) && (bitN (a / 256) k ^^ bitN (a / 256) (k + 3) ^^ bitN (a / 256) (k + 6))) := by
  have hfields : chanOf a = a / 256 % 8 ^^^ (a / 256 / 2 ^ 3 % 8 ^^^ a / 256 / 2 ^ 6 % 8) := rfl
  rw [hfields]
  simp only [bitN_xor, bitN_mod_eight, bitN_div_two_pow]
  cases decide (k < 3) <;> simp

theorem chanOf_granule {b i : Nat} (hi : i < 8) : chanOf (b * 2048 + i * 256) = i ^^^ rowHash b := by
  have hplace : (b * 2048 + i * 256) / 256 % 8 = i := by omega
  have hrow : (b * 2048 + i * 256) / 2048 = b := by omega
  rw [chanOf_eq_xor_rowHash, hplace, hrow]

/-- Every channel has a granule in each row of eight: the place is the channel XORed with the row's number. -/
theorem exists_granule_of_chan (b : Nat) {k : Nat} (hk : k < 8) : ∃ i, i < 8 ∧ chanOf (b * 2048 + i * 256) = k := by
  have hi : k ^^^ rowHash b < 8 := Nat.xor_lt_two_pow (n := 3) hk (rowHash_lt b)
  exact ⟨k ^^^ rowHash b, hi, by rw [chanOf_granule hi, Nat.xor_xor_cancel_right]⟩

/-- Only the channel-local address that span and offset make up matters, and its row is that of the usable address. -/
theorem usableOf_span (ch c : Nat) :
    usableOf ch (c / 3840) (c % 3840) = (c / 256 * 8 + (ch ^^^ rowHash (c / 256))) * 256 + c % 256 := by
  have hc : c / 3840 * 3840 + c % 3840 = c := Nat.div_add_mod' c 3840
  simp only [usableOf, hc]
  rfl

theorem chanLocal_div_row (a : Nat) : chanLocal a / 256 = a / 2048 := by
  unfold chanLocal; omega

theorem chanLocal_mod_granule (a : Nat) : chanLocal a % 256 = a % 256 := by
  unfold chanLocal; omega

/-- The address map is one to one: `usableOf` undoes R139 and R140. -/
theorem usableOf_chanOf_chanLocal (a : Nat) :
    usableOf (chanOf a) (chanLocal a / 3840) (chanLocal a % 3840) = a := by
  have hplace : chanOf a ^^^ rowHash (a / 2048) = a / 256 % 8 := by
    rw [chanOf_eq_xor_rowHash, Nat.xor_xor_cancel_right]
  rw [usableOf_span, chanLocal_div_row, chanLocal_mod_granule, hplace]
  omega

theorem physOf_div_span (c : Nat) : physOf c / 4096 = c / 3840 := by
  unfold physOf; omega

theorem physOf_mod_span (c : Nat) : physOf c % 4096 = c % 3840 := by
  unfold physOf; omega

/-- Settles O8: both the spread over the channels and the inverse rest on XOR with the row's number undoing itself. -/
theorem everyUsableAddressHasOneChannelSpanAndOffset : Obligations.EveryUsableAddressHasOneChannelSpanAndOffset := by
  unfold Obligations.EveryUsableAddressHasOneChannelSpanAndOffset
  exact ⟨bitN_chanOf, fun _ => rfl, fun b _ hk => exists_granule_of_chan b hk, fun a =>
    ⟨usableOf_chanOf_chanLocal a, chanOf_lt a, physOf_div_span _, physOf_mod_span _⟩⟩

end Sys2Proof.Machine
end

