-- ==== Sys2Proof/Proofs/Fuses.lean ====
section
/-! PROOFS. The fuses of R404: the two floors and the revocation bits, and that the operations on the state leave them as they are. -/

namespace Sys2Proof.Machine

/-- What SEC_COMMIT changes for good (R404): the two floors and the revocation bits. -/
def Sec.fuses (c : Sec) : Nat × Nat × Nat := (c.floorM, c.floorC, c.revoked)

/-- The fuses of a unit. -/
def Dev.fuses (s : Dev) : Nat × Nat × Nat := s.sec.fuses

@[simp] theorem Dev.sec_fuses (s : Dev) : s.sec.fuses = s.fuses := (rfl)

@[simp] theorem Dev.fuses_mk (regs out draws shop staged lost ctxs hif bpm dram marks ras as asMarks boot chain glk0 glk1 sec vent pwr
    mctp mgmt slots tim eng) :
    (Dev.mk regs out draws shop staged lost ctxs hif bpm dram marks ras as asMarks boot chain glk0 glk1 sec vent pwr mctp mgmt
      slots tim eng).fuses = sec.fuses := (rfl)

/-- An update of the chain state leaves the fuses alone. -/
theorem Dev.withChain_fuses (s : Dev) (c : Chain) : Dev.fuses { s with chain := c } = s.fuses := (rfl)

/-- An update of the power state leaves the fuses alone. -/
theorem Dev.withPwr_fuses (s : Dev) (p : Pwr) : Dev.fuses { s with pwr := p } = s.fuses := (rfl)

/-- An update of the security state that leaves the fuses alone. -/
@[simp] theorem Sec.fuses_update (c : Sec) (lc : Lc) (sealPending kekFused kekLoaded keysLocked fumForce tap : Bool)
    (refuse serial owner dbgMax runM runC revokeMask signSlot evFused evLoaded audit dbgLevel unlocks ventBlocks : Nat)
    (unlocking : Option Nat) (nonce : List Nat) :
    Sec.fuses { c with
      lc, sealPending, refuse, serial, owner, dbgMax, runM, runC, revokeMask, signSlot, evFused, kekFused, evLoaded, kekLoaded,
      keysLocked, audit, unlocking, nonce, dbgLevel, fumForce, tap, unlocks, ventBlocks } = c.fuses := (rfl)

@[simp] theorem Sec.fuses_ite (p : Prop) {_ : Decidable p} (a b : Sec) : (if p then a else b).fuses = if p then a.fuses else b.fuses :=
  apply_ite Sec.fuses p a b

@[simp] theorem Dev.fuses_ite (p : Prop) {_ : Decidable p} (a b : Dev) :
    (if p then a else b).fuses = if p then a.fuses else b.fuses :=
  apply_ite Dev.fuses p a b

@[simp] theorem Dev.fuses_ite_snd {β : Type} (p : Prop) {_ : Decidable p} (a b : β × Dev) :
    (if p then a else b).2.fuses = if p then a.2.fuses else b.2.fuses :=
  apply_ite (fun d : β × Dev => d.2.fuses) p a b

@[simp] theorem Dev.fuses_ite_third {β γ : Type} (p : Prop) {_ : Decidable p} (a b : β × γ × Dev) :
    (if p then a else b).2.2.fuses = if p then a.2.2.fuses else b.2.2.fuses :=
  apply_ite (fun d : β × γ × Dev => d.2.2.fuses) p a b

@[simp] theorem Dev.fuses_ite_getD (p : Prop) {_ : Decidable p} (a b : Option Dev) (u : Dev) :
    ((if p then a else b).getD u).fuses = if p then (a.getD u).fuses else (b.getD u).fuses :=
  apply_ite (fun d : Option Dev => (d.getD u).fuses) p a b

@[simp] theorem Dev.fuses_getD_some (t u : Dev) : ((some t).getD u).fuses = t.fuses := (rfl)

@[simp] theorem Dev.fuses_getD_none (u : Dev) : ((none : Option Dev).getD u).fuses = u.fuses := (rfl)

/-- A fold that may fail keeps the fuses where it succeeds. -/
theorem foldlM_fuses {α ε : Type} {f : Dev → α → Except ε Dev} (h : ∀ s x t, f s x = .ok t → t.fuses = s.fuses) {l : List α}
    {s t : Dev}
    (hl : l.foldlM f s = .ok t) : t.fuses = s.fuses := by
  induction l generalizing s with
  | nil => cases hl; rfl
  | cons x l ih =>
    rw [List.foldlM_cons] at hl
    cases hx : f s x with
    | error e => rw [hx] at hl; cases hl
    | ok u => rw [hx] at hl; exact (ih hl).trans (h s x u hx)

@[simp] theorem foldl_fuses {α : Type} {f : Dev → α → Dev} (h : ∀ s x, (f s x).fuses = s.fuses) (l : List α) (s : Dev) :
    (l.foldl f s).fuses = s.fuses := by
  induction l generalizing s with
  | nil => rfl
  | cons x l ih => exact (ih (f s x)).trans (h s x)

@[simp] theorem foldl_snd_fuses {α β : Type} {f : β × Dev → α → β × Dev} (h : ∀ b x, (f b x).2.fuses = b.2.fuses)
    (l : List α) (b : β × Dev) : (l.foldl f b).2.fuses = b.2.fuses := by
  induction l generalizing b with
  | nil => rfl
  | cons x l ih => exact (ih (f b x)).trans (h b x)

@[simp] theorem foldl_third_fuses {α β γ : Type} {f : β × γ × Dev → α → β × γ × Dev}
    (h : ∀ b x, (f b x).2.2.fuses = b.2.2.fuses) (l : List α) (b : β × γ × Dev) : (l.foldl f b).2.2.fuses = b.2.2.fuses := by
  induction l generalizing b with
  | nil => rfl
  | cons x l ih => exact (ih (f b x)).trans (h b x)

variable (s : Dev)

@[simp] theorem Dev.setReg_fuses (off : Nat) (v : Word) : (s.setReg off v).fuses = s.fuses :=
  congrArg Sec.fuses (Dev.setReg_sec ..)

@[simp] theorem Dev.setRf_fuses (off lo len v : Nat) : (s.setRf off lo len v).fuses = s.fuses :=
  congrArg Sec.fuses (Dev.setRf_sec ..)

@[simp] theorem Dev.setRb_fuses (off i : Nat) (b : Bool) : (s.setRb off i b).fuses = s.fuses :=
  congrArg Sec.fuses (Dev.setRb_sec ..)

@[simp] theorem Dev.setRq_fuses (lo v : Nat) : (s.setRq lo v).fuses = s.fuses :=
  congrArg Sec.fuses (Dev.setRq_sec ..)

@[simp] theorem Dev.satInc_fuses (off d : Nat) : (s.satInc off d).fuses = s.fuses :=
  congrArg Sec.fuses (Dev.satInc_sec ..)

@[simp] theorem Dev.wrapInc_fuses (off d : Nat) : (s.wrapInc off d).fuses = s.fuses :=
  congrArg Sec.fuses (Dev.wrapInc_sec ..)

@[simp] theorem Dev.satFld_fuses (off lo len d : Nat) : (s.satFld off lo len d).fuses = s.fuses :=
  congrArg Sec.fuses (Dev.satFld_sec ..)

@[simp] theorem Dev.emit_fuses (o : Out) : (s.emit o).fuses = s.fuses :=
  congrArg Sec.fuses (Dev.emit_sec ..)

@[simp] theorem Dev.setCfg_fuses (fn d : Nat) (v : Word) : (s.setCfg fn d v).fuses = s.fuses :=
  congrArg Sec.fuses (Dev.setCfg_sec ..)

@[simp] theorem Dev.putBytes_fuses (a : Nat) (bs : List Byte) : (s.putBytes a bs).fuses = s.fuses :=
  congrArg Sec.fuses (Dev.putBytes_sec ..)

@[simp] theorem Dev.setMark_fuses (i : Nat) (m : SecMark) : (s.setMark i m).fuses = s.fuses :=
  congrArg Sec.fuses (Dev.setMark_sec ..)

@[simp] theorem Dev.asPutBytes_fuses (k o : Nat) (bs : List Byte) : (s.asPutBytes k o bs).fuses = s.fuses :=
  congrArg Sec.fuses (Dev.asPutBytes_sec ..)

@[simp] theorem Dev.setCtx_fuses (c : Nat) (x : Ctx) : (s.setCtx c x).fuses = s.fuses :=
  congrArg Sec.fuses (Dev.setCtx_sec ..)

@[simp] theorem Dev.setPool_fuses (p : Nat) (x : Pool) : (s.setPool p x).fuses = s.fuses :=
  congrArg Sec.fuses (Dev.setPool_sec ..)

@[simp] theorem Dev.setBuf_fuses (p i : Nat) (b : Buf) : (s.setBuf p i b).fuses = s.fuses :=
  congrArg Sec.fuses (Dev.setBuf_sec ..)

@[simp] theorem Dev.setStrm_fuses (k : Nat) (x : Option Stream) : (s.setStrm k x).fuses = s.fuses :=
  congrArg Sec.fuses (Dev.setStrm_sec ..)

@[simp] theorem Dev.setInRing_fuses (k : Nat) (x : Option Ring) : (s.setInRing k x).fuses = s.fuses :=
  congrArg Sec.fuses (Dev.setInRing_sec ..)

@[simp] theorem Dev.setJq_fuses (q : Nat) (x : JobQ) : (s.setJq q x).fuses = s.fuses :=
  congrArg Sec.fuses (Dev.setJq_sec ..)

@[simp] theorem Dev.setRoute_fuses (r : Nat) (x : Option Route) : (s.setRoute r x).fuses = s.fuses :=
  congrArg Sec.fuses (Dev.setRoute_sec ..)

@[simp] theorem Dev.setModel_fuses (m : Nat) (x : Option Model) : (s.setModel m x).fuses = s.fuses :=
  congrArg Sec.fuses (Dev.setModel_sec ..)

@[simp] theorem Dev.setCore_fuses (k : Nat) (x : Core) : (s.setCore k x).fuses = s.fuses :=
  congrArg Sec.fuses (Dev.setCore_sec ..)

@[simp] theorem Dev.setVdec_fuses (n : Nat) (x : Vdec) : (s.setVdec n x).fuses = s.fuses :=
  congrArg Sec.fuses (Dev.setVdec_sec ..)

@[simp] theorem Dev.setVenc_fuses (v : Venc) : (s.setVenc v).fuses = s.fuses :=
  congrArg Sec.fuses (Dev.setVenc_sec ..)

@[simp] theorem Dev.perf_fuses (page i d : Nat) : (s.perf page i d).fuses = s.fuses :=
  congrArg Sec.fuses (Dev.perf_sec ..)

@[simp] theorem Dev.irq_fuses (page i : Nat) : (s.irq page i).fuses = s.fuses :=
  congrArg Sec.fuses (Dev.irq_sec ..)

@[simp] theorem Dev.capture_fuses (page code ctx addr detail : Nat) : (s.capture page code ctx addr detail).fuses = s.fuses :=
  congrArg Sec.fuses (Dev.capture_sec ..)

@[simp] theorem Dev.fwSend_fuses (u : Nat) (m : FwMsg) : (s.fwSend u m).fuses = s.fuses :=
  congrArg Sec.fuses (Dev.fwSend_sec ..)

@[simp] theorem Dev.chainSend_fuses (f : Frame) : (s.chainSend f).fuses = s.fuses :=
  congrArg Sec.fuses (Dev.chainSend_sec ..)

@[simp] theorem Dev.tlp_fuses (o : Out) : (s.tlp o).fuses = s.fuses :=
  congrArg Sec.fuses (Dev.tlp_sec ..)

@[simp] theorem Dev.hostWr_fuses (fn addr : Nat) (data : List Byte) : (s.hostWr fn addr data).fuses = s.fuses :=
  congrArg Sec.fuses (Dev.hostWr_sec ..)

@[simp] theorem Dev.msix_fuses (fn vec : Nat) : (s.msix fn vec).fuses = s.fuses :=
  congrArg Sec.fuses (Dev.msix_sec ..)

@[simp] theorem Dev.ltrUpdate_fuses : (s.ltrUpdate).fuses = s.fuses :=
  congrArg Sec.fuses (Dev.ltrUpdate_sec ..)

@[simp] theorem Dev.alert_fuses (n : Nm) : (s.alert n).fuses = s.fuses :=
  congrArg Sec.fuses (Dev.alert_sec ..)

@[simp] theorem Dev.alertPin_fuses (b : Bool) : (s.alertPin b).fuses = s.fuses :=
  congrArg Sec.fuses (Dev.alertPin_sec ..)

@[simp] theorem Dev.raise_fuses (e : Event) : (s.raise e).fuses = s.fuses :=
  congrArg Sec.fuses (Dev.raise_sec ..)

@[simp] theorem Dev.ctxMsg_fuses (c : Nat) : (s.ctxMsg c).fuses = s.fuses :=
  congrArg Sec.fuses (Dev.ctxMsg_sec ..)

@[simp] theorem Dev.setGlk_fuses (p : Nat) (g : Glk) : (s.setGlk p g).fuses = s.fuses :=
  congrArg Sec.fuses (Dev.setGlk_sec ..)

end Sys2Proof.Machine
end

