-- ==== Sys2Proof/Proofs/FusesMemory.lean ====
section
/-! PROOFS. No operation of this part, memory, buffer pools, host interface and contexts, changes the fuses of R404. -/

namespace Sys2Proof.Machine

variable (s : Dev)

/-! ### Ops -/

@[simp] theorem Dev.maxReg_fuses (off v : Nat) : (s.maxReg off v).fuses = s.fuses := by
  simp [Dev.maxReg]

@[simp] theorem Dev.draw_fuses (tag : Nat) : (s.draw tag).2.fuses = s.fuses := by
  simp [Dev.draw]

@[simp] theorem Dev.drawBytes_fuses (tag n : Nat) : (s.drawBytes tag n).2.fuses = s.fuses := by
  simp [Dev.drawBytes]

@[simp] theorem Dev.busPosted_fuses (src : Src) : (s.busPosted src).fuses = s.fuses := by
  unfold Dev.busPosted
  split <;> simp

@[simp] theorem Dev.accErr_fuses (page : Nat) (k : AccErr) (addr : Nat) : (s.accErr page k addr).fuses = s.fuses := by
  simp [Dev.accErr]

@[simp] theorem Dev.wire_fuses (p : Nat) (f : Frame) : (s.wire p f).fuses = s.fuses := by
  simp [Dev.wire]

@[simp] theorem Dev.glkPump_fuses (p : Nat) (fuel : Nat) : (s.glkPump p fuel).fuses = s.fuses := by
  fun_induction Dev.glkPump s p fuel <;> simp_all

@[simp] theorem Dev.glkSend_fuses (p : Nat) (f : Frame) : (s.glkSend p f).fuses = s.fuses := by
  simp [Dev.glkSend]

@[simp] theorem Dev.issue_fuses (f : Frame) (what : TxFor) : (s.issue f what).fuses = s.fuses := by
  simp [Dev.issue]

@[simp] theorem Dev.respond_fuses (src vc txid status : Nat) (payload : List Byte) :
    (s.respond src vc txid status payload).fuses = s.fuses := by
  simp [Dev.respond]

@[simp] theorem Dev.msixOut_fuses (fn vec : Nat) : (s.msixOut fn vec).fuses = s.fuses := by
  simp [Dev.msixOut]

@[simp] theorem Dev.irqMsg_fuses (page : Nat) : (s.irqMsg page).fuses = s.fuses := by
  simp [Dev.irqMsg]

/-! ### Rings -/

@[simp] theorem Dev.moderate_fuses (c r : Nat) (urgent : Bool) : (s.moderate c r urgent).fuses = s.fuses := by
  simp [Dev.moderate]

@[simp] theorem Dev.ringPut_fuses (c r : Nat) (rec : Nat → List Word) (urgent : Bool) : (s.ringPut c r rec urgent).fuses = s.fuses := by
  simp [Dev.ringPut]

@[simp] theorem Dev.cplWrite_fuses (c : Nat) : (s.cplWrite c).fuses = s.fuses := by
  unfold Dev.cplWrite
  split <;> simp

@[simp] theorem Dev.finishRun_fuses (c seq : Nat) (st : Status) (result : Nat) : (s.finishRun c seq st result).fuses = s.fuses := by
  unfold Dev.finishRun
  dsimp only
  split <;> simp

@[simp] theorem Dev.eventPut_fuses (c : Nat) (e : Event) : (s.eventPut c e).fuses = s.fuses := by
  simp [Dev.eventPut]

@[simp] theorem Dev.stage_fuses (ring : Nat) (e : Event) : (s.stage ring e).fuses = s.fuses := by
  simp [Dev.stage]

@[simp] theorem Dev.toRing_fuses (ring : Nat) (e : Event) : (s.toRing ring e).fuses = s.fuses := by
  fun_cases Dev.toRing s ring e <;> simp

@[simp] theorem Dev.routeEvent_fuses (e : Event) : (s.routeEvent e).fuses = s.fuses := by
  simp [Dev.routeEvent]

@[simp] theorem Dev.stagedWrite_fuses (plane : Nat) : (s.stagedWrite plane).fuses = s.fuses := by
  fun_cases Dev.stagedWrite s plane <;> simp +zetaDelta

@[simp] theorem Dev.record_fuses (r : MRec) : (s.record r).fuses = s.fuses := by
  simp [Dev.record]

@[simp] theorem Dev.acceptRecord_fuses (c : Nat) : (s.acceptRecord c).fuses = s.fuses := by
  unfold Dev.acceptRecord
  split <;> simp

@[simp] theorem Dev.recordsDrop_fuses (c : Nat) : (s.recordsDrop c).fuses = s.fuses := by
  simp [Dev.recordsDrop]

/-! ### Link -/

@[simp] theorem Dev.takeAck_fuses (p ack : Nat) : (s.takeAck p ack).fuses = s.fuses := by
  simp [Dev.takeAck]

@[simp] theorem Dev.replay_fuses (p : Nat) : (s.replay p).fuses = s.fuses := by
  simp [Dev.replay]

@[simp] theorem Dev.replayEvent_fuses (p : Nat) : (s.replayEvent p).fuses = s.fuses := by
  simp [Dev.replayEvent]

@[simp] theorem Dev.linkDown_fuses (p reason : Nat) : (s.linkDown p reason).fuses = s.fuses := by
  simp [Dev.linkDown]

@[simp] theorem Dev.replayOrDown_fuses (p : Nat) : (s.replayOrDown p).fuses = s.fuses := by
  simp [Dev.replayOrDown]

@[simp] theorem Dev.dropFrame_fuses (p : Nat) : (s.dropFrame p).fuses = s.fuses := by
  simp [Dev.dropFrame]

@[simp] theorem Dev.sendIdle_fuses (p : Nat) (nak : Bool) : (s.sendIdle p nak).fuses = s.fuses := by
  simp [Dev.sendIdle]

@[simp] theorem Dev.rx_fuses (p : Nat) (f : Frame) : (s.rx p f).2.fuses = s.fuses := by
  simp [Dev.rx]

@[simp] theorem Dev.rxIdle_fuses (p : Nat) (f : Frame) : (s.rxIdle p f).fuses = s.fuses := by
  simp [Dev.rxIdle]

@[simp] theorem Dev.crcFail_fuses (p : Nat) (tagBad : Bool) : (s.crcFail p tagBad).fuses = s.fuses := by
  simp [Dev.crcFail]

@[simp] theorem Dev.replayTimeout_fuses (p : Nat) : (s.replayTimeout p).fuses = s.fuses := by
  simp [Dev.replayTimeout]

@[simp] theorem Dev.lockLoss_fuses (p : Nat) : (s.lockLoss p).fuses = s.fuses := by
  simp [Dev.lockLoss]

/-! ### Mem -/

@[simp] theorem Dev.takeInj_fuses (i : Nat) : (s.takeInj i).2.fuses = s.fuses := by
  simp [Dev.takeInj]

@[simp] theorem Dev.memZero_fuses (a n : Nat) : (s.memZero a n).fuses = s.fuses := by
  simp [Dev.memZero]

@[simp] theorem Dev.asZero_fuses (k o n : Nat) : (s.asZero k o n).fuses = s.fuses := by
  simp [Dev.asZero]

/-! ### Bpm -/

@[simp] theorem Dev.takeBuf_fuses (p rq c : Nat) : (s.takeBuf p rq c).2.fuses = s.fuses := by
  unfold Dev.takeBuf
  split <;> simp

@[simp] theorem Dev.ledgerAdd_fuses (k h : Nat) : (s.ledgerAdd k h).fuses = s.fuses := by
  simp [Dev.ledgerAdd]

@[simp] theorem Dev.ledgerSub_fuses (k h : Nat) : (s.ledgerSub k h).fuses = s.fuses := by
  simp [Dev.ledgerSub]

@[simp] theorem Dev.bpmEvent_fuses (nm : Nm) (c : Option Nat) (d0 d1 d2 : Nat) : (s.bpmEvent nm c d0 d1 d2).fuses = s.fuses := by
  simp [Dev.bpmEvent]

@[simp] theorem Dev.setTable_fuses (t : Tab Nat) : (s.setTable t).fuses = s.fuses := by
  simp [Dev.setTable]

@[simp] theorem Dev.tableAdd_fuses (page : Nat) : (s.tableAdd page).fuses = s.fuses := by
  simp [Dev.tableAdd]

@[simp] theorem Dev.checkShort_fuses (p : Nat) : (s.checkShort p).fuses = s.fuses := by
  simp [Dev.checkShort]

@[simp] theorem Dev.retireBuf_fuses (p i : Nat) : (s.retireBuf p i).fuses = s.fuses := by
  simp [Dev.retireBuf]

@[simp] theorem Dev.retirePage_fuses (page : Nat) : (s.retirePage page).fuses = s.fuses := by
  simp only [Dev.retirePage]
  refine foldl_fuses (fun s p => ?_) _ _
  split
  · refine foldl_fuses (fun s i => ?_) _ _
    split <;> simp
  · rfl

@[simp] theorem Dev.answer_fuses (tag : Nat) (st : Status) (v : Nat) : (s.answer tag st v).fuses = s.fuses := by
  simp [Dev.answer]

@[simp] theorem Dev.allocNow_fuses (p rq c : Nat) (slot : Option Nat) : (s.allocNow p rq c slot).2.2.fuses = s.fuses := by
  unfold Dev.allocNow
  split <;> simp

@[simp] theorem Dev.serve_fuses (p fuel : Nat) : (s.serve p fuel).fuses = s.fuses := by
  induction fuel generalizing s with
  | zero => simp [Dev.serve]
  | succ n ih =>
    simp only [Dev.serve]
    split
    · rfl
    · rw [ih]
      split <;> simp

@[simp] theorem Dev.serveAll_fuses (p : Nat) : (s.serveAll p).fuses = s.fuses := by
  simp [Dev.serveAll]

@[simp] theorem Dev.zeroBuf_fuses (p i : Nat) : (s.zeroBuf p i).fuses = s.fuses := by
  simp [Dev.zeroBuf]

@[simp] theorem Dev.freeBuf_fuses (p i : Nat) : (s.freeBuf p i).fuses = s.fuses := by
  simp [Dev.freeBuf]

@[simp] theorem Dev.refRefuse_fuses : (s.refRefuse).fuses = s.fuses := by
  simp [Dev.refRefuse]

@[simp] theorem Dev.bpmInc_fuses (c h : Nat) (slot : Option Nat) : (s.bpmInc c h slot).2.2.fuses = s.fuses := by
  unfold Dev.bpmInc
  split <;> simp

@[simp] theorem Dev.bpmDec_fuses (c h : Nat) (slot : Option Nat) : (s.bpmDec c h slot).2.2.fuses = s.fuses := by
  unfold Dev.bpmDec
  split
  · simp
  · split <;> simp

@[simp] theorem Dev.engRef_fuses (incr : Bool) (rq c h : Nat) : (s.engRef incr rq c h).2.2.fuses = s.fuses := by
  simp [Dev.engRef]

@[simp] theorem Dev.holdOp_fuses (o : HeldOp) : (s.holdOp o).fuses = s.fuses := by
  simp [Dev.holdOp]

@[simp] theorem Dev.ref_fuses (rq c h : Nat) : (s.ref rq c h).2.fuses = s.fuses := by
  simp [Dev.ref]

@[simp] theorem Dev.unref_fuses (rq c h : Nat) : (s.unref rq c h).fuses = s.fuses := by
  simp [Dev.unref]

@[simp] theorem Dev.allocate_fuses (p rq c : Nat) (slot : Option Nat) (blocking : Bool) (who : WaitFor) :
    (s.allocate p rq c slot blocking who).2.fuses = s.fuses := by
  simp only [Dev.allocate]
  repeat' split
  all_goals simp

@[simp] theorem Dev.cfgReject_fuses (p reason : Nat) : (s.cfgReject p reason).fuses = s.fuses := by
  simp [Dev.cfgReject]

@[simp] theorem Dev.cfgStore_fuses (p : Nat) (g : PoolCfg) (en : Bool) : (s.cfgStore p g en).fuses = s.fuses := by
  simp [Dev.cfgStore]

@[simp] theorem Dev.clearBufs_fuses (p : Nat) : (s.clearBufs p).fuses = s.fuses := by
  simp [Dev.clearBufs]

@[simp] theorem Dev.poolStart_fuses (p : Nat) : (s.poolStart p).fuses = s.fuses := by
  simp [Dev.poolStart]

@[simp] theorem Dev.setRqTab_fuses (p : Nat) (q m : Nat → Nat) : (s.setRqTab p q m).fuses = s.fuses := by
  simp [Dev.setRqTab]

@[simp] theorem Dev.configure_fuses (p : Nat) (g : PoolCfg) (en : Bool) (q m : Nat → Nat) :
    (s.configure p g en q m).2.fuses = s.fuses := by
  simp [Dev.configure]

/-! ### Ras -/

@[simp] theorem Dev.rasCounts_fuses : (s.rasCounts).fuses = s.fuses := by
  simp [Dev.rasCounts]

@[simp] theorem Dev.poisonFound_fuses (c : Option Nat) (h a : Nat) : (s.poisonFound c h a).fuses = s.fuses := by
  simp [Dev.poisonFound]

@[simp] theorem Dev.tableQuiet_fuses (page : Nat) : (s.tableQuiet page).2.fuses = s.fuses := by
  simp [Dev.tableQuiet]

@[simp] theorem Dev.rasAct_fuses (a : Nat) : (s.rasAct a).fuses = s.fuses := by
  simp only [Dev.rasAct]
  repeat' split
  all_goals simp

@[simp] theorem Dev.rasLookup_fuses (a : Nat) (scrub : Bool) : (s.rasLookup a scrub).fuses = s.fuses := by
  simp [Dev.rasLookup]

@[simp] theorem Dev.ue_fuses (i c : Nat) (scrub : Bool) : (s.ue i c scrub).fuses = s.fuses := by
  simp [Dev.ue]

@[simp] theorem Dev.ce_fuses (k : Nat) : (s.ce k).fuses = s.fuses := by
  simp [Dev.ce]

@[simp] theorem Dev.secRd_fuses (i c : Nat) : (s.secRd i c).2.fuses = s.fuses := by
  unfold Dev.secRd
  dsimp only
  split <;> simp

@[simp] theorem Dev.memRd_fuses (c a n : Nat) : (s.memRd c a n).2.2.fuses = s.fuses := by
  simp [Dev.memRd]

@[simp] theorem Dev.secWr_fuses (i c : Nat) (whole poisoned : Bool) : (s.secWr i c whole poisoned).fuses = s.fuses := by
  simp only [Dev.secWr]
  repeat' split
  all_goals simp

@[simp] theorem Dev.memWr_fuses (c a : Nat) (bs : List Byte) (poisoned : Bool) : (s.memWr c a bs poisoned).fuses = s.fuses := by
  simp [Dev.memWr]

@[simp] theorem Dev.hardCe_fuses (a : Nat) : (s.hardCe a).fuses = s.fuses := by
  fun_cases Dev.hardCe s a <;> simp

@[simp] theorem Dev.pendingCe_fuses (a : Nat) : (s.pendingCe a).fuses = s.fuses := by
  unfold Dev.pendingCe
  split <;> simp

@[simp] theorem Dev.scrubNext_fuses : (s.scrubNext).fuses = s.fuses := by
  simp [Dev.scrubNext]

@[simp] theorem Dev.scrubBehind_fuses : (s.scrubBehind).fuses = s.fuses := by
  fun_cases Dev.scrubBehind s
  simp

@[simp] theorem Dev.scrub_fuses : (s.scrub).fuses = s.fuses := by
  simp only [Dev.scrub]
  generalize usableOf (s.rf R.rasScrubPos 0 3) (s.rf R.rasScrubPos 3 29) (s.ras.pos * 32) = a
  split <;> split <;> simp

@[simp] theorem Dev.rasRetireWrite_fuses (src : Src) (v : Word) : (s.rasRetireWrite src v).fuses = s.fuses := by
  simp [Dev.rasRetireWrite]

@[simp] theorem Dev.rasInjWrite_fuses (v : Word) : (s.rasInjWrite v).fuses = s.fuses := by
  simp [Dev.rasInjWrite]

/-! ### Hif -/

@[simp] theorem Dev.tagStat_fuses : (s.tagStat).fuses = s.fuses := by
  fun_cases Dev.tagStat s
  simp

@[simp] theorem Dev.readIssue_fuses (r : HRead) : (s.readIssue r).fuses = s.fuses := by
  unfold Dev.readIssue
  split <;> simp

@[simp] theorem Dev.hostRd_fuses (r : HRead) : (s.hostRd r).fuses = s.fuses := by
  simp [Dev.hostRd]

@[simp] theorem Dev.hifRelease_fuses (fn : Nat) : (s.hifRelease fn).fuses = s.fuses := by
  simp only [Dev.hifRelease]
  split
  · rfl
  · refine (foldl_fuses (fun s o => ?_) _ _).trans (by simp)
    split <;> simp

@[simp] theorem Dev.tagWake_fuses : (s.tagWake).fuses = s.fuses := by
  unfold Dev.tagWake
  split <;> simp

@[simp] theorem Dev.aerAdvisory_fuses (e : Aer) : (s.aerAdvisory e).fuses = s.fuses := by
  simp [Dev.aerAdvisory]

@[simp] theorem Dev.aerLog_fuses (e : Aer) : (s.aerLog e).fuses = s.fuses := by
  simp [Dev.aerLog]

@[simp] theorem Dev.dropReads_fuses (c : Nat) : (s.dropReads c).fuses = s.fuses := by
  simp [Dev.dropReads]

@[simp] theorem Dev.giveSlot_fuses (c : Nat) : (s.giveSlot c).2.fuses = s.fuses := by
  fun_cases Dev.giveSlot s c <;> simp

/-! ### Drop -/

@[simp] theorem Dev.setClipReq_fuses (n : Nat) (f : ClipReq → ClipReq) : (s.setClipReq n f).fuses = s.fuses := by
  simp [Dev.setClipReq]

@[simp] theorem Dev.setEnt_fuses (e : Nat) (x : Ent) : (s.setEnt e x).fuses = s.fuses := by
  simp [Dev.setEnt]

@[simp] theorem Dev.disarm_fuses (e : Nat) : (s.disarm e).fuses = s.fuses := by
  simp [Dev.disarm]

@[simp] theorem Dev.dropEnts_fuses (c : Nat) : (s.dropEnts c).fuses = s.fuses := by
  simp [Dev.dropEnts]

@[simp] theorem Dev.newTag_fuses : (s.newTag).2.fuses = s.fuses := by
  simp [Dev.newTag]

@[simp] theorem Dev.takeAnswer_fuses (tag : Nat) : (s.takeAnswer tag).2.fuses = s.fuses := by
  unfold Dev.takeAnswer
  split <;> simp

@[simp] theorem Dev.cancelWant_fuses (rq c : Nat) (w : Want) : (s.cancelWant rq c w).fuses = s.fuses := by
  simp only [Dev.cancelWant]
  repeat' split
  all_goals simp

@[simp] theorem Dev.dropXfer_fuses (r : Ring) : (s.dropXfer r).fuses = s.fuses := by
  unfold Dev.dropXfer
  split <;> simp

@[simp] theorem Dev.unref0_fuses (rq c h : Nat) : (s.unref0 rq c h).fuses = s.fuses := by
  simp [Dev.unref0]

@[simp] theorem Dev.dropAu_fuses (x : Stream) (a : Au) : (s.dropAu x a).fuses = s.fuses := by
  simp [Dev.dropAu]

@[simp] theorem Dev.dropDpb_fuses (x : Stream) (d : DpbPic) : (s.dropDpb x d).fuses = s.fuses := by
  simp [Dev.dropDpb]

@[simp] theorem Dev.dropPic_fuses (c : Nat) (p : Pic) : (s.dropPic c p).fuses = s.fuses := by
  simp [Dev.dropPic]

@[simp] theorem Dev.vdecCount_fuses (n : Nat) : (s.vdecCount n).fuses = s.fuses := by
  simp [Dev.vdecCount]

@[simp] theorem Dev.clipsShort_fuses (k : Nat) : (s.clipsShort k).fuses = s.fuses := by
  simp [Dev.clipsShort]

@[simp] theorem Dev.endStream_fuses (k : Nat) : (s.endStream k).fuses = s.fuses := by
  unfold Dev.endStream
  split
  · simp
  · split <;> simp

@[simp] theorem Dev.stopDecode_fuses (n : Nat) : (s.stopDecode n).fuses = s.fuses := by
  simp only [Dev.stopDecode]
  repeat' split
  all_goals simp

@[simp] theorem Dev.dropStreams_fuses (c : Nat) : (s.dropStreams c).fuses = s.fuses := by
  refine (foldl_fuses (fun s x => ?_) _ _).trans ((foldl_fuses (fun s x => by simp) _ _).trans (foldl_fuses (fun s n => ?_) _ _))
  · simp only
    split <;> simp
  · split <;> simp

@[simp] theorem Dev.dropJob_fuses (q : Nat) (j : Job) : (s.dropJob q j).fuses = s.fuses := by
  simp [Dev.dropJob]

@[simp] theorem Dev.jqStat_fuses (q : Nat) : (s.jqStat q).fuses = s.fuses := by
  unfold Dev.jqStat
  dsimp only
  split <;> simp

@[simp] theorem Dev.dropJpeg_fuses (c : Nat) : (s.dropJpeg c).fuses = s.fuses := by
  simp [Dev.dropJpeg]

@[simp] theorem Dev.dropJobs_fuses (q c : Nat) : (s.dropJobs q c).fuses = s.fuses := by
  simp [Dev.dropJobs]

@[simp] theorem Dev.dropRouteOn_fuses (k r : Nat) : (s.dropRouteOn k r).fuses = s.fuses := by
  simp [Dev.dropRouteOn]

@[simp] theorem Dev.zeroWindow_fuses (k c : Nat) : (s.zeroWindow k c).fuses = s.fuses := by
  simp [Dev.zeroWindow]

@[simp] theorem Dev.leaveCore_fuses (k r c : Nat) : (s.leaveCore k r c).fuses = s.fuses := by
  simp [Dev.leaveCore]

@[simp] theorem Dev.dropSeat_fuses (c : Nat) (e : Seat) : (s.dropSeat c e).fuses = s.fuses := by
  simp [Dev.dropSeat]

@[simp] theorem Dev.dropSeats_fuses (x : Route) : (s.dropSeats x).fuses = s.fuses := by
  simp [Dev.dropSeats]

@[simp] theorem Dev.dropRoutes_fuses (c : Nat) : (s.dropRoutes c).fuses = s.fuses := by
  unfold Dev.dropRoutes
  extract_lets mine s1 s2 s3
  have h1 : s1.fuses = s.fuses := by
    refine foldl_fuses (fun s x => ?_) _ _
    split <;> simp
  have h2 : s2.fuses = s1.fuses := by simp [s2]
  have h3 : s3.fuses = s2.fuses := by simp [s3]
  exact h3.trans (h2.trans h1)

@[simp] theorem Dev.dropClip_fuses (q : Clip) : (s.dropClip q).fuses = s.fuses := by
  simp [Dev.dropClip]

@[simp] theorem Dev.vencStat_fuses : (s.vencStat).fuses = s.fuses := by
  unfold Dev.vencStat
  dsimp only
  split <;> simp

@[simp] theorem Dev.dropClips_fuses (c : Nat) : (s.dropClips c).fuses = s.fuses := by
  simp [Dev.dropClips]

@[simp] theorem Dev.dropEngines_fuses (c : Nat) : (s.dropEngines c).fuses = s.fuses := by
  simp [Dev.dropEngines]

/-! ### Teardown -/

@[simp] theorem Dev.decBy_fuses (h n : Nat) : (s.decBy h n).fuses = s.fuses := by
  simp [Dev.decBy]

@[simp] theorem Dev.bpmRelease_fuses (c k : Nat) : (s.bpmRelease c k).fuses = s.fuses := by
  simp only [Dev.bpmRelease, Dev.fuses_mk, Dev.sec_fuses]
  rw [foldl_fuses (by simp)]
  simp only [Dev.fuses_mk, Dev.sec_fuses]
  refine (foldl_fuses (fun s w => ?_) _ _).trans (by simp)
  split <;> simp

@[simp] theorem Dev.dropWork_fuses (c : Nat) : (s.dropWork c).fuses = s.fuses := by
  unfold Dev.dropWork
  dsimp only
  split <;> simp

@[simp] theorem Dev.ctxFault_fuses (c : Nat) (st : Status) (seq d2 core : Nat) : (s.ctxFault c st seq d2 core).fuses = s.fuses := by
  simp [Dev.ctxFault]

@[simp] theorem Dev.endCmd_fuses (c seq : Nat) (st : Status) (result d2 : Nat) : (s.endCmd c seq st result d2).fuses = s.fuses := by
  simp [Dev.endCmd]

/-! ### Ctx -/

@[simp] theorem Dev.sqGot_fuses (c : Nat) (ws : List Word) : (s.sqGot c ws).fuses = s.fuses := by
  simp [Dev.sqGot]

@[simp] theorem Dev.sqDrain_fuses (c fuel : Nat) : (s.sqDrain c fuel).fuses = s.fuses := by
  fun_induction Dev.sqDrain s c fuel <;> simp_all

@[simp] theorem Dev.fetchSq_fuses (c fuel : Nat) : (s.fetchSq c fuel).fuses = s.fuses := by
  induction fuel generalizing s with
  | zero => simp [Dev.fetchSq]
  | succ n ih =>
    simp only [Dev.fetchSq]
    repeat' split
    all_goals simp [ih]

@[simp] theorem Dev.finAdd_fuses (c : Nat) (x : Cpl) : (s.finAdd c x).fuses = s.fuses := by
  simp [Dev.finAdd]

@[simp] theorem Dev.settle_fuses (c fuel : Nat) : (s.settle c fuel).fuses = s.fuses := by
  fun_induction Dev.settle s c fuel <;> simp_all +zetaDelta

@[simp] theorem Dev.kick_fuses (c : Nat) : (s.kick c).fuses = s.fuses := by
  simp [Dev.kick]

theorem Dev.startCmd_fuses {s : Dev} {c op : Nat} {w : List Word} {t : Dev} (h : s.startCmd c op = some (w, t)) : t.fuses = s.fuses := by
  simp only [Dev.startCmd] at h
  split at h
  · cases h
  · simp only [Option.ite_none_right_eq_some, Option.some.injEq, Prod.mk.injEq] at h
    obtain ⟨-, -, rfl⟩ := h
    simp

@[simp] theorem Dev.hostCmd_fuses (c op : Nat) {f : List Word → Dev → Dev} (hf : ∀ w t, (f w t).fuses = t.fuses) :
    (s.hostCmd c op f).fuses = s.fuses := by
  unfold Dev.hostCmd
  split
  · rfl
  · rename_i w t h
    simp [hf, Dev.startCmd_fuses h]

@[simp] theorem Dev.onUnit_fuses (c u : Nat) (w : List Word) {f : Dev → Dev} (hf : ∀ t, (f t).fuses = t.fuses) :
    (s.onUnit c u w f).fuses = s.fuses := by
  simp [Dev.onUnit, hf]

@[simp] theorem Dev.modTimeout_fuses (c r : Nat) : (s.modTimeout c r).fuses = s.fuses := by
  simp [Dev.modTimeout]

@[simp] theorem Dev.dbAct_fuses (c i v : Nat) : (s.dbAct c i v).fuses = s.fuses := by
  simp [Dev.dbAct]

@[simp] theorem Dev.dbValue_fuses (c i v : Nat) : (s.dbValue c i v).fuses = s.fuses := by
  simp [Dev.dbValue]

@[simp] theorem Dev.doorbell_fuses (src : Src) (c i : Nat) (v : Word) (be : Nat) : (s.doorbell src c i v be).fuses = s.fuses := by
  simp [Dev.doorbell]

@[simp] theorem Dev.schedResetEnd_fuses : (s.schedResetEnd).fuses = s.fuses := by
  unfold Dev.schedResetEnd
  extract_lets l s1 hif s2 s3
  have h1 : s1.fuses = s.fuses := by simp [s1]
  have h3 : s3.fuses = s2.fuses := by simp [s3]
  rw [foldl_fuses (by simp), h3]
  exact h1

@[simp] theorem Dev.emptyWindow_fuses (c : Nat) : (s.emptyWindow c).fuses = s.fuses := by
  simp [Dev.emptyWindow]

@[simp] theorem Dev.ctxCtlWrite_fuses (src : Src) (c : Nat) (v : Word) : (s.ctxCtlWrite src c v).fuses = s.fuses := by
  simp [Dev.ctxCtlWrite]

@[simp] theorem Dev.devEventsWrite_fuses (src : Src) (c : Nat) (v : Word) : (s.devEventsWrite src c v).fuses = s.fuses := by
  simp [Dev.devEventsWrite]

@[simp] theorem Dev.ctxClear_fuses (c : Nat) : (s.ctxClear c).fuses = s.fuses := by
  simp [Dev.ctxClear]

@[simp] theorem Dev.tornDown_fuses (t : Tear) : (s.tornDown t).fuses = s.fuses := by
  simp [Dev.tornDown]

@[simp] theorem Dev.ctxResetDone_fuses (c : Nat) : (s.ctxResetDone c).fuses = s.fuses := by
  unfold Dev.ctxResetDone
  split
  · simp
  · split <;> simp

@[simp] theorem Dev.teardownDone_fuses (c : Nat) : (s.teardownDone c).fuses = s.fuses := by
  fun_cases Dev.teardownDone s c <;> simp

/-! ### BpmCmd -/

@[simp] theorem Dev.withSlot_fuses (c seq : Nat) {f : Nat → Dev → Dev} (hf : ∀ k t, (f k t).fuses = t.fuses) :
    (s.withSlot c seq f).fuses = s.fuses := by
  have h := s.giveSlot_fuses c
  unfold Dev.withSlot
  split <;> simp_all only [Dev.endCmd_fuses]

@[simp] theorem Dev.bufAlloc_fuses (c : Nat) (w : List Word) : (s.bufAlloc c w).fuses = s.fuses := by
  unfold Dev.bufAlloc
  dsimp only
  split
  · simp
  · refine s.withSlot_fuses c _ fun k t => ?_
    have h := t.allocate_fuses (hF w 8 4 4) k c (some k) ((hW w 8).bit 8) (.cmd c (hSeq w))
    split <;> simp_all only [Dev.endCmd_fuses]

@[simp] theorem Dev.bufRefOp_fuses (c : Nat) (w : List Word) (incr : Bool) : (s.bufRefOp c w incr).fuses = s.fuses := by
  simp [Dev.bufRefOp]

@[simp] theorem Dev.poolConfigWith_fuses (c : Nat) (w : List Word) (tab : Option (List Byte)) :
    (s.poolConfigWith c w tab).fuses = s.fuses := by
  simp [Dev.poolConfigWith]

@[simp] theorem Dev.poolConfig_fuses (c : Nat) (w : List Word) : (s.poolConfig c w).fuses = s.fuses := by
  unfold Dev.poolConfig
  generalize (768 : Nat) = n
  refine s.withSlot_fuses c _ fun _ t => ?_
  dsimp only
  repeat' split
  all_goals simp

@[simp] theorem Dev.dramOperand_fuses (c : Nat) (w : List Word) (a : HAddr) (n : Nat) {f : Dev → Dev}
    (hf : ∀ t, (f t).fuses = t.fuses) : (s.dramOperand c w a n f).fuses = s.fuses := by
  unfold Dev.dramOperand
  dsimp only
  repeat' split
  all_goals simp [hf]

@[simp] theorem Dev.poolConfigRun_fuses (c : Nat) (w : List Word) : (s.poolConfigRun c w).fuses = s.fuses := by
  simp [Dev.poolConfigRun]

@[simp] theorem Dev.poolEnable_fuses (p : Nat) (v : Word) : (s.poolEnable p v).fuses = s.fuses := by
  simp [Dev.poolEnable]

@[simp] theorem Dev.rqWrite_fuses (p r q m : Nat) : (s.rqWrite p r q m).fuses = s.fuses := by
  simp [Dev.rqWrite]

@[simp] theorem Dev.rqQuotaWrite_fuses (v : Word) : (s.rqQuotaWrite v).fuses = s.fuses := by
  unfold Dev.rqQuotaWrite
  split <;> simp

@[simp] theorem Dev.rqReserveWrite_fuses (v : Word) : (s.rqReserveWrite v).fuses = s.fuses := by
  unfold Dev.rqReserveWrite
  split <;> simp

@[simp] theorem Dev.ownLookup_fuses (v : Word) : (s.ownLookup v).fuses = s.fuses := by
  unfold Dev.ownLookup
  dsimp only
  split <;> simp

@[simp] theorem Dev.waitTimeout_fuses (id : Nat) : (s.waitTimeout id).fuses = s.fuses := by
  unfold Dev.waitTimeout
  split
  · simp
  · split <;> simp

@[simp] theorem Dev.engAlloc_fuses (rq c p : Nat) (blocking : Bool) (tag : Nat) : (s.engAlloc rq c p blocking tag).fuses = s.fuses := by
  have h := s.allocate_fuses p rq c none blocking (.eng tag)
  unfold Dev.engAlloc
  split <;> simp_all only [Dev.answer_fuses]

@[simp] theorem Dev.engOp_fuses (incr : Bool) (rq c h tag : Nat) : (s.engOp incr rq c h tag).fuses = s.fuses := by
  simp [Dev.engOp]

@[simp] theorem Dev.applyHeld_fuses (o : HeldOp) : (s.applyHeld o).fuses = s.fuses := by
  simp only [Dev.applyHeld]
  repeat' split
  all_goals simp

@[simp] theorem Dev.bpmReturn_fuses : (s.bpmReturn).fuses = s.fuses := by
  simp [Dev.bpmReturn]

@[simp] theorem Dev.dropLines_fuses (f : Line → Bool) : (s.dropLines f).fuses = s.fuses := by
  simp [Dev.dropLines]

@[simp] theorem Dev.pfCtlWrite_fuses (c : Nat) (v : Word) : (s.pfCtlWrite c v).fuses = s.fuses := by
  simp [Dev.pfCtlWrite]

end Sys2Proof.Machine
end

