-- ==== Sys2Proof/Proofs/FusesUnit.lean ====
section
/-! PROOFS. No operation of this part, time, Vent, PCIe, resets and boot, changes the fuses of R404. -/

namespace Sys2Proof.Machine

variable (s : Dev)

/-! ### Tim -/

@[simp] theorem Dev.timeLock_fuses (on : Bool) (reason : Nat) : (s.timeLock on reason).fuses = s.fuses := by
  simp [Dev.timeLock]

@[simp] theorem Dev.measure_fuses (e : Int) (lock lose k : Nat) : (s.measure e lock lose k).fuses = s.fuses := by
  simp only [Dev.measure]
  repeat' split
  all_goals simp

@[simp] theorem Dev.lateRaise_fuses (e : Nat) : (s.lateRaise e).fuses = s.fuses := by
  unfold Dev.lateRaise
  dsimp only
  split <;> simp

@[simp] theorem Dev.lateReport_fuses (e n t : Nat) : (s.lateReport e n t).fuses = s.fuses := by
  simp [Dev.lateReport]

@[simp] theorem Dev.lateFault_fuses (e : Nat) : (s.lateFault e).fuses = s.fuses := by
  simp [Dev.lateFault]

@[simp] theorem Dev.entDone_fuses (e : Nat) : (s.entDone e).fuses = s.fuses := by
  simp [Dev.entDone]

@[simp] theorem Dev.pushRefused_fuses (e t : Nat) : (s.pushRefused e t).fuses = s.fuses := by
  unfold Dev.pushRefused
  dsimp only
  split <;> simp

@[simp] theorem Dev.pushTaken_fuses (e : Nat) : (s.pushTaken e).fuses = s.fuses := by
  unfold Dev.pushTaken
  dsimp only
  split <;> simp

@[simp] theorem Dev.syncPin_fuses : (s.syncPin).fuses = s.fuses := by
  simp [Dev.syncPin]

/-! ### Vent -/

@[simp] theorem Dev.ventCapture_fuses (p : VentPath) (a cls rq req : Nat) : (s.ventCapture p a cls rq req).fuses = s.fuses := by
  simp [Dev.ventCapture]

@[simp] theorem Dev.ventEvent_fuses (p : VentPath) : (s.ventEvent p).fuses = s.fuses := by
  simp [Dev.ventEvent]

@[simp] theorem Dev.ventBlock_fuses (p : VentPath) (a cls : Nat) (c : Option Nat) (rq req : Nat) :
    (s.ventBlock p a cls c rq req).fuses = s.fuses := by
  simp [Dev.ventBlock]

@[simp] theorem Dev.ventWould_fuses : (s.ventWould).fuses = s.fuses := by
  simp [Dev.ventWould]

@[simp] theorem Dev.hifMay_fuses (cls a c rq : Nat) (clip : Bool) : (s.hifMay cls a c rq clip).2.fuses = s.fuses := by
  simp [Dev.hifMay]

@[simp] theorem Dev.chainMay_fuses (cls a u c rq : Nat) : (s.chainMay cls a u c rq).2.fuses = s.fuses := by
  simp [Dev.chainMay]

@[simp] theorem Dev.ventLastRead_fuses : (s.ventLastRead).2.fuses = s.fuses := by
  simp [Dev.ventLastRead]

/-! ### Pcie -/

@[simp] theorem Dev.ecrcDrop_fuses : (s.ecrcDrop).fuses = s.fuses := by
  simp [Dev.ecrcDrop]

@[simp] theorem Dev.urLog_fuses : (s.urLog).fuses = s.fuses := by
  simp [Dev.urLog]

@[simp] theorem Dev.bar2Write_fuses (fn off : Nat) (data : List Byte) (poisoned ecrcBad : Bool) :
    (s.bar2Write fn off data poisoned ecrcBad).fuses = s.fuses := by
  fun_cases Dev.bar2Write s fn off data poisoned ecrcBad <;> simp +zetaDelta

@[simp] theorem Dev.setLines_fuses (req : Nat) (l : List Line) : (s.setLines req l).fuses = s.fuses := by
  simp [Dev.setLines]

@[simp] theorem Dev.acquire_fuses (req : Nat) : (s.acquire req).fuses = s.fuses := by
  simp [Dev.acquire]

@[simp] theorem Dev.fillLines_fuses (req fn a len ctx : Nat) : (s.fillLines req fn a len ctx).fuses = s.fuses := by
  simp [Dev.fillLines]

@[simp] theorem Dev.bar2Fetch_fuses (a len : Nat) (blocked : Nat → Bool) : (s.bar2Fetch a len blocked).fuses = s.fuses := by
  simp [Dev.bar2Fetch]

@[simp] theorem Dev.bar2Read_fuses (req fn off len : Nat) (ecrcBad : Bool) : (s.bar2Read req fn off len ecrcBad).fuses = s.fuses := by
  simp only [Dev.bar2Read]
  repeat' split
  all_goals simp

@[simp] theorem Dev.lineExpiry_fuses (req fn line : Nat) : (s.lineExpiry req fn line).fuses = s.fuses := by
  simp [Dev.lineExpiry]

@[simp] theorem Dev.failFront_fuses (c : Nat) (st : Status) (d2 : Nat) : (s.failFront c st d2).fuses = s.fuses := by
  unfold Dev.failFront
  dsimp only
  split <;> simp

@[simp] theorem Dev.readDone_fuses (r : HRead) (data : List Byte) (bad : Bool) : (s.readDone r data bad).fuses = s.fuses := by
  unfold Dev.readDone
  dsimp only
  split <;> simp

@[simp] theorem Dev.completion_fuses (tag : Nat) (data : List Byte) (last poisoned ecrcBad : Bool) :
    (s.completion tag data last poisoned ecrcBad).fuses = s.fuses := by
  simp only [Dev.completion]
  repeat' split
  all_goals simp

@[simp] theorem Dev.readTimeout_fuses (tag : Nat) : (s.readTimeout tag).fuses = s.fuses := by
  unfold Dev.readTimeout
  split
  · simp
  · split <;> simp

@[simp] theorem Dev.quarEnd_fuses (tag : Nat) : (s.quarEnd tag).fuses = s.fuses := by
  simp [Dev.quarEnd]

@[simp] theorem Dev.ptmReq_fuses : (s.ptmReq).fuses = s.fuses := by
  simp [Dev.ptmReq]

@[simp] theorem Dev.aspmL1_fuses : (s.aspmL1).fuses = s.fuses := by
  simp [Dev.aspmL1]

/-! ### Reset -/

@[simp] theorem Dev.resetRegs_fuses (code : Nat) : (s.resetRegs code).fuses = s.fuses := by
  simp [Dev.resetRegs]

@[simp] theorem Dev.resetCause_fuses (code : Nat) : (s.resetCause code).fuses = s.fuses := by
  simp [Dev.resetCause]

@[simp] theorem Dev.resetUnit_fuses (code : Nat) : (s.resetUnit code).fuses = s.fuses := by
  simp [Dev.resetUnit]

@[simp] theorem Dev.sendChainReset_fuses : (s.sendChainReset).fuses = s.fuses := by
  simp [Dev.sendChainReset]

@[simp] theorem Dev.mgrReset_fuses (code : Nat) : (s.mgrReset code).fuses = s.fuses := by
  simp [Dev.mgrReset]

@[simp] theorem Dev.chainReset_fuses : (s.chainReset).fuses = s.fuses := by
  simp [Dev.chainReset]

@[simp] theorem Dev.pfFlr_fuses : (s.pfFlr).fuses = s.fuses := by
  simp [Dev.pfFlr]

@[simp] theorem Dev.pfFlrDone_fuses : (s.pfFlrDone).fuses = s.fuses := by
  simp [Dev.pfFlrDone]

@[simp] theorem Dev.vfFlr_fuses (n : Nat) : (s.vfFlr n).fuses = s.fuses := by
  simp [Dev.vfFlr]

@[simp] theorem Dev.vfResetDone_fuses (n : Nat) : (s.vfResetDone n).fuses = s.fuses := by
  simp [Dev.vfResetDone]

/-! ### Freq -/

@[simp] theorem Dev.retune_fuses (i : Nat) : (s.retune i).fuses = s.fuses := by
  simp [Dev.retune]

@[simp] theorem Dev.retuneAll_fuses : (s.retuneAll).fuses = s.fuses := by
  simp [Dev.retuneAll]

@[simp] theorem Dev.relock_fuses (i : Nat) : (s.relock i).fuses = s.fuses := by
  simp [Dev.relock]

@[simp] theorem Dev.freqWrite_fuses (i : Nat) (v : Word) : (s.freqWrite i v).fuses = s.fuses := by
  simp [Dev.freqWrite]

@[simp] theorem Dev.pwrShow_fuses : (s.pwrShow).fuses = s.fuses := by
  simp [Dev.pwrShow]

/-! ### Boot -/

@[simp] theorem Dev.setBoot_fuses (n : Nat) : (s.setBoot n).fuses = s.fuses := by
  simp [Dev.setBoot]

@[simp] theorem Dev.glkTrain_fuses (p : Nat) : (s.glkTrain p).fuses = s.fuses := by
  simp [Dev.glkTrain]

@[simp] theorem Dev.checkReady_fuses : (s.checkReady).fuses = s.fuses := by
  simp [Dev.checkReady]

@[simp] theorem Dev.nextSlot_fuses : (s.nextSlot).fuses = s.fuses := by
  unfold Dev.nextSlot
  split <;> simp

@[simp] theorem Dev.startBoot_fuses : (s.startBoot).fuses = s.fuses := by
  simp [Dev.startBoot]

@[simp] theorem Dev.authFail_fuses (what slot reason : Nat) : (s.authFail what slot reason).fuses = s.fuses := by
  simp [Dev.authFail]

@[simp] theorem Dev.loadCodec_fuses (img : ImageCheck) (slot : Nat) : (s.loadCodec img slot).fuses = s.fuses := by
  simp [Dev.loadCodec]

@[simp] theorem Dev.runImage_fuses (img : ImageCheck) (slot : Nat) : (s.runImage img slot).fuses = s.fuses := by
  simp [Dev.runImage]

@[simp] theorem Dev.imageVerified_fuses (img : ImageCheck) : (s.imageVerified img).fuses = s.fuses := by
  unfold Dev.imageVerified
  split
  · split <;> simp
  · simp

@[simp] theorem Dev.slotTimeout_fuses : (s.slotTimeout).fuses = s.fuses := by
  unfold Dev.slotTimeout
  split <;> simp

@[simp] theorem Dev.training_fuses (ch rate cap ranks : Nat) (ok : Bool) : (s.training ch rate cap ranks ok).fuses = s.fuses := by
  simp [Dev.training]

@[simp] theorem Dev.zeroDone_fuses : (s.zeroDone).fuses = s.fuses := by
  simp [Dev.zeroDone]

@[simp] theorem Dev.powerOn_fuses : (s.powerOn).fuses = s.fuses := by
  simp [Dev.powerOn]

@[simp] theorem Dev.islandsOn_fuses : (s.islandsOn).fuses = s.fuses := by
  simp [Dev.islandsOn]

@[simp] theorem Dev.strapSample_fuses (straps : Word) : (s.strapSample straps).fuses = s.fuses := by
  simp only [Dev.strapSample]
  repeat' split
  all_goals simp

@[simp] theorem Dev.perstAssert_fuses : (s.perstAssert).fuses = s.fuses := by
  simp [Dev.perstAssert]

@[simp] theorem Dev.perstRelease_fuses : (s.perstRelease).fuses = s.fuses := by
  simp [Dev.perstRelease]

@[simp] theorem Dev.railLoss_fuses : (s.railLoss).fuses = s.fuses := by
  unfold Dev.railLoss
  split <;> simp

@[simp] theorem Dev.standbyLoss_fuses : (s.standbyLoss).fuses = s.fuses := by
  simp [Dev.standbyLoss]

@[simp] theorem Dev.unitSrst_fuses : (s.unitSrst).fuses = s.fuses := by
  simp [Dev.unitSrst]

end Sys2Proof.Machine
end

