-- ==== Sys2Proof/Proofs/FusesCores.lean ====
section
/-! PROOFS. No operation of this part, engines and cores, changes the fuses of R404. -/

namespace Sys2Proof.Machine

variable (s : Dev)

/-! ### Eng -/

@[simp] theorem Dev.isoHit_fuses : (s.isoHit).fuses = s.fuses := by
  simp [Dev.isoHit]

@[simp] theorem Dev.isoMark_fuses (hs : List Nat) : (s.isoMark hs).fuses = s.fuses := by
  simp [Dev.isoMark]

@[simp] theorem Dev.perfCycles_fuses (page i : Nat) : (s.perfCycles page i).fuses = s.fuses := by
  simp [Dev.perfCycles]

@[simp] theorem Dev.perfCatchUp_fuses (page : Nat) (l : List Nat) : (s.perfCatchUp page l).fuses = s.fuses := by
  simp [Dev.perfCatchUp]

@[simp] theorem Dev.maxCycles_fuses (off : Nat) : (s.maxCycles off).fuses = s.fuses := by
  simp [Dev.maxCycles]

@[simp] theorem Dev.poll_fuses (w : Want) : (s.poll w).2.2.fuses = s.fuses := by
  simp only [Dev.poll]
  repeat' split
  all_goals simp

@[simp] theorem Dev.want_fuses (rq c p : Nat) : (s.want rq c p).2.fuses = s.fuses := by
  simp [Dev.want]

@[simp] theorem Dev.bpmWarn_fuses (st : Status) (c pool rq : Nat) : (s.bpmWarn st c pool rq).fuses = s.fuses := by
  simp [Dev.bpmWarn]

@[simp] theorem Dev.putRows_fuses (c a pitch fmt : Nat) (rows : List (List Nat)) : (s.putRows c a pitch fmt rows).fuses = s.fuses := by
  simp [Dev.putRows]

@[simp] theorem Dev.putPic_fuses (c a fmt w h : Nat) (p : Planes) : (s.putPic c a fmt w h p).fuses = s.fuses := by
  simp [Dev.putPic]

@[simp] theorem Dev.drawRows_fuses (tag h w bits : Nat) : (s.drawRows tag h w bits).2.fuses = s.fuses := by
  simp [Dev.drawRows]

/-! ### Vdec -/

@[simp] theorem Dev.bsErr_fuses (n k c tag kind : Nat) : (s.bsErr n k c tag kind).fuses = s.fuses := by
  simp [Dev.bsErr]

@[simp] theorem Dev.modClips_fuses (p : Clip → Bool) (f : Clip → Clip) : (s.modClips p f).fuses = s.fuses := by
  simp [Dev.modClips]

@[simp] theorem Dev.clipFail_fuses (st : Status) : (s.clipFail st).fuses = s.fuses := by
  simp [Dev.clipFail]

@[simp] theorem Dev.clipOut_fuses (c : Nat) (p : Pic) : (s.clipOut c p).fuses = s.fuses := by
  unfold Dev.clipOut
  split <;> simp

@[simp] theorem Dev.askPic_fuses (k : Nat) : (s.askPic k).fuses = s.fuses := by
  unfold Dev.askPic
  split
  · simp
  · split <;> simp

@[simp] theorem Dev.discardAu_fuses (k : Nat) : (s.discardAu k).fuses = s.fuses := by
  unfold Dev.discardAu
  repeat' split
  all_goals simp

@[simp] theorem Dev.pollStream_fuses (k : Nat) : (s.pollStream k).fuses = s.fuses := by
  simp only [Dev.pollStream]
  repeat' split
  all_goals simp

@[simp] theorem Dev.trimRetain_fuses (k : Nat) : (s.trimRetain k).fuses = s.fuses := by
  unfold Dev.trimRetain
  split <;> simp

@[simp] theorem Dev.growClips_fuses (k : Nat) (a : Au) : (s.growClips k a).fuses = s.fuses := by
  simp only [Dev.growClips]
  refine foldl_fuses (fun s q => ?_) _ _
  repeat' split
  all_goals simp

@[simp] theorem Dev.appendAu_fuses (k : Nat) (a : Au) : (s.appendAu k a).fuses = s.fuses := by
  unfold Dev.appendAu
  split <;> simp

@[simp] theorem Dev.attachRing_fuses (c k unit base size : Nat) (w : List Word) :
    (s.attachRing c k unit base size w).fuses = s.fuses := by
  unfold Dev.attachRing
  dsimp only
  split <;> simp

@[simp] theorem Dev.attachHere_fuses (c : Nat) (w : List Word) : (s.attachHere c w).fuses = s.fuses := by
  refine Dev.withSlot_fuses s c _ fun _ t => ?_
  dsimp only
  repeat' split
  all_goals simp

@[simp] theorem Dev.streamAttach_fuses (c : Nat) (w : List Word) : (s.streamAttach c w).fuses = s.fuses := by
  simp [Dev.streamAttach]

@[simp] theorem Dev.detachHere_fuses (c : Nat) (w : List Word) : (s.detachHere c w).fuses = s.fuses := by
  unfold Dev.detachHere
  dsimp only
  split <;> simp

@[simp] theorem Dev.streamDetach_fuses (c : Nat) (w : List Word) : (s.streamDetach c w).fuses = s.fuses := by
  fun_cases Dev.streamDetach c w s <;> simp

@[simp] theorem Dev.inDbAct_fuses (c v : Nat) : (s.inDbAct c v).fuses = s.fuses := by
  unfold Dev.inDbAct
  dsimp only
  split <;> simp

@[simp] theorem Dev.inDb_fuses (src : Src) (c : Nat) (v : Word) (be : Nat) : (s.inDb src c v be).fuses = s.fuses := by
  simp [Dev.inDb]

@[simp] theorem Dev.consume_fuses (k : Nat) (r : Ring) (drop : Bool) : (s.consume k r drop).fuses = s.fuses := by
  simp [Dev.consume]

@[simp] theorem Dev.ingressErr_fuses (k : Nat) (r : Ring) (tag kind : Nat) : (s.ingressErr k r tag kind).fuses = s.fuses := by
  simp [Dev.ingressErr]

@[simp] theorem Dev.writeFrames_fuses (u addr c rq h tag : Nat) (bs : List Byte) :
    (s.writeFrames u addr c rq h tag bs).fuses = s.fuses := by
  simp [Dev.writeFrames]

@[simp] theorem Dev.ingressCopy_fuses (k : Nat) (r : Ring) (e : Entry) (h : Nat) : (s.ingressCopy k r e h).fuses = s.fuses := by
  simp [Dev.ingressCopy]

@[simp] theorem Dev.ingressAsk_fuses (k : Nat) (r : Ring) (e : Entry) : (s.ingressAsk k r e).fuses = s.fuses := by
  simp [Dev.ingressAsk]

@[simp] theorem Dev.ingressPoll_fuses (k : Nat) (r : Ring) : (s.ingressPoll k r).fuses = s.fuses := by
  simp only [Dev.ingressPoll]
  repeat' split
  all_goals simp

@[simp] theorem Dev.ingressCheck_fuses (k : Nat) (r : Ring) (bs : List Byte) (onePic start : Bool) :
    (s.ingressCheck k r bs onePic start).fuses = s.fuses := by
  simp only [Dev.ingressCheck]
  repeat' split
  all_goals simp

@[simp] theorem Dev.ingress_fuses (k : Nat) (onePic start : Bool) : (s.ingress k onePic start).fuses = s.fuses := by
  unfold Dev.ingress
  split <;> simp

@[simp] theorem Dev.takeSps_fuses (n k : Nat) (x : Stream) (a : Au) (i : AuRead) : (s.takeSps n k x a i).2.fuses = s.fuses := by
  unfold Dev.takeSps
  split <;> simp

@[simp] theorem Dev.takeEngine_fuses (n k : Nat) (x : Stream) (a : Au) (p : Sps) (i : AuRead) :
    (s.takeEngine n k x a p i).fuses = s.fuses := by
  simp [Dev.takeEngine]

@[simp] theorem Dev.startPic_fuses (n k : Nat) (i : AuRead) : (s.startPic n k i).fuses = s.fuses := by
  simp only [Dev.startPic]
  repeat' split
  all_goals simp

@[simp] theorem Dev.decodeStart_fuses (n : Nat) (i : AuRead) : (s.decodeStart n i).fuses = s.fuses := by
  fun_cases Dev.decodeStart s n i <;> simp +zetaDelta

@[simp] theorem Dev.putReady_fuses (k : Nat) (p : Pic) : (s.putReady k p).fuses = s.fuses := by
  simp only [Dev.putReady]
  repeat' split
  all_goals simp

@[simp] theorem Dev.outputPic_fuses (k h : Nat) : (s.outputPic k h).fuses = s.fuses := by
  unfold Dev.outputPic
  split
  · simp
  · split <;> simp

@[simp] theorem Dev.sweepDpb_fuses (k : Nat) : (s.sweepDpb k).fuses = s.fuses := by
  unfold Dev.sweepDpb
  split <;> simp

@[simp] theorem Dev.concealReport_fuses (n k : Nat) : (s.concealReport n k).fuses = s.fuses := by
  unfold Dev.concealReport
  split <;> simp

@[simp] theorem Dev.decodePlanes_fuses (p : Sps) (fmt : Nat) : (s.decodePlanes p fmt).2.fuses = s.fuses := by
  simp [Dev.decodePlanes]

@[simp] theorem Dev.writePic_fuses (x : Stream) (p : Sps) (h t : Nat) : (s.writePic x p h t).fuses = s.fuses := by
  simp [Dev.writePic]

@[simp] theorem Dev.concealCount_fuses (n k tag blocks : Nat) : (s.concealCount n k tag blocks).fuses = s.fuses := by
  unfold Dev.concealCount
  split
  · simp
  · split <;> simp

@[simp] theorem Dev.placePic_fuses (k : Nat) (d : DecJob) (r : PicRead) : (s.placePic k d r).fuses = s.fuses := by
  unfold Dev.placePic
  split <;> simp

@[simp] theorem Dev.detachEnd_fuses (k : Nat) : (s.detachEnd k).fuses = s.fuses := by
  fun_cases Dev.detachEnd s k <;> simp

@[simp] theorem Dev.decodeDone_fuses (n : Nat) (r : PicRead) : (s.decodeDone n r).fuses = s.fuses := by
  simp only [Dev.decodeDone]
  repeat' split
  all_goals simp

/-! ### Cores -/

@[simp] theorem Dev.setProg_fuses (k : Nat) (p : Prog) : (s.setProg k p).fuses = s.fuses := by
  simp [Dev.setProg]

@[simp] theorem Dev.asStore_fuses (k a : Nat) (bs : List Byte) (poison : Bool) : (s.asStore k a bs poison).fuses = s.fuses := by
  simp [Dev.asStore]

theorem Dev.asWr_fuses {s t : Dev} {k off : Nat} {bs : List Byte} {poison : Bool} (h : s.asWr k off bs poison = .ok t) :
    t.fuses = s.fuses := by
  unfold Dev.asWr at h
  split at h
  · cases h
  · cases h
    simp

@[simp] theorem Dev.coreFault_fuses (k blk : Nat) (e : CErr) : (s.coreFault k blk e).fuses = s.fuses := by
  unfold Dev.coreFault
  split <;> simp

@[simp] theorem Dev.fetchCmd_fuses (p : Prog) : (s.fetchCmd p).2.fuses = s.fuses := by
  simp [Dev.fetchCmd]

@[simp] theorem Dev.issueOp_fuses (k : Nat) (p : Prog) (q : Nat) (w : List Word) : (s.issueOp k p q w).fuses = s.fuses := by
  simp [Dev.issueOp]

@[simp] theorem Dev.setSig_fuses (k bank i v : Nat) : (s.setSig k bank i v).fuses = s.fuses := by
  simp [Dev.setSig]

@[simp] theorem Dev.addSig_fuses (k bank i v : Nat) : (s.addSig k bank i v).fuses = s.fuses := by
  simp [Dev.addSig]

@[simp] theorem Dev.signalTo_fuses (r dst i v core op : Nat) : (s.signalTo r dst i v core op).fuses = s.fuses := by
  fun_cases Dev.signalTo s r dst i v core op <;> simp

@[simp] theorem Dev.barrierCast_fuses (p : Prog) (first count : Nat) : (s.barrierCast p first count).fuses = s.fuses := by
  rw [Dev.barrierCast, foldl_fuses]
  intro s x
  split <;> simp

theorem Dev.tryWait_fuses {s t : Dev} {k : Nat} {p : Prog} {x : SeqWait} (h : s.tryWait k p x = some t) : t.fuses = s.fuses := by
  unfold Dev.tryWait at h
  dsimp only at h
  repeat' split at h
  all_goals cases h
  all_goals simp

@[simp] theorem Dev.sectBytes_fuses (p : Prog) (x : Sect) : (s.sectBytes p x).2.fuses = s.fuses := by
  simp [Dev.sectBytes]

@[simp] theorem Dev.loadSects_fuses {f : Dev → Sect → List Byte → Except CErr Dev}
    (hf : ∀ s x bs t, f s x bs = .ok t → t.fuses = s.fuses) (p : Prog) (l : List Sect) (s : Dev) :
    (Dev.loadSects f p l s).2.fuses = s.fuses := by
  induction l generalizing s with
  | nil => rfl
  | cons x l ih =>
    simp only [Dev.loadSects]
    split
    · simp
    · split
      · simp
      · rename_i t h
        simp [ih, hf _ _ _ _ h]

@[simp] theorem Dev.loadCode_fuses (k : Nat) (p : Prog) : (s.loadCode k p).2.fuses = s.fuses := by
  simp [Dev.loadCode]

@[simp] theorem Dev.takeCore_fuses (k : Nat) (p : Prog) : (s.takeCore k p).fuses = s.fuses := by
  unfold Dev.takeCore
  split
  simp

@[simp] theorem Dev.reload_fuses (k : Nat) (p : Prog) : (s.reload k p).2.fuses = s.fuses := by
  simp [Dev.reload]

@[simp] theorem Dev.arbitrate_fuses (k : Nat) : (s.arbitrate k).fuses = s.fuses := by
  simp only [Dev.arbitrate]
  repeat' split
  all_goals simp

@[simp] theorem Dev.park_fuses (k : Nat) : (s.park k).fuses = s.fuses := by
  unfold Dev.park
  split <;> simp

@[simp] theorem Dev.pump_fuses (k fuel : Nat) : (s.pump k fuel).fuses = s.fuses := by
  induction fuel generalizing s with
  | zero => simp [Dev.pump]
  | succ n ih =>
    simp only [Dev.pump]
    repeat' split
    all_goals simp [ih]
    exact Dev.tryWait_fuses ‹_›

@[simp] theorem Dev.pumpCore_fuses (k : Nat) : (s.pumpCore k).fuses = s.fuses := by
  simp [Dev.pumpCore]

@[simp] theorem Dev.pumpAll_fuses : (s.pumpAll).fuses = s.fuses := by
  simp [Dev.pumpAll]

@[simp] theorem Dev.onCore_fuses (k : Nat) {f : Prog → Dev → Dev} (hf : ∀ p t, (f p t).fuses = t.fuses) :
    (s.onCore k f).fuses = s.fuses := by
  unfold Dev.onCore
  repeat' split
  all_goals simp [hf]

@[simp] theorem Dev.setOp_fuses (k : Nat) (o : Op) : (s.setOp k o).fuses = s.fuses := by
  unfold Dev.setOp
  split <;> simp

@[simp] theorem Dev.opFail_fuses (k blk : Nat) (o : Op) (e : CErr) : (s.opFail k blk o e).fuses = s.fuses := by
  simp [Dev.opFail]

/-! ### Msg -/

@[simp] theorem Dev.landMsg_fuses (k ch : Nat) (bs : List Byte) : (s.landMsg k ch bs).fuses = s.fuses := by
  unfold Dev.landMsg
  split <;> simp

@[simp] theorem Dev.gotCredits_fuses (k route dst ch n size : Nat) : (s.gotCredits k route dst ch n size).fuses = s.fuses := by
  simp [Dev.gotCredits]

@[simp] theorem Dev.sendCredits_fuses (k ch route n : Nat) : (s.sendCredits k ch route n).fuses = s.fuses := by
  fun_cases Dev.sendCredits s k ch route n <;> simp

theorem Dev.tryNotify_fuses {s t : Dev} {x : Notice} (h : s.tryNotify x = some t) : t.fuses = s.fuses := by
  unfold Dev.tryNotify at h
  dsimp only at h
  repeat' split at h
  all_goals cases h
  all_goals simp

@[simp] theorem Dev.notify_fuses (kind core ch ctx status addr tag : Nat) :
    (s.notify kind core ch ctx status addr tag).fuses = s.fuses := by
  unfold Dev.notify
  dsimp only
  split
  · rfl
  · split
    · rename_i t h
      simp [Dev.tryNotify_fuses h]
    · simp

@[simp] theorem Dev.retryNotices_fuses (k : Nat) : (s.retryNotices k).fuses = s.fuses := by
  rw [Dev.retryNotices, foldl_fuses]
  intro s x
  split
  · rename_i t h
    simp [Dev.tryNotify_fuses h]
  · rfl

@[simp] theorem Dev.sendMsg_fuses (k op dst ch : Nat) (halo : Bool) (o : OutEnt) (bs : List Byte) :
    (s.sendMsg k op dst ch halo o bs).2.fuses = s.fuses := by
  simp only [Dev.sendMsg]
  repeat' split
  all_goals simp

@[simp] theorem Dev.flightDone_fuses (k op : Nat) : (s.flightDone k op).fuses = s.fuses := by
  fun_cases Dev.flightDone s k op <;> simp

@[simp] theorem Dev.sendCmd_fuses (k : Nat) (halo : Bool) (p : Prog) : (s.sendCmd k halo p).fuses = s.fuses := by
  simp only [Dev.sendCmd]
  repeat' split
  all_goals simp

@[simp] theorem Dev.landFlight_fuses (k ch : Nat) : (s.landFlight k ch).fuses = s.fuses := by
  unfold Dev.landFlight
  split <;> simp

@[simp] theorem Dev.rxMessage_fuses (f : Frame) : (s.rxMessage f).fuses = s.fuses := by
  simp [Dev.rxMessage]

@[simp] theorem Dev.landCredit_fuses (k : Nat) : (s.landCredit k).fuses = s.fuses := by
  unfold Dev.landCredit
  split <;> simp

@[simp] theorem Dev.rxCredit_fuses (f : Frame) : (s.rxCredit f).fuses = s.fuses := by
  fun_cases Dev.rxCredit s f <;> simp

@[simp] theorem Dev.claimCredits_fuses (k r : Nat) (map : List Nat) : (s.claimCredits k r map).fuses = s.fuses := by
  simp [Dev.claimCredits]

@[simp] theorem Dev.rxSignal_fuses (f : Frame) : (s.rxSignal f).fuses = s.fuses := by
  simp [Dev.rxSignal]

@[simp] theorem Dev.seqCmd_fuses (k op : Nat) {f : Prog → List Word → Dev → Dev} (hf : ∀ p w t, (f p w t).fuses = t.fuses) :
    (s.seqCmd k op f).fuses = s.fuses := by
  refine s.onCore_fuses k fun p t => ?_
  dsimp only
  repeat' split
  all_goals simp [hf]

@[simp] theorem Dev.seqWait_fuses (k : Nat) (p : Prog) (w : List Word) : (s.seqWait k p w).fuses = s.fuses := by
  simp [Dev.seqWait]

@[simp] theorem Dev.recvCmd_fuses (k : Nat) (p : Prog) (w : List Word) : (s.recvCmd k p w).fuses = s.fuses := by
  simp [Dev.recvCmd]

@[simp] theorem Dev.signalCmd_fuses (k : Nat) (p : Prog) (w : List Word) : (s.signalCmd k p w).fuses = s.fuses := by
  fun_cases Dev.signalCmd k p w s <;> simp

@[simp] theorem Dev.barrierCmd_fuses (k : Nat) (p : Prog) (w : List Word) : (s.barrierCmd k p w).fuses = s.fuses := by
  fun_cases Dev.barrierCmd k p w s <;> simp +zetaDelta

@[simp] theorem Dev.loopCmd_fuses (k : Nat) (p : Prog) (w : List Word) : (s.loopCmd k p w).fuses = s.fuses := by
  simp [Dev.loopCmd]

@[simp] theorem Dev.branchCmd_fuses (k : Nat) (p : Prog) (w : List Word) : (s.branchCmd k p w).fuses = s.fuses := by
  simp [Dev.branchCmd]

@[simp] theorem Dev.timeWaitCmd_fuses (k : Nat) (p : Prog) (w : List Word) : (s.timeWaitCmd k p w).fuses = s.fuses := by
  simp [Dev.timeWaitCmd]

@[simp] theorem Dev.timeReached_fuses (k : Nat) (p : Prog) : (s.timeReached k p).fuses = s.fuses := by
  unfold Dev.timeReached
  split <;> simp

@[simp] theorem Dev.seqTimeout_fuses (k : Nat) (p : Prog) : (s.seqTimeout k p).fuses = s.fuses := by
  unfold Dev.seqTimeout
  split <;> simp

@[simp] theorem Dev.moveRd_fuses (k : Nat) (p : Prog) (w : List Word) (i n : Nat) : (s.moveRd k p w i n).2.fuses = s.fuses := by
  simp only [Dev.moveRd]
  repeat' split
  all_goals simp

theorem Dev.moveWr_fuses {s t : Dev} {k : Nat} {p : Prog} {w : List Word} {i : Nat} {bs : List Byte} (h : s.moveWr k p w i bs = .ok t) :
    t.fuses = s.fuses := by
  unfold Dev.moveWr at h
  dsimp only at h
  split at h
  · exact Dev.asWr_fuses h
  · split at h
    · cases h
    · cases h
      simp
  · cases h
    simp
  · cases h
    simp

@[simp] theorem Dev.moveRows_fuses (k : Nat) (p : Prog) (w : List Word) (n i : Nat) : (s.moveRows k p w n i).2.fuses = s.fuses := by
  induction n generalizing s i with
  | zero => rfl
  | succ n ih =>
    simp only [Dev.moveRows]
    split
    · simp
    · split
      · simp
      · rename_i t h
        simp [ih, Dev.moveWr_fuses h]

@[simp] theorem Dev.moveCmd_fuses (k : Nat) (p : Prog) : (s.moveCmd k p).fuses = s.fuses := by
  simp only [Dev.moveCmd]
  repeat' split
  all_goals simp

@[simp] theorem Dev.wsRead_fuses (p : Prog) (w : List Word) : (s.wsRead p w).2.fuses = s.fuses := by
  unfold Dev.wsRead
  dsimp only
  split <;> simp

@[simp] theorem Dev.wsFill_fuses (k : Nat) (o : Op) (bs : List Byte) : (s.wsFill k o bs).fuses = s.fuses := by
  unfold Dev.wsFill
  dsimp only
  split <;> simp

@[simp] theorem Dev.mcastGo_fuses (g : Nat) (members : List Nat) : (s.mcastGo g members).fuses = s.fuses := by
  simp only [Dev.mcastGo]
  split
  · split
    · split
      · rw [foldl_fuses fun s j => ?_]
        · simp
        · split <;> simp
      · rw [foldl_fuses (by simp), foldl_fuses fun s j => ?_]
        · simp
        · split <;> simp
    · rfl
  · rfl

@[simp] theorem Dev.wsJoin_fuses (k : Nat) (o : Op) : (s.wsJoin k o).fuses = s.fuses := by
  unfold Dev.wsJoin
  dsimp only
  split <;> simp

@[simp] theorem Dev.wstreamCmd_fuses (k : Nat) (p : Prog) : (s.wstreamCmd k p).fuses = s.fuses := by
  simp only [Dev.wstreamCmd]
  repeat' split
  all_goals simp

@[simp] theorem Dev.mcastTimeout_fuses (g : Nat) : (s.mcastTimeout g).fuses = s.fuses := by
  fun_cases Dev.mcastTimeout s g <;> simp

/-! ### Epi -/

theorem Dev.putCells_fuses {s t : Dev} {k base e : Nat} {poison : Bool} {at_ : Nat → Nat → Int} {order : List (Nat × Nat)} {x : List
    (List Word)} (h : s.putCells k base e poison at_ order x = .ok t) :
    t.fuses = s.fuses := by
  refine foldlM_fuses (fun u w v hv => ?_) h
  split at hv
  · cases hv
  · exact Dev.asWr_fuses hv

theorem Dev.redRows_fuses {s t : Dev} {k : Nat} {a : PassAt} {st : Stage} {poison : Bool} {x : List (List Word)}
    (h : s.redRows k a st poison x = .ok t) :
    t.fuses = s.fuses := by
  unfold Dev.redRows at h
  dsimp only at h
  split at h
  · cases h
  · exact Dev.asWr_fuses h

@[simp] theorem Dev.epiFail_fuses (k : Nat) (o : Op) (i : Nat) (e : CErr) : (s.epiFail k o i e).fuses = s.fuses := by
  simp [Dev.epiFail]

@[simp] theorem Dev.countVals_fuses (k n : Nat) : (s.countVals k n).fuses = s.fuses := by
  simp [Dev.countVals]

theorem exists_of_map_eq_ok {ε α β : Type} {f : α → β} {x : Except ε α} {b : β} (h : x.map f = .ok b) :
    ∃ a, x = .ok a ∧ f a = b := by
  cases x with
  | error e => cases h
  | ok a => exact ⟨a, rfl, by cases h; rfl⟩

section EpilogueStages

variable {k i : Nat} {a : PassAt} {st : Stage} {poison : Bool} {p : Prog} {o : Op} {r u : EpiRun}

theorem Dev.redCols_fuses {s : Dev} (h : s.redCols k a i st poison r = .ok u) : u.dev.fuses = s.fuses := by
  unfold Dev.redCols at h
  dsimp only at h
  split at h
  · cases h
  · obtain ⟨t, ht, rfl⟩ := exists_of_map_eq_ok h
    exact Dev.asWr_fuses ht

theorem Dev.sendStage_fuses {s : Dev} (h : s.sendStage k p o a st poison r = .ok u) : u.dev.fuses = s.fuses := by
  unfold Dev.sendStage at h
  dsimp only at h
  split at h
  · cases h
  · rename_i t ht
    have hput := Dev.putCells_fuses ht
    repeat' split at h
    all_goals cases h
    all_goals simp [hput]

theorem stageRun_fuses (h : stageRun k p o a poison i st r = .ok u) : u.dev.fuses = r.dev.fuses := by
  unfold stageRun at h
  dsimp only at h
  split at h
  · obtain ⟨x, -, rfl⟩ := exists_of_map_eq_ok h
    rfl
  · obtain ⟨t, ht, rfl⟩ := exists_of_map_eq_ok h
    exact Dev.redRows_fuses ht
  · exact Dev.redCols_fuses h
  · cases h
    rfl
  · obtain ⟨t, ht, rfl⟩ := exists_of_map_eq_ok h
    exact Dev.putCells_fuses ht
  · exact Dev.sendStage_fuses h
  · obtain ⟨t, ht, rfl⟩ := exists_of_map_eq_ok h
    exact Dev.putCells_fuses ht
  · cases h
    rfl

theorem stagesRun_fuses {l : List Stage} (h : stagesRun k p o a poison i l r = .ok u) : u.dev.fuses = r.dev.fuses := by
  induction l generalizing i r with
  | nil => cases h; rfl
  | cons st l ih =>
    simp only [stagesRun] at h
    split at h
    · cases h
    · rename_i v hv
      exact (ih h).trans (stageRun_fuses hv)

end EpilogueStages

@[simp] theorem Dev.epiPass_fuses (k : Nat) (p : Prog) (o : Op) (a : PassAt) (t sub : Nat) (poison last : Bool) (x : List (List Word)) :
    (s.epiPass k p o a t sub poison last x).fuses = s.fuses := by
  simp only [Dev.epiPass]
  split
  · simp
  · split
    · simp
    · split
      · simp
      · rename_i r h
        simpa using stagesRun_fuses h
  · simp

/-! ### Adg -/

@[simp] theorem Dev.adgFail_fuses (k : Nat) (o : Op) (e : AdgErr) : (s.adgFail k o e).fuses = s.fuses := by
  simp [Dev.adgFail]

@[simp] theorem Dev.adgFed_fuses (k p loaded pads : Nat) : (s.adgFed k p loaded pads).fuses = s.fuses := by
  simp [Dev.adgFed]

/-! ### Mxu -/

@[simp] theorem Dev.mxuFlags_fuses (k t : Nat) (f : MxFlags) (par : Bool) : (s.mxuFlags k t f par).fuses = s.fuses := by
  simp [Dev.mxuFlags]

@[simp] theorem Dev.mxuDelivered_fuses (k : Nat) : (s.mxuDelivered k).fuses = s.fuses := by
  simp [Dev.mxuDelivered]

theorem Dev.mxuStart_fuses {s t : Dev} {k : Nat} {o : Op} (h : s.mxuStart k o = .error t ∨ s.mxuStart k o = .ok t) :
    t.fuses = s.fuses := by
  unfold Dev.mxuStart at h
  dsimp only at h
  repeat' split at h
  all_goals rcases h with h | h
  all_goals cases h
  all_goals simp

@[simp] theorem Dev.mxuPass_fuses (k : Nat) (p : Prog) (o : Op) (sub : Nat) (par : Bool) : (s.mxuPass k p o sub par).fuses = s.fuses := by
  fun_cases Dev.mxuPass s k p o sub par <;> simp +zetaDelta

@[simp] theorem Dev.mxuCmd_fuses (k op sub : Nat) (par : Bool) (p : Prog) : (s.mxuCmd k op sub par p).fuses = s.fuses := by
  unfold Dev.mxuCmd
  split
  · rfl
  · rename_i o _
    split
    · rfl
    · split
      · simp
      · have hstart (t : Dev) (ht : (if o.begun then .ok s else s.mxuStart k o) = Except.error t ∨
            (if o.begun then .ok s else s.mxuStart k o) = Except.ok t) : t.fuses = s.fuses := by
          split at ht
          · rcases ht with ht | ht <;> cases ht
            rfl
          · exact Dev.mxuStart_fuses ht
        split
        · exact hstart _ (.inl ‹_›)
        · have h := hstart _ (.inr ‹_›)
          split
          · exact h
          · split <;> simp [h]

theorem Dev.dwStart_fuses {s t : Dev} {k : Nat} {o : Op} (h : s.dwStart k o = .error t ∨ s.dwStart k o = .ok t) : t.fuses = s.fuses := by
  unfold Dev.dwStart at h
  dsimp only at h
  repeat' split at h
  all_goals rcases h with h | h
  all_goals cases h
  all_goals simp

@[simp] theorem Dev.dwPass_fuses (k : Nat) (p : Prog) (o : Op) : (s.dwPass k p o).fuses = s.fuses := by
  unfold Dev.dwPass
  dsimp only
  split <;> simp

@[simp] theorem Dev.dwCmd_fuses (k : Nat) (p : Prog) : (s.dwCmd k p).fuses = s.fuses := by
  unfold Dev.dwCmd
  split
  · rfl
  · rename_i o _
    split
    · rfl
    · split
      · simp
      · have hstart (t : Dev) (ht : (if o.begun then .ok s else s.dwStart k o) = Except.error t ∨
            (if o.begun then .ok s else s.dwStart k o) = Except.ok t) : t.fuses = s.fuses := by
          split at ht
          · rcases ht with ht | ht <;> cases ht
            rfl
          · exact Dev.dwStart_fuses ht
        split
        · exact hstart _ (.inl ‹_›)
        · have h := hstart _ (.inr ‹_›)
          split
          · exact h
          · split <;> simp [h]

/-! ### Vec -/

@[simp] theorem Dev.setBank_fuses (k bank : Nat) (b : VBank) : (s.setBank k bank b).fuses = s.fuses := by
  unfold Dev.setBank
  split <;> simp

@[simp] theorem Dev.vecFail_fuses (k bank pc reason : Nat) (o : Op) (e : CErr) : (s.vecFail k bank pc reason o e).fuses = s.fuses := by
  simp only [Dev.vecFail]
  repeat' split
  all_goals simp

@[simp] theorem Dev.vecEnter_fuses (k bank : Nat) : (s.vecEnter k bank).fuses = s.fuses := by
  fun_cases Dev.vecEnter s k bank <;> simp

@[simp] theorem Dev.vecIter_fuses (k : Nat) (o : Op) : (s.vecIter k o).fuses = s.fuses := by
  unfold Dev.vecIter
  split <;> simp

@[simp] theorem Dev.vecCmd_fuses (k : Nat) (p : Prog) : (s.vecCmd k p).fuses = s.fuses := by
  fun_cases Dev.vecCmd k p s <;> simp

@[simp] theorem Dev.tileCmd_fuses (k : Nat) (p : Prog) : (s.tileCmd k p).fuses = s.fuses := by
  fun_cases Dev.tileCmd k p s <;> simp

@[simp] theorem Dev.tileEnd_fuses (k : Nat) (p : Prog) (o : Op) : (s.tileEnd k p o).fuses = s.fuses := by
  unfold Dev.tileEnd
  split <;> simp

@[simp] theorem Dev.iterEnd_fuses (k : Nat) (p : Prog) (o : Op) : (s.iterEnd k p o).fuses = s.fuses := by
  simp [Dev.iterEnd]

/-- An instruction that goes on leaves the fuses as they were. -/
@[simp] def VOut.KeepsFuses (o : VOut) (s : Dev) : Prop :=
  match o with
  | .go _ t => t.fuses = s.fuses
  | _ => True

@[simp] theorem Dev.vecRun_fuses (k op : Nat) {f : Nat → Nat → Prog → Op → VBank → Dev → VOut} (hf : ∀ bank i p o b t,
    (f bank i p o b t).KeepsFuses t) :
    (s.vecRun k op f).fuses = s.fuses := by
  refine s.onCore_fuses k fun p t => ?_
  split
  · rfl
  · split
    · rfl
    · dsimp only
      split
      · rfl
      · rename_i bank _ _ o _ _
        have hv := hf bank (t.imem k (p.bankOf bank).pc) p o
          { p.bankOf bank with pc := (p.bankOf bank).pc + 1, n := (p.bankOf bank).n + 1, wait := false } t
        split
        · rename_i b u h
          rw [h] at hv
          simpa using hv
        · split <;> simp
        · simp
        · simp

@[simp] theorem Dev.vecPure_fuses (k op : Nat) (f : Nat → VBank → VBank) : (s.vecPure k op f).fuses = s.fuses := by
  exact s.vecRun_fuses k op fun _ _ _ _ _ _ => rfl

@[simp] theorem Dev.vecLanes_fuses (k op : Nat) (f : Nat → Word → Word → Word) : (s.vecLanes k op f).fuses = s.fuses := by
  simp [Dev.vecLanes]

@[simp] theorem Dev.freeLanes_fuses (tag : Nat) : (s.freeLanes tag).2.fuses = s.fuses := by
  simp [Dev.freeLanes]

@[simp] theorem Dev.vecLanesOr_fuses (k op : Nat) (open_ : Nat → Bool) (f : Nat → Word → Word → Word) :
    (s.vecLanesOr k op open_ f).fuses = s.fuses := by
  refine s.vecRun_fuses k op fun _ i _ _ _ t => ?_
  split
  · exact t.freeLanes_fuses 64
  · rfl

@[simp] theorem Dev.vecScalar_fuses (k op : Nat) (f : Nat → Word → Word → Word) : (s.vecScalar k op f).fuses = s.fuses := by
  simp [Dev.vecScalar]

@[simp] theorem Dev.vecJump_fuses (k op : Nat) (c : Word → Bool) : (s.vecJump k op c).fuses = s.fuses := by
  simp [Dev.vecJump]

theorem vecLoad_keepsFuses (k bank i : Nat) (p : Prog) (o : Op) (b : VBank) (s : Dev) : (vecLoad k bank i p o b s).KeepsFuses s := by
  unfold vecLoad
  dsimp only
  split <;> simp

theorem vecStore_keepsFuses (k bank i : Nat) (p : Prog) (o : Op) (b : VBank) (s : Dev) : (vecStore k bank i p o b s).KeepsFuses s := by
  unfold vecStore
  dsimp only
  split
  · trivial
  · split
    · trivial
    · rename_i t h
      exact foldlM_fuses (fun u w v hv => Dev.asWr_fuses hv) h

theorem vecSld_keepsFuses (k bank i : Nat) (p : Prog) (o : Op) (b : VBank) (s : Dev) : (vecSld k bank i p o b s).KeepsFuses s := by
  unfold vecSld
  dsimp only
  repeat' split
  all_goals simp

theorem vecSst_keepsFuses (k bank i : Nat) (p : Prog) (o : Op) (b : VBank) (s : Dev) : (vecSst k bank i p o b s).KeepsFuses s := by
  unfold vecSst
  dsimp only
  split
  · trivial
  · split
    · trivial
    · rename_i t h
      exact Dev.asWr_fuses h

theorem vecTin_keepsFuses (k bank i : Nat) (p : Prog) (o : Op) (b : VBank) (s : Dev) : (vecTin k bank i p o b s).KeepsFuses s := by
  unfold vecTin
  dsimp only
  repeat' split
  all_goals simp

theorem vecSend_keepsFuses (k bank i : Nat) (p : Prog) (o : Op) (b : VBank) (s : Dev) : (vecSend k bank i p o b s).KeepsFuses s := by
  unfold vecSend
  dsimp only
  repeat' split
  all_goals simp

end Sys2Proof.Machine
end

