-- ==== Sys2Proof/Proofs/FusesJobs.lean ====
section
/-! PROOFS. No operation of this part, jobs, routes and what runs them, changes the fuses of R404. -/

namespace Sys2Proof.Machine

variable (s : Dev)

/-! ### Jobs -/

@[simp] theorem Dev.regWrOk_fuses (src : Src) (page off : Nat) : (s.regWrOk src page off).2.fuses = s.fuses := by
  simp [Dev.regWrOk]

@[simp] theorem Dev.takeRefs_fuses (rq c : Nat) (l : List Nat) : (s.takeRefs rq c l).2.2.fuses = s.fuses := by
  induction l generalizing s with
  | nil => rfl
  | cons h l ih =>
    simp only [Dev.takeRefs]
    split <;> simp [ih]

@[simp] theorem Dev.jobAccept_fuses (q : Nat) (j : Job) : (s.jobAccept q j).fuses = s.fuses := by
  simp [Dev.jobAccept]

@[simp] theorem Dev.jobRefused_fuses (q : Nat) (flag : Bool) : (s.jobRefused q flag).fuses = s.fuses := by
  simp [Dev.jobRefused]

@[simp] theorem Dev.jobPush_fuses (q : Nat) (j : Job) : (s.jobPush q j).2.fuses = s.fuses := by
  unfold Dev.jobPush
  split
  · simp
  · split <;> simp

@[simp] theorem Dev.jqRetry_fuses (q fuel : Nat) : (s.jqRetry q fuel).fuses = s.fuses := by
  fun_induction Dev.jqRetry s q fuel <;> simp_all

@[simp] theorem Dev.jobAt_fuses (q a : Nat) (by_ : JobBy) : (s.jobAt q a by_).2.fuses = s.fuses := by
  simp [Dev.jobAt]

@[simp] theorem Dev.pushDesc_fuses (q a : Nat) (by_ : JobBy) : (s.pushDesc q a by_).2.fuses = s.fuses := by
  simp [Dev.pushDesc]

@[simp] theorem Dev.pushWrite_fuses (q : Nat) (src : Src) (v : Word) : (s.pushWrite q src v).fuses = s.fuses := by
  simp [Dev.pushWrite]

@[simp] theorem Dev.setJob_fuses (q : Nat) (j : Job) : (s.setJob q j).fuses = s.fuses := by
  simp [Dev.setJob]

@[simp] theorem Dev.statusWrite_fuses (q : Nat) (j : Job) (a : Nat) : (s.statusWrite q j a).fuses = s.fuses := by
  simp [Dev.statusWrite]

@[simp] theorem Dev.seatJobEnd_fuses (r q k : Nat) (st : Status) : (s.seatJobEnd r q k st).fuses = s.fuses := by
  unfold Dev.seatJobEnd
  split <;> simp

@[simp] theorem Dev.solveOut_fuses (c seq : Nat) (bs : List Byte) : (s.solveOut c seq bs).fuses = s.fuses := by
  fun_cases Dev.solveOut s c seq bs <;> simp

@[simp] theorem Dev.solveEnd_fuses (c seq : Nat) (j : Job) : (s.solveEnd c seq j).fuses = s.fuses := by
  simp [Dev.solveEnd]

@[simp] theorem Dev.jobEnd_fuses (q : Nat) (j : Job) : (s.jobEnd q j).fuses = s.fuses := by
  simp only [Dev.jobEnd]
  generalize j.by_ = b
  generalize jobNotify q j.desc = n
  generalize j.addr = a
  cases b <;> cases n <;> cases a <;> simp

@[simp] theorem Dev.jobDone_fuses (q : Nat) (j : Job) (st : Status) (d2 : Nat) (ws : List Word) :
    (s.jobDone q j st d2 ws).fuses = s.fuses := by
  simp [Dev.jobDone]

@[simp] theorem Dev.jobFail_fuses (q : Nat) (j : Job) (st : Status) (d2 : Nat) : (s.jobFail q j st d2).fuses = s.fuses := by
  simp [Dev.jobFail]

/-! ### Route -/

@[simp] theorem Dev.routeClear_fuses (r : Nat) : (s.routeClear r).fuses = s.fuses := by
  unfold Dev.routeClear
  split <;> simp

@[simp] theorem Dev.modelFree_fuses (m : Nat) : (s.modelFree m).fuses = s.fuses := by
  unfold Dev.modelFree
  split <;> simp

@[simp] theorem Dev.awaitUnits_fuses (c seq : Nat) (us : List Nat) : (s.awaitUnits c seq us).fuses = s.fuses := by
  simp [Dev.awaitUnits]

@[simp] theorem Dev.sendParts_fuses (c : Nat) (w : List Word) (us : List Nat) (data : List Byte) :
    (s.sendParts c w us data).fuses = s.fuses := by
  simp [Dev.sendParts]

@[simp] theorem Dev.partsEnd_fuses (c : Nat) (e : Run) (st : Status) (result d2 : Nat) (data : List Byte) :
    (s.partsEnd c e st result d2 data).fuses = s.fuses := by
  simp only [Dev.partsEnd]
  repeat' split
  all_goals simp

@[simp] theorem Dev.partDone_fuses (c seq u : Nat) (st : Status) (result d2 : Nat) (data : List Byte) :
    (s.partDone c seq u st result d2 data).fuses = s.fuses := by
  unfold Dev.partDone
  split <;> simp

@[simp] theorem Dev.partEnd_fuses (c seq : Nat) (st : Status) (result d2 : Nat) : (s.partEnd c seq st result d2).fuses = s.fuses := by
  simp [Dev.partEnd]

@[simp] theorem Dev.routeGone_fuses (r : Nat) : (s.routeGone r).fuses = s.fuses := by
  unfold Dev.routeGone
  split <;> simp

@[simp] theorem Dev.coachFinish_fuses (r : Nat) : (s.coachFinish r).fuses = s.fuses := by
  unfold Dev.coachFinish
  split <;> simp

@[simp] theorem Dev.stopRoute_fuses (r : Nat) : (s.stopRoute r).fuses = s.fuses := by
  unfold Dev.stopRoute
  split <;> simp

@[simp] theorem Dev.unloadAll_fuses : (s.unloadAll).fuses = s.fuses := by
  simp [Dev.unloadAll]

@[simp] theorem Dev.modelHere_fuses (c : Nat) (w : List Word) (bs : List Byte) (nl : Nat) : (s.modelHere c w bs nl).fuses = s.fuses := by
  have hall := s.allocate_fuses (hF w 0x18 0 4) schedRq c none false (.eng 0)
  unfold Dev.modelHere
  dsimp only
  split
  · simp
  · split
    · rename_i t heq
      rw [heq] at hall
      split <;> simp [hall]
    · rename_i t heq
      rwa [heq] at hall

@[simp] theorem Dev.modelLoadMgr_fuses (c : Nat) (w : List Word) : (s.modelLoadMgr c w).fuses = s.fuses := by
  unfold Dev.modelLoadMgr
  dsimp only
  split
  · simp
  · split
    · simp
    · refine s.dramOperand_fuses c w _ _ fun t => ?_
      repeat' split
      all_goals simp

@[simp] theorem Dev.modelLoad_fuses (c : Nat) (w : List Word) : (s.modelLoad c w).fuses = s.fuses := by
  simp [Dev.modelLoad]

@[simp] theorem Dev.unloadHere_fuses (m : Nat) : (s.unloadHere m).fuses = s.fuses := by
  unfold Dev.unloadHere
  split <;> simp

@[simp] theorem Dev.modelUnload_fuses (c : Nat) (w : List Word) : (s.modelUnload c w).fuses = s.fuses := by
  fun_cases Dev.modelUnload c w s <;> simp

/-! ### Launch -/

@[simp] theorem Dev.preload_fuses (k : Nat) (p : Prog) : (s.preload k p).2.fuses = s.fuses := by
  refine Dev.loadSects_fuses (fun s x bs t h => ?_) _ _ _
  split at h
  · cases h
  · cases h
    simp

@[simp] theorem Dev.loadChans_fuses (k : Nat) (p : Prog) : (s.loadChans k p).2.fuses = s.fuses := by
  unfold Dev.loadChans
  dsimp only
  split <;> simp

@[simp] theorem Dev.launchCore_fuses (k : Nat) (p : Prog) (map : List Nat) : (s.launchCore k p map).2.fuses = s.fuses := by
  simp only [Dev.launchCore]
  repeat' split
  all_goals simp

@[simp] theorem Dev.launchCores_fuses (f : Nat → Nat → Prog) (map : List Nat) (l : List (Nat × Nat)) :
    (s.launchCores f map l).2.fuses = s.fuses := by
  induction l generalizing s with
  | nil => rfl
  | cons x l ih =>
    simp only [Dev.launchCores]
    split <;> simp [ih]

@[simp] theorem Dev.kindKnown_fuses (r : Nat) (coach : Bool) : (s.kindKnown r coach).fuses = s.fuses := by
  unfold Dev.kindKnown
  repeat' split
  · rfl
  · rfl
  · simp
  · rw [Dev.pumpAll_fuses, foldl_fuses fun s e => ?_]
    · simp
    · split <;> simp

@[simp] theorem Dev.tellKind_fuses (r : Nat) (coach : Bool) : (s.tellKind r coach).fuses = s.fuses := by
  unfold Dev.tellKind
  split <;> simp

@[simp] theorem Dev.launchHere_fuses (c : Nat) (w : List Word) (banks : List Nat) : (s.launchHere c w banks).fuses = s.fuses := by
  simp only [Dev.launchHere]
  repeat' split
  all_goals simp

@[simp] theorem Dev.launchMgr_fuses (c : Nat) (w : List Word) : (s.launchMgr c w).fuses = s.fuses := by
  fun_cases Dev.launchMgr s c w <;> simp +zetaDelta

@[simp] theorem Dev.graphLaunch_fuses (c : Nat) (w : List Word) : (s.graphLaunch c w).fuses = s.fuses := by
  simp [Dev.graphLaunch]

@[simp] theorem Dev.graphStop_fuses (c : Nat) (w : List Word) : (s.graphStop c w).fuses = s.fuses := by
  unfold Dev.graphStop
  dsimp only
  split <;> simp

@[simp] theorem Dev.progEnd_fuses (k : Nat) : (s.progEnd k).fuses = s.fuses := by
  unfold Dev.progEnd
  split
  · simp
  · split <;> simp

@[simp] theorem Dev.endOp_fuses (k : Nat) (p : Prog) (_w : List Word) : (s.endOp k p _w).fuses = s.fuses := by
  simp [Dev.endOp]

@[simp] theorem Dev.ccmdComplete_fuses (k id : Nat) (p : Prog) : (s.ccmdComplete k id p).fuses = s.fuses := by
  unfold Dev.ccmdComplete
  split <;> simp

@[simp] theorem Dev.creditTimeout_fuses (k sub : Nat) : (s.creditTimeout k sub).fuses = s.fuses := by
  unfold Dev.creditTimeout
  dsimp only
  split
  · rfl
  · split
    · split <;> simp
    · refine s.onCore_fuses k fun p t => ?_
      split <;> simp

@[simp] theorem Dev.preemptCut_fuses (k : Nat) (p : Prog) : (s.preemptCut k p).fuses = s.fuses := by
  simp [Dev.preemptCut]

@[simp] theorem Dev.onAny_fuses (k : Nat) {f : Prog → Dev → Dev} (hf : ∀ p t, (f p t).fuses = t.fuses) :
    (s.onAny k f).fuses = s.fuses := by
  unfold Dev.onAny
  repeat' split
  all_goals simp [hf]

@[simp] theorem Dev.preempt_fuses (k : Nat) (p : Prog) : (s.preempt k p).fuses = s.fuses := by
  unfold Dev.preempt
  split <;> simp

@[simp] theorem Dev.restream_fuses (k : Nat) (p : Prog) (w : Option (List Word)) : (s.restream k p w).2.fuses = s.fuses := by
  simp only [Dev.restream]
  repeat' split
  all_goals simp

@[simp] theorem Dev.resume_fuses (k : Nat) : (s.resume k).fuses = s.fuses := by
  simp only [Dev.resume]
  repeat' split
  all_goals simp

@[simp] theorem Dev.coreOffWrite_fuses (src : Src) (v : Word) : (s.coreOffWrite src v).fuses = s.fuses := by
  simp [Dev.coreOffWrite]

/-! ### Coach -/

@[simp] theorem Dev.board_fuses (r : Nat) (l : List Seat) : (s.board r l).2.fuses = s.fuses := by
  fun_cases Dev.board s r l <;> simp

@[simp] theorem Dev.pictureClose_fuses (r : Nat) : (s.pictureClose r).fuses = s.fuses := by
  simp only [Dev.pictureClose]
  repeat' split
  all_goals simp

@[simp] theorem Dev.reidCrop_fuses (x : Coach) (e : Seat) (box : List Word) : (s.reidCrop x e box).2.fuses = s.fuses := by
  simp [Dev.reidCrop]

@[simp] theorem Dev.reidSeat_fuses (x : Coach) (e : Seat) (b : List Byte) : (s.reidSeat x e b).2.fuses = s.fuses := by
  simp [Dev.reidSeat]

@[simp] theorem Dev.reidSeats_fuses (c : Nat) (co : Coach) (l : List (Seat × List Byte)) : (s.reidSeats c co l).2.fuses = s.fuses := by
  induction l generalizing s with
  | nil => rfl
  | cons e l ih => simp [Dev.reidSeats, ih]

@[simp] theorem Dev.reidClose_fuses (r n : Nat) : (s.reidClose r n).fuses = s.fuses := by
  simp only [Dev.reidClose]
  repeat' split
  all_goals simp

@[simp] theorem Dev.releaseSeat_fuses (c : Nat) (e : Seat) : (s.releaseSeat c e).fuses = s.fuses := by
  simp [Dev.releaseSeat]

@[simp] theorem Dev.freeHeld_fuses (r : Nat) : (s.freeHeld r).fuses = s.fuses := by
  unfold Dev.freeHeld
  split <;> simp

@[simp] theorem Dev.updSeat_fuses (r q : Nat) (f : Seat → Seat) : (s.updSeat r q f).fuses = s.fuses := by
  unfold Dev.updSeat
  split <;> simp

@[simp] theorem Dev.seatsFinish_fuses (r fuel : Nat) : (s.seatsFinish r fuel).fuses = s.fuses := by
  fun_induction Dev.seatsFinish s r fuel <;> simp_all

@[simp] theorem Dev.pushPosts_fuses (r : Nat) (x : Route) (co : Coach) (i : Nat) (e : Seat) :
    (s.pushPosts r x co i e).fuses = s.fuses := by
  simp [Dev.pushPosts]

@[simp] theorem Dev.pushPpus_fuses (r : Nat) (x : Route) (co : Coach) (l : List Seat) : (s.pushPpus r x co l).fuses = s.fuses := by
  induction l generalizing s with
  | nil => rfl
  | cons e l ih => simp [Dev.pushPpus, ih]

@[simp] theorem Dev.markIntake_fuses (x : Route) (addr i : Nat) : (s.markIntake x addr i).fuses = s.fuses := by
  simp [Dev.markIntake]

@[simp] theorem Dev.signalSeats_fuses (r : Nat) (x : Route) (co : Coach) (l : List (Seat × Nat)) :
    (s.signalSeats r x co l).fuses = s.fuses := by
  induction l generalizing s with
  | nil => rfl
  | cons e l ih => simp [Dev.signalSeats, ih]

@[simp] theorem Dev.coachPump_fuses (r : Nat) : (s.coachPump r).fuses = s.fuses := by
  simp only [Dev.coachPump]
  repeat' split
  all_goals simp

@[simp] theorem Dev.coachAll_fuses : (s.coachAll).fuses = s.fuses := by
  simp [Dev.coachAll]

@[simp] theorem Dev.stepHere_fuses (r addr : Nat) (table : List Byte) : (s.stepHere r addr table).fuses = s.fuses := by
  unfold Dev.stepHere
  split
  · rfl
  · refine foldl_fuses (fun s e => ?_) _ _
    dsimp only
    split <;> simp

@[simp] theorem Dev.stepStart_fuses (r : Nat) : (s.stepStart r).fuses = s.fuses := by
  unfold Dev.stepStart
  split
  · simp
  · split <;> simp

@[simp] theorem Dev.seatRelease_fuses (r q : Nat) : (s.seatRelease r q).fuses = s.fuses := by
  fun_cases Dev.seatRelease s r q <;> simp

@[simp] theorem Dev.afterStep_fuses (r : Nat) : (s.afterStep r).fuses = s.fuses := by
  fun_cases Dev.afterStep s r <;> simp

@[simp] theorem Dev.stepEnd_fuses (r : Nat) : (s.stepEnd r).fuses = s.fuses := by
  unfold Dev.stepEnd
  split
  · simp
  · split <;> simp

/-! ### Pixel -/

@[simp] theorem Dev.jpegErr_fuses (j : Job) (kind : Nat) : (s.jpegErr j kind).fuses = s.fuses := by
  simp [Dev.jpegErr]

@[simp] theorem Dev.jpegFail_fuses (j : Job) (st : Status) (d2 : Nat) : (s.jpegFail j st d2).fuses = s.fuses := by
  simp [Dev.jpegFail]

@[simp] theorem Dev.jpegStart_fuses : (s.jpegStart).fuses = s.fuses := by
  simp only [Dev.jpegStart]
  repeat' split
  all_goals simp

@[simp] theorem Dev.jpegPlanes_fuses (x : JpegHead) : (s.jpegPlanes x).2.fuses = s.fuses := by
  simp [Dev.jpegPlanes]

@[simp] theorem Dev.jpegPoll_fuses (j : Job) : (s.jpegPoll j).2.fuses = s.fuses := by
  unfold Dev.jpegPoll
  dsimp only
  split <;> simp

@[simp] theorem Dev.jpegFinish_fuses (j : Job) (x : JpegHead) (h blocks : Nat) : (s.jpegFinish j x h blocks).fuses = s.fuses := by
  simp only [Dev.jpegFinish]
  repeat' split
  all_goals simp

@[simp] theorem Dev.jpegDone_fuses (blocks : Nat) : (s.jpegDone blocks).fuses = s.fuses := by
  simp only [Dev.jpegDone]
  repeat' split
  all_goals simp

@[simp] theorem Dev.ppuStart_fuses (q : Nat) : (s.ppuStart q).fuses = s.fuses := by
  fun_cases Dev.ppuStart s q <;> simp

@[simp] theorem Dev.ppuSource_fuses (c : Nat) (x : Ppu) (a : Nat) : (s.ppuSource c x a).2.2.fuses = s.fuses := by
  unfold Dev.ppuSource
  dsimp only
  rw [foldl_third_fuses (by simp), foldl_third_fuses (by simp)]

@[simp] theorem Dev.ppuBlocks_fuses (k : Nat) (done : List Nat) (l : List (Nat × List Byte)) :
    (s.ppuBlocks k done l).fuses = s.fuses := by
  induction l generalizing s with
  | nil => rfl
  | cons b l ih => simp [Dev.ppuBlocks, ih]

@[simp] theorem Dev.ppuWrite_fuses (x : Ppu) (img : Nat → Nat → List Int) (done : List Nat) (l : List PpuDst) :
    (s.ppuWrite x img done l).fuses = s.fuses := by
  induction l generalizing s done with
  | nil => rfl
  | cons t l ih => simp [Dev.ppuWrite, ih]

@[simp] theorem Dev.ppuDone_fuses (q : Nat) : (s.ppuDone q).fuses = s.fuses := by
  unfold Dev.ppuDone
  split <;> simp

/-! ### Dpp -/

@[simp] theorem Dev.bufRd_fuses (c h off n : Nat) : (s.bufRd c h off n).2.2.fuses = s.fuses := by
  simp [Dev.bufRd]

@[simp] theorem Dev.bufWr_fuses (c h off : Nat) (bs : List Byte) : (s.bufWr c h off bs).fuses = s.fuses := by
  simp [Dev.bufWr]

@[simp] theorem Dev.warn_fuses (key : Nat) (e : Nat → Event) : (s.warn key e).fuses = s.fuses := by
  simp [Dev.warn]

@[simp] theorem Dev.dppRun_fuses (emit : Bool) {f : Job → Dev → Dev} (hf : ∀ j t, (f j t).fuses = t.fuses) :
    (s.dppRun emit f).fuses = s.fuses := by
  unfold Dev.dppRun
  dsimp only
  repeat' split
  all_goals simp [hf]

@[simp] theorem Dev.levelRows_fuses (j : Job) (x : Level) : (s.levelRows j x).2.2.fuses = s.fuses := by
  unfold Dev.levelRows
  dsimp only
  rw [foldl_third_fuses fun r p => ?_]
  rw [foldl_third_fuses (by simp)]

@[simp] theorem Dev.dppEmit_fuses (j : Job) (l : List (List Word)) : (s.dppEmit j l).fuses = s.fuses := by
  simp [Dev.dppEmit]

@[simp] theorem Dev.dppFinish_fuses (j : Job) (cands : List Cand) : (s.dppFinish j cands).fuses = s.fuses := by
  simp [Dev.dppFinish]

@[simp] theorem Dev.dppCands_fuses (j : Job) (l : List Level) (base : Nat) : (s.dppCands j l base).2.2.fuses = s.fuses := by
  induction l generalizing s base with
  | nil => rfl
  | cons x l ih => simp [Dev.dppCands, ih]

@[simp] theorem Dev.dppDecode_fuses (j : Job) : (s.dppDecode j).fuses = s.fuses := by
  simp [Dev.dppDecode]

@[simp] theorem Dev.dppForward_fuses (j : Job) : (s.dppForward j).fuses = s.fuses := by
  simp [Dev.dppForward]

@[simp] theorem Dev.dppDone_fuses : (s.dppDone).fuses = s.fuses := by
  unfold Dev.dppDone
  dsimp only
  split <;> simp

@[simp] theorem Dev.heartbeat_fuses (c : Nat) : (s.heartbeat c).fuses = s.fuses := by
  simp [Dev.heartbeat]

/-! ### Slv -/

@[simp] theorem Dev.drawWord_fuses (tag : Nat) : (s.drawWord tag).2.fuses = s.fuses := by
  simp [Dev.drawWord]

@[simp] theorem Dev.slvWarn_fuses (j : Job) (r : SlvRes) : (s.slvWarn j r).fuses = s.fuses := by
  simp [Dev.slvWarn]

@[simp] theorem Dev.slvFinish_fuses (q : Nat) (j : Job) (r : SlvRes) (d2 : Nat) (payload : List Word) :
    (s.slvFinish q j r d2 payload).fuses = s.fuses := by
  simp [Dev.slvFinish]

@[simp] theorem Dev.slvFail_fuses (q : Nat) (j : Job) (nm : Nm) (d2 : Nat) : (s.slvFail q j nm d2).fuses = s.fuses := by
  simp [Dev.slvFail]

@[simp] theorem Dev.slvChecked_fuses (q : Nat) (j : Job) {f : Dev → Dev} (hf : ∀ t, (f t).fuses = t.fuses) :
    (s.slvChecked q j f).fuses = s.fuses := by
  unfold Dev.slvChecked
  dsimp only
  repeat' split
  all_goals simp [hf]

@[simp] theorem Dev.slvRun_fuses (ops : List Nat) {f : Job → Dev → Dev} (hf : ∀ j t, (f j t).fuses = t.fuses) :
    (s.slvRun ops f).fuses = s.fuses := by
  unfold Dev.slvRun
  repeat' split
  all_goals simp [hf]

@[simp] theorem Dev.slvRead_fuses (c h : Nat) (l : List (Nat × Nat)) : (s.slvRead c h l).2.2.fuses = s.fuses := by
  induction l generalizing s with
  | nil => rfl
  | cons x l ih => simp [Dev.slvRead, ih]

@[simp] theorem Dev.slvWrite_fuses (c h : Nat) (l : List (Nat × List Word)) : (s.slvWrite c h l).fuses = s.fuses := by
  simp [Dev.slvWrite]

@[simp] theorem Dev.facWrite_fuses (j : Job) (x ld : List (List Word)) : (s.facWrite j x ld).fuses = s.fuses := by
  simp [Dev.facWrite]

@[simp] theorem Dev.facFloat_fuses (j : Job) (a b : List (List Word)) (range : Bool) : (s.facFloat j a b range).fuses = s.fuses := by
  simp [Dev.facFloat]

@[simp] theorem Dev.facFixed_fuses (j : Job) (q : List Nat) (a b : List (List Word)) : (s.facFixed j q a b).fuses = s.fuses := by
  simp [Dev.facFixed]

@[simp] theorem Dev.factor_fuses (j : Job) : (s.factor j).fuses = s.fuses := by
  simp [Dev.factor]

@[simp] theorem Dev.assemble_fuses (j : Job) : (s.assemble j).fuses = s.fuses := by
  simp only [Dev.assemble]
  repeat' split
  all_goals simp only [Dev.fuses_mk, Dev.sec_fuses, Dev.perf_fuses, Dev.slvWrite_fuses, Dev.slvFinish_fuses, Dev.slvFail_fuses,
    Dev.slvRead_fuses, Dev.drawWord_fuses]

@[simp] theorem Dev.triangulate_fuses (j : Job) : (s.triangulate j).fuses = s.fuses := by
  simp [Dev.triangulate]

@[simp] theorem Dev.trackSteps_fuses (j : Job) (cap : Nat) (l : List (List Word)) (n : Nat) :
    (s.trackSteps j cap l n).2.2.fuses = s.fuses := by
  induction l generalizing s n with
  | nil => rfl
  | cons u l ih => simp [Dev.trackSteps, ih]

@[simp] theorem Dev.trackUpdate_fuses (j : Job) : (s.trackUpdate j).fuses = s.fuses := by
  simp only [Dev.trackUpdate]
  repeat' split
  all_goals simp

@[simp] theorem Dev.slvHand_fuses (q : Nat) (j : Job) : (s.slvHand q j).fuses = s.fuses := by
  simp [Dev.slvHand]

@[simp] theorem Dev.slvAnnounce_fuses (q : Nat) (j : Job) : (s.slvAnnounce q j).fuses = s.fuses := by
  unfold Dev.slvAnnounce
  dsimp only
  split <;> simp

theorem Dev.slvStage_fuses {s t : Dev} {q : Nat} (h : s.slvStage q = some t) : t.fuses = s.fuses := by
  unfold Dev.slvStage at h
  repeat' split at h
  all_goals cases h
  all_goals simp

@[simp] theorem Dev.slvDone_fuses : (s.slvDone).fuses = s.fuses := by
  unfold Dev.slvDone
  cases h4 : s.slvStage 4 with
  | some t => exact Dev.slvStage_fuses h4
  | none =>
    cases h5 : s.slvStage 5 with
    | some t => simpa using Dev.slvStage_fuses h5
    | none => simp

@[simp] theorem Dev.solveOutDone_fuses (c seq : Nat) : (s.solveOutDone c seq).fuses = s.fuses := by
  rw [Dev.solveOutDone, foldl_fuses]
  intro s x
  split <;> simp

@[simp] theorem Dev.solveHere_fuses (c : Nat) (w : List Word) : (s.solveHere c w).fuses = s.fuses := by
  simp [Dev.solveHere]

@[simp] theorem Dev.solve_fuses (c : Nat) (w : List Word) : (s.solve c w).fuses = s.fuses := by
  simp [Dev.solve]

/-! ### Bundle -/

@[simp] theorem Dev.baStat_fuses : (s.baStat).fuses = s.fuses := by
  unfold Dev.baStat
  split <;> simp

@[simp] theorem Dev.setBundle_fuses (b : Option Bundle) : (s.setBundle b).fuses = s.fuses := by
  simp [Dev.setBundle]

@[simp] theorem Dev.freeWords_fuses (tag : Nat) : (s.freeWords tag).2.fuses = s.fuses := by
  simp [Dev.freeWords]

@[simp] theorem Dev.workFree_fuses (j : Job) : (s.workFree j).fuses = s.fuses := by
  simp [Dev.workFree]

@[simp] theorem Dev.bundleLeave_fuses (b : Bundle) : (s.bundleLeave b).fuses = s.fuses := by
  simp [Dev.bundleLeave]

@[simp] theorem Dev.bundleBegin_fuses (j : Job) : (s.bundleBegin j).fuses = s.fuses := by
  simp [Dev.bundleBegin]

@[simp] theorem Dev.bundleStart_fuses : (s.bundleStart).fuses = s.fuses := by
  unfold Dev.bundleStart
  split <;> simp

@[simp] theorem Dev.bundleEnd_fuses (j : Job) (b : Bundle) : (s.bundleEnd j b).fuses = s.fuses := by
  simp [Dev.bundleEnd]

@[simp] theorem Dev.bundleIter_fuses (j : Job) (b : Bundle) : (s.bundleIter j b).fuses = s.fuses := by
  simp [Dev.bundleIter]

@[simp] theorem Dev.shareRun_fuses (k : Nat) (b : Bundle) : (s.shareRun k b).fuses = s.fuses := by
  unfold Dev.shareRun
  dsimp only
  split <;> simp

@[simp] theorem Dev.sharesReady_fuses (b : Bundle) : (s.sharesReady b).fuses = s.fuses := by
  simp only [Dev.sharesReady]
  rw [Dev.pumpAll_fuses, foldl_fuses fun s k => ?_]
  · simp
  · split <;> simp

@[simp] theorem Dev.subop_fuses (j : Job) (b : Bundle) : (s.subop j b).fuses = s.fuses := by
  simp only [Dev.subop]
  repeat' split
  all_goals simp

@[simp] theorem Dev.bundleSubop_fuses : (s.bundleSubop).fuses = s.fuses := by
  fun_cases Dev.bundleSubop s <;> simp

/-! ### Venc -/

@[simp] theorem Dev.clipReply_fuses (by_ : JobBy) (st : Status) (id : Nat) : (s.clipReply by_ st id).fuses = s.fuses := by
  unfold Dev.clipReply
  split <;> simp

@[simp] theorem Dev.vencTake_fuses (q : Clip) : (s.vencTake q).2.fuses = s.fuses := by
  unfold Dev.vencTake
  split <;> simp

@[simp] theorem Dev.dropReq_fuses (n : Nat) : (s.dropReq n).fuses = s.fuses := by
  simp [Dev.dropReq]

@[simp] theorem Dev.clipPush_fuses (q : ClipReq) (masks : List Byte) : (s.clipPush q masks).fuses = s.fuses := by
  simp only [Dev.clipPush]
  repeat' split
  all_goals simp

@[simp] theorem Dev.pollReqs_fuses : (s.pollReqs).fuses = s.fuses := by
  rw [Dev.pollReqs, foldl_fuses]
  intro s x
  split <;> simp

@[simp] theorem Dev.clipSubmit_fuses (by_ : JobBy) (c : Nat) (d : List Byte) : (s.clipSubmit by_ c d).fuses = s.fuses := by
  simp only [Dev.clipSubmit]
  repeat' split
  all_goals simp

@[simp] theorem Dev.clipRequest_fuses (c : Nat) (w : List Word) : (s.clipRequest c w).fuses = s.fuses := by
  simp [Dev.clipRequest]

@[simp] theorem Dev.clipAnswer_fuses (id : Nat) (st : Status) : (s.clipAnswer id st).fuses = s.fuses := by
  unfold Dev.clipAnswer
  split <;> simp

@[simp] theorem Dev.clipTell_fuses (id : Nat) (st : Status) : (s.clipTell id st).fuses = s.fuses := by
  simp [Dev.clipTell]

@[simp] theorem Dev.clipArrive_fuses (id c camera : Nat) (timed : Bool) (d masks : List Byte) :
    (s.clipArrive id c camera timed d masks).fuses = s.fuses := by
  unfold Dev.clipArrive
  dsimp only
  split <;> simp

@[simp] theorem Dev.modClip_fuses (id : Nat) (f : Clip → Clip) : (s.modClip id f).fuses = s.fuses := by
  simp [Dev.modClip]

@[simp] theorem Dev.promote_fuses : (s.promote).fuses = s.fuses := by
  unfold Dev.promote
  split <;> simp

@[simp] theorem Dev.acceptClip_fuses (q : Clip) : (s.acceptClip q).fuses = s.fuses := by
  unfold Dev.acceptClip
  split <;> simp

@[simp] theorem Dev.clipStart_fuses : (s.clipStart).fuses = s.fuses := by
  simp only [Dev.clipStart]
  repeat' split
  all_goals simp

@[simp] theorem Dev.clipExpiry_fuses (id : Nat) : (s.clipExpiry id).fuses = s.fuses := by
  simp [Dev.clipExpiry]

@[simp] theorem Dev.pollClip_fuses : (s.pollClip).fuses = s.fuses := by
  simp only [Dev.pollClip]
  repeat' split
  all_goals simp

@[simp] theorem Dev.clipFlush_fuses : (s.clipFlush).fuses = s.fuses := by
  unfold Dev.clipFlush
  split <;> simp

@[simp] theorem Dev.encodeNext_fuses (q : Clip) (p : Pic) (h bytes qp : Nat) : (s.encodeNext q p h bytes qp).fuses = s.fuses := by
  simp [Dev.encodeNext]

@[simp] theorem Dev.encodePicture_fuses (bytes qp : Nat) : (s.encodePicture bytes qp).fuses = s.fuses := by
  fun_cases Dev.encodePicture s bytes qp <;> simp +zetaDelta

@[simp] theorem Dev.clipIv_fuses : (s.clipIv).2.fuses = s.fuses := by
  unfold Dev.clipIv
  dsimp only
  split <;> simp

@[simp] theorem Dev.clipObject_fuses (q : Clip) : (s.clipObject q).2.fuses = s.fuses := by
  simp [Dev.clipObject]

@[simp] theorem Dev.destWrite_fuses (c dest : Nat) (bs : List Byte) : (s.destWrite c dest bs).fuses = s.fuses := by
  fun_cases Dev.destWrite s c dest bs <;> simp

@[simp] theorem Dev.clipEnd_fuses (q : Clip) : (s.clipEnd q).fuses = s.fuses := by
  simp [Dev.clipEnd]

@[simp] theorem Dev.clipCopy_fuses (q : Clip) (h : Nat) : (s.clipCopy q h).fuses = s.fuses := by
  have ho := s.clipObject_fuses q
  unfold Dev.clipCopy
  split
  rename_i obj t e
  rw [e] at ho
  dsimp only at ho ⊢
  split
  · simp [ho]
  · split <;> simp [ho]

@[simp] theorem Dev.clipClose_fuses : (s.clipClose).fuses = s.fuses := by
  fun_cases Dev.clipClose s <;> simp +zetaDelta

@[simp] theorem Dev.clipWritten_fuses (id : Nat) : (s.clipWritten id).fuses = s.fuses := by
  simp [Dev.clipWritten]

@[simp] theorem Dev.clipsLost_fuses (u : Nat) : (s.clipsLost u).fuses = s.fuses := by
  simp [Dev.clipsLost]

@[simp] theorem Dev.clipReported_fuses (id : Nat) : (s.clipReported id).fuses = s.fuses := by
  simp [Dev.clipReported]

@[simp] theorem Dev.recordTaken_fuses (c : Nat) : (s.recordTaken c).fuses = s.fuses := by
  unfold Dev.recordTaken
  dsimp only
  split <;> simp

end Sys2Proof.Machine
end

