-- ==== Sys2Proof/Proofs/FusesChain.lean ====
section
/-! PROOFS. No operation of this part, timetable, power, chain and registers below a register write, changes the fuses of R404. -/

namespace Sys2Proof.Machine

variable (s : Dev)

/-! ### Timetable -/

@[simp] theorem Dev.launchFault_fuses (e : Nat) (nm : Nm) : (s.launchFault e nm).fuses = s.fuses := by
  simp [Dev.launchFault]

@[simp] theorem Dev.instantTake_fuses (r k : Nat) (x : Stream) (i lo hi : Int) : (s.instantTake r k x i lo hi).fuses = s.fuses := by
  unfold Dev.instantTake
  dsimp only
  split <;> simp

@[simp] theorem Dev.launchClose_fuses (e t : Nat) : (s.launchClose e t).fuses = s.fuses := by
  simp only [Dev.launchClose]
  rw [Dev.fuses_ite, Dev.coachAll_fuses, Dev.perf_fuses, Dev.pictureClose_fuses, foldl_fuses fun s y => ?_]
  · simp
  · split <;> simp

@[simp] theorem Dev.launchPpu_fuses (e t : Nat) : (s.launchPpu e t).fuses = s.fuses := by
  unfold Dev.launchPpu
  dsimp only
  split <;> simp

@[simp] theorem Dev.launchClip_fuses (e : Nat) : (s.launchClip e).fuses = s.fuses := by
  unfold Dev.launchClip
  dsimp only
  split <;> simp

@[simp] theorem Dev.launch_fuses (e t : Nat) : (s.launch e t).fuses = s.fuses := by
  unfold Dev.launch
  dsimp only
  split <;> simp

@[simp] theorem Dev.entAdvance_fuses (e n : Nat) : (s.entAdvance e n).fuses = s.fuses := by
  simp [Dev.entAdvance]

@[simp] theorem Dev.lateHandle_fuses (e : Nat) : (s.lateHandle e).fuses = s.fuses := by
  unfold Dev.lateHandle
  dsimp only
  split <;> simp

@[simp] theorem Dev.retryMissed_fuses (e : Nat) : (s.retryMissed e).fuses = s.fuses := by
  unfold Dev.retryMissed
  dsimp only
  split <;> simp

@[simp] theorem Dev.entRun_fuses (e : Nat) : (s.entRun e).fuses = s.fuses := by
  simp [Dev.entRun]

@[simp] theorem Dev.entRow_fuses (e act : Nat) : (s.entRow e act).fuses = s.fuses := by
  simp [Dev.entRow]

@[simp] theorem Dev.pulseEnd_fuses : (s.pulseEnd).fuses = s.fuses := by
  simp [Dev.pulseEnd]

@[simp] theorem Dev.lateRetry_fuses (e : Nat) : (s.lateRetry e).fuses = s.fuses := by
  unfold Dev.lateRetry
  dsimp only
  split <;> simp

@[simp] theorem Dev.allLate_fuses : (s.allLate).fuses = s.fuses := by
  simp [Dev.allLate]

@[simp] theorem Dev.entFlush_fuses (e fuel : Nat) : (s.entFlush e fuel).fuses = s.fuses := by
  fun_induction Dev.entFlush s e fuel <;> simp_all

@[simp] theorem Dev.entPut_fuses (e : Nat) (x : Ent) : (s.entPut e x).fuses = s.fuses := by
  simp [Dev.entPut]

@[simp] theorem Dev.armHere_fuses (c : Nat) (w : List Word) : (s.armHere c w).fuses = s.fuses := by
  simp [Dev.armHere]

@[simp] theorem Dev.ttArm_fuses (c : Nat) (w : List Word) : (s.ttArm c w).fuses = s.fuses := by
  simp [Dev.ttArm]

@[simp] theorem Dev.disarmHere_fuses (c : Nat) (w : List Word) : (s.disarmHere c w).fuses = s.fuses := by
  simp [Dev.disarmHere]

@[simp] theorem Dev.ttDisarm_fuses (c : Nat) (w : List Word) : (s.ttDisarm c w).fuses = s.fuses := by
  simp [Dev.ttDisarm]

@[simp] theorem Dev.entWrite_fuses (src : Src) (d : Nat) (v : Word) : (s.entWrite src d v).fuses = s.fuses := by
  fun_cases Dev.entWrite s src d v <;> simp

@[simp] theorem Dev.syncIn_fuses : (s.syncIn).fuses = s.fuses := by
  simp [Dev.syncIn]

@[simp] theorem Dev.timeStep_fuses (d : Int) : (s.timeStep d).fuses = s.fuses := by
  simp [Dev.timeStep]

@[simp] theorem Dev.stepWrite_fuses (src : Src) (v : Word) : (s.stepWrite src v).fuses = s.fuses := by
  simp [Dev.stepWrite]

@[simp] theorem Dev.timeNowRead_fuses : (s.timeNowRead).2.fuses = s.fuses := by
  simp [Dev.timeNowRead]

@[simp] theorem Dev.servo_fuses (e : Int) (step : Nat) : (s.servo e step).fuses = s.fuses := by
  simp [Dev.servo]

@[simp] theorem Dev.timeSend_fuses : (s.timeSend).fuses = s.fuses := by
  unfold Dev.timeSend
  split
  · simp
  · split <;> simp

@[simp] theorem Dev.timeRx_fuses (p origin corr delay : Nat) : (s.timeRx p origin corr delay).fuses = s.fuses := by
  simp [Dev.timeRx]

@[simp] theorem Dev.timeLoss_fuses : (s.timeLoss).fuses = s.fuses := by
  simp [Dev.timeLoss]

@[simp] theorem Dev.ptmResp_fuses (master : Nat) : (s.ptmResp master).fuses = s.fuses := by
  simp [Dev.ptmResp]

@[simp] theorem Dev.timeCtlWrite_fuses (v : Word) : (s.timeCtlWrite v).fuses = s.fuses := by
  simp [Dev.timeCtlWrite]

/-! ### Power -/

@[simp] theorem Dev.loseRegs_fuses (i : Nat) : (s.loseRegs i).fuses = s.fuses := by
  simp [Dev.loseRegs]

@[simp] theorem Dev.loseCore_fuses (k : Nat) (retain : Bool) : (s.loseCore k retain).fuses = s.fuses := by
  simp [Dev.loseCore]

@[simp] theorem Dev.loseCodec_fuses : (s.loseCodec).fuses = s.fuses := by
  simp [Dev.loseCodec]

@[simp] theorem Dev.losePixel_fuses : (s.losePixel).fuses = s.fuses := by
  simp [Dev.losePixel]

@[simp] theorem Dev.glkOff_fuses (p : Nat) (sleep : Bool) : (s.glkOff p sleep).fuses = s.fuses := by
  simp [Dev.glkOff]

@[simp] theorem Dev.gate_fuses (i : Nat) : (s.gate i).fuses = s.fuses := by
  simp [Dev.gate]

@[simp] theorem Dev.ungate_fuses (i : Nat) : (s.ungate i).fuses = s.fuses := by
  simp [Dev.ungate]

@[simp] theorem Dev.islCtlWrite_fuses (i : Nat) (v : Word) : (s.islCtlWrite i v).fuses = s.fuses := by
  simp [Dev.islCtlWrite]

@[simp] theorem Dev.capEvent_fuses (unmet : Bool) : (s.capEvent unmet).fuses = s.fuses := by
  simp [Dev.capEvent]

@[simp] theorem Dev.governor_fuses (p : Nat) : (s.governor p).fuses = s.fuses := by
  unfold Dev.governor
  extract_lets q uj s1 old s2 old' was wasUnmet
  have h1 : s1.fuses = s.fuses := by simp [s1]
  have h2 : s2.fuses = s.fuses := (Dev.withPwr_fuses ..).trans h1
  split
  · exact h2
  · split
    · simp [h2]
    · split
      · simp [h2]
      · split
        extract_lets s3 s4 s5 s6
        have h3 : s3.fuses = s.fuses := (Dev.withPwr_fuses ..).trans h2
        have h4 : s4.fuses = s.fuses := by simp [s4, h3]
        have h5 : s5.fuses = s.fuses := by simp [s5, h4]
        have h6 : s6.fuses = s.fuses := by simp [s6, h5]
        simp [h6]

@[simp] theorem Dev.capWrite_fuses (v : Word) : (s.capWrite v).fuses = s.fuses := by
  simp [Dev.capWrite]

@[simp] theorem Dev.lvlWrite_fuses (v : Word) : (s.lvlWrite v).fuses = s.fuses := by
  simp [Dev.lvlWrite]

@[simp] theorem Dev.profileWrite_fuses (v : Word) : (s.profileWrite v).fuses = s.fuses := by
  unfold Dev.profileWrite
  split <;> simp

@[simp] theorem Dev.pwrCtlWrite_fuses (v : Word) : (s.pwrCtlWrite v).fuses = s.fuses := by
  simp [Dev.pwrCtlWrite]

@[simp] theorem Dev.thermTrip_fuses (i : Nat) (t : Int) : (s.thermTrip i t).fuses = s.fuses := by
  simp [Dev.thermTrip]

@[simp] theorem Dev.thermSample_fuses (l : List Int) : (s.thermSample l).fuses = s.fuses := by
  simp only [Dev.thermSample]
  repeat' split
  all_goals simp

@[simp] theorem Dev.freeze_fuses : (s.freeze).fuses = s.fuses := by
  unfold Dev.freeze
  simp

@[simp] theorem Dev.unfreeze_fuses : (s.unfreeze).fuses = s.fuses := by
  unfold Dev.unfreeze
  simp

@[simp] theorem Dev.chainSleep_fuses : (s.chainSleep).fuses = s.fuses := by
  simp [Dev.chainSleep]

@[simp] theorem Dev.chainWake_fuses : (s.chainWake).fuses = s.fuses := by
  simp [Dev.chainWake]

@[simp] theorem Dev.sleepDrained_fuses : (s.sleepDrained).fuses = s.fuses := by
  simp [Dev.sleepDrained]

@[simp] theorem Dev.sleepReq_fuses : (s.sleepReq).fuses = s.fuses := by
  simp [Dev.sleepReq]

@[simp] theorem Dev.workerWake_fuses : (s.workerWake).fuses = s.fuses := by
  simp [Dev.workerWake]

@[simp] theorem Dev.fumEnter_fuses (c : Nat) : (s.fumEnter c).fuses = s.fuses := by
  simp [Dev.fumEnter]

@[simp] theorem Dev.fumExit_fuses : (s.fumExit).fuses = s.fuses := by
  simp [Dev.fumExit]

@[simp] theorem Dev.stateReq_fuses (v : Word) : (s.stateReq v).fuses = s.fuses := by
  simp only [Dev.stateReq]
  repeat' split
  all_goals simp

@[simp] theorem Dev.d3Enter_fuses : (s.d3Enter).fuses = s.fuses := by
  simp [Dev.d3Enter]

@[simp] theorem Dev.d3Exit_fuses : (s.d3Exit).fuses = s.fuses := by
  simp only [Dev.d3Exit]
  split
  · rfl
  · rw [foldl_fuses (by simp), foldl_fuses (by simp)]
    simp

@[simp] theorem Dev.wake_fuses (bit : Nat) : (s.wake bit).fuses = s.fuses := by
  simp only [Dev.wake]
  repeat' split
  all_goals simp

@[simp] theorem Dev.gpioEdge_fuses (pin : Nat) (rising : Bool) : (s.gpioEdge pin rising).fuses = s.fuses := by
  simp [Dev.gpioEdge]

@[simp] theorem Dev.wakeTimer_fuses : (s.wakeTimer).fuses = s.fuses := by
  simp only [Dev.wakeTimer]
  repeat' split
  all_goals simp

/-! ### Units -/

@[simp] theorem Dev.setUnit_fuses (u : Nat) (x : UnitInfo) : (s.setUnit u x).fuses = s.fuses := by
  simp [Dev.setUnit]

@[simp] theorem Dev.quarantined_fuses (a serial reason : Nat) : (s.quarantined a serial reason).fuses = s.fuses := by
  simp [Dev.quarantined]

@[simp] theorem Dev.clearStreams_fuses (u : Nat) : (s.clearStreams u).fuses = s.fuses := by
  simp [Dev.clearStreams]

@[simp] theorem Dev.enterQuar_fuses (u serial slot : Nat) : (s.enterQuar u serial slot).fuses = s.fuses := by
  simp [Dev.enterQuar]

@[simp] theorem Dev.installKey_fuses (p salt : Nat) : (s.installKey p salt).fuses = s.fuses := by
  simp [Dev.installKey]

@[simp] theorem Dev.useKey_fuses (p : Nat) : (s.useKey p).fuses = s.fuses := by
  simp [Dev.useKey]

@[simp] theorem Dev.deliverKeys_fuses (l : List (Nat × Nat)) : (s.deliverKeys l).fuses = s.fuses := by
  simp [Dev.deliverKeys]

@[simp] theorem Dev.keyAll_fuses : (s.keyAll).fuses = s.fuses := by
  simp [Dev.keyAll]

@[simp] theorem Dev.keysReady_fuses : (s.keysReady).fuses = s.fuses := by
  simp [Dev.keysReady]

@[simp] theorem Dev.switchSend_fuses : (s.switchSend).fuses = s.fuses := by
  unfold Dev.switchSend
  split <;> simp

@[simp] theorem Dev.epochBegin_fuses : (s.epochBegin).fuses = s.fuses := by
  simp [Dev.epochBegin]

@[simp] theorem Dev.epochChange_fuses : (s.epochChange).fuses = s.fuses := by
  simp [Dev.epochChange]

@[simp] theorem Dev.checkJoin_fuses : (s.checkJoin).fuses = s.fuses := by
  simp [Dev.checkJoin]

@[simp] theorem Dev.routesAck_fuses (u e : Nat) : (s.routesAck u e).fuses = s.fuses := by
  unfold Dev.routesAck
  split <;> simp

@[simp] theorem Dev.drained_fuses (u : Nat) : (s.drained u).fuses = s.fuses := by
  simp [Dev.drained]

@[simp] theorem Dev.drainCheck_fuses : (s.drainCheck).fuses = s.fuses := by
  unfold Dev.drainCheck
  split <;> simp

@[simp] theorem Dev.remoteLost_fuses (u a : Nat) : (s.remoteLost u a).fuses = s.fuses := by
  simp [Dev.remoteLost]

@[simp] theorem Dev.txLost_fuses (t : Txn) : (s.txLost t).fuses = s.fuses := by
  unfold Dev.txLost
  split <;> simp

@[simp] theorem Dev.txAllLost_fuses (u : Nat) : (s.txAllLost u).fuses = s.fuses := by
  simp [Dev.txAllLost]

@[simp] theorem Dev.slotOff_fuses (u : Nat) : (s.slotOff u).fuses = s.fuses := by
  fun_cases Dev.slotOff s u <;> simp

@[simp] theorem Dev.partsLost_fuses (u : Nat) : (s.partsLost u).fuses = s.fuses := by
  simp [Dev.partsLost]

@[simp] theorem Dev.unitLost_fuses (u reason : Nat) : (s.unitLost u reason).fuses = s.fuses := by
  simp [Dev.unitLost]

@[simp] theorem Dev.lossCheck_fuses (n : Nat) : (s.lossCheck n).fuses = s.fuses := by
  induction n generalizing s with
  | zero => rfl
  | succ n ih =>
    simp only [Dev.lossCheck]
    split <;> simp [ih]

@[simp] theorem Dev.shunUnit_fuses (u : Nat) : (s.shunUnit u).fuses = s.fuses := by
  simp [Dev.shunUnit]

@[simp] theorem Dev.aliveTimeout_fuses (u : Nat) : (s.aliveTimeout u).fuses = s.fuses := by
  simp [Dev.aliveTimeout]

@[simp] theorem Dev.wakeTimeout_fuses (u : Nat) : (s.wakeTimeout u).fuses = s.fuses := by
  simp [Dev.wakeTimeout]

@[simp] theorem Dev.quarTimeout_fuses (u : Nat) : (s.quarTimeout u).fuses = s.fuses := by
  simp [Dev.quarTimeout]

@[simp] theorem Dev.epochUnits_fuses : (s.epochUnits).fuses = s.fuses := by
  simp [Dev.epochUnits]

@[simp] theorem Dev.ownState_fuses (mask : Nat) : (s.ownState mask).fuses = s.fuses := by
  simp [Dev.ownState]

@[simp] theorem Dev.reissue_fuses : (s.reissue).fuses = s.fuses := by
  simp [Dev.reissue]

@[simp] theorem Dev.epochSwitch_fuses : (s.epochSwitch).fuses = s.fuses := by
  unfold Dev.epochSwitch
  split <;> simp

@[simp] theorem Dev.slotCtlWrite_fuses (k : Nat) (v : Word) : (s.slotCtlWrite k v).fuses = s.fuses := by
  fun_cases Dev.slotCtlWrite s k v <;> simp +zetaDelta

@[simp] theorem Dev.admitWrite_fuses (v : Word) : (s.admitWrite v).fuses = s.fuses := by
  simp [Dev.admitWrite]

@[simp] theorem Dev.resWrite_fuses (v : Word) : (s.resWrite v).fuses = s.fuses := by
  simp [Dev.resWrite]

@[simp] theorem Dev.pollSlot_fuses (k : Nat) (x : SlotPoll) : (s.pollSlot k x).fuses = s.fuses := by
  unfold Dev.pollSlot
  extract_lets st ctl was now btn s1 s2 s3 s4 s5 s6 s7
  have h7 : s7.fuses = s.fuses := by simp [s7, s6, s5, s4, s3, s2, s1]
  split
  · split <;> simp [h7]
  · exact h7

/-! ### Enum -/

@[simp] theorem Dev.waySend_fuses (p e : Nat) (b : List Byte) : (s.waySend p e b).fuses = s.fuses := by
  simp [Dev.waySend]

@[simp] theorem Dev.checkRoles_fuses (p : Nat) : (s.checkRoles p).fuses = s.fuses := by
  simp only [Dev.checkRoles]
  repeat' split
  all_goals simp

@[simp] theorem Dev.sendJoin_fuses (p slot : Nat) : (s.sendJoin p slot).fuses = s.fuses := by
  simp [Dev.sendJoin]

@[simp] theorem Dev.reportLink_fuses (p : Nat) : (s.reportLink p).fuses = s.fuses := by
  simp [Dev.reportLink]

@[simp] theorem Dev.takeAddr_fuses (p e a : Nat) (sers : List Nat) : (s.takeAddr p e a sers).fuses = s.fuses := by
  unfold Dev.takeAddr
  extract_lets s1 c s3 s4
  have h1 : s1.fuses = s.fuses := by simp [s1]
  have h3 : s3.fuses = s1.fuses := Dev.withChain_fuses ..
  have h4 : s4.fuses = s3.fuses := by simp [s4]
  simp [h4, h3, h1]

@[simp] theorem Dev.wayOn_fuses (p e : Nat) (b : List Byte) : (s.wayOn p e b).fuses = s.fuses := by
  simp [Dev.wayOn]

@[simp] theorem Dev.wayFresh_fuses (p e : Nat) (b : List Byte) : (s.wayFresh p e b).fuses = s.fuses := by
  unfold Dev.wayFresh
  dsimp only
  split <;> simp

@[simp] theorem Dev.wayMine_fuses (p e : Nat) (b : List Byte) : (s.wayMine p e b).fuses = s.fuses := by
  simp only [Dev.wayMine]
  repeat' split
  all_goals simp

@[simp] theorem Dev.wayWorker_fuses (p e : Nat) (b : List Byte) : (s.wayWorker p e b).fuses = s.fuses := by
  unfold Dev.wayWorker
  split
  · extract_lets s1 c s2 s3
    have h1 : s1.fuses = s.fuses := by simp [s1]
    have h2 : s2.fuses = s.fuses := (Dev.withChain_fuses ..).trans h1
    have h3 : s3.fuses = s.fuses := by simp [s3, h2]
    simp [h3]
  · repeat' split
    all_goals simp

@[simp] theorem Dev.walkOn_fuses (p : Nat) (sers slots : List Nat) : (s.walkOn p sers slots).fuses = s.fuses := by
  simp [Dev.walkOn]

@[simp] theorem Dev.walkEnd_fuses (b : List Byte) : (s.walkEnd b).fuses = s.fuses := by
  simp [Dev.walkEnd]

@[simp] theorem Dev.wayMgr_fuses (p : Nat) (b : List Byte) : (s.wayMgr p b).fuses = s.fuses := by
  simp [Dev.wayMgr]

@[simp] theorem Dev.waybill_fuses (p : Nat) (f : Frame) : (s.waybill p f).fuses = s.fuses := by
  simp [Dev.waybill]

@[simp] theorem Dev.joinPeer_fuses (p serial : Nat) : (s.joinPeer p serial).fuses = s.fuses := by
  unfold Dev.joinPeer
  split <;> simp

@[simp] theorem Dev.joinFrom_fuses (u : Nat) (b : List Byte) : (s.joinFrom u b).fuses = s.fuses := by
  fun_cases Dev.joinFrom s u b <;> simp

@[simp] theorem Dev.peerSet_fuses (p : Nat) (r : PeerRep) : (s.peerSet p r).fuses = s.fuses := by
  simp [Dev.peerSet]

@[simp] theorem Dev.linkTrained_fuses (p : Nat) (r : PeerRep) : (s.linkTrained p r).fuses = s.fuses := by
  simp [Dev.linkTrained]

@[simp] theorem Dev.linkKnown_fuses (u p serial : Nat) : (s.linkKnown u p serial).fuses = s.fuses := by
  fun_cases Dev.linkKnown s u p serial <;> simp +zetaDelta

@[simp] theorem Dev.linkFollow_fuses (p : Nat) (r : PeerRep) : (s.linkFollow p r).fuses = s.fuses := by
  simp [Dev.linkFollow]

@[simp] theorem Dev.linkUp_fuses (p : Nat) (r : PeerRep) : (s.linkUp p r).fuses = s.fuses := by
  simp [Dev.linkUp]

@[simp] theorem Dev.linkGone_fuses (p : Nat) : (s.linkGone p).fuses = s.fuses := by
  simp [Dev.linkGone]

@[simp] theorem Dev.glkCtlWrite_fuses (p : Nat) (v : Word) : (s.glkCtlWrite p v).fuses = s.fuses := by
  simp [Dev.glkCtlWrite]

@[simp] theorem Dev.holdOwn_fuses (p : Nat) : (s.holdOwn p).fuses = s.fuses := by
  simp [Dev.holdOwn]

@[simp] theorem Dev.holdMgr_fuses (u p : Nat) : (s.holdMgr u p).fuses = s.fuses := by
  simp [Dev.holdMgr]

@[simp] theorem Dev.lossHold_fuses (u p : Nat) : (s.lossHold u p).fuses = s.fuses := by
  simp [Dev.lossHold]

@[simp] theorem Dev.aliveTick_fuses : (s.aliveTick).fuses = s.fuses := by
  simp [Dev.aliveTick]

@[simp] theorem Dev.keyRollover_fuses (u p : Nat) : (s.keyRollover u p).fuses = s.fuses := by
  simp [Dev.keyRollover]

/-! ### Sec -/

@[simp] theorem Dev.lcRefuse_fuses (why : Nat) : (s.lcRefuse why).fuses = s.fuses := by
  simp [Dev.lcRefuse]

@[simp] theorem Dev.lcDone_fuses : (s.lcDone).fuses = s.fuses := by
  simp [Dev.lcDone]

@[simp] theorem Dev.lcProvision_fuses (auth : Bool) (owner dbgMax ev : Nat) (kek : Bool) :
    (s.lcProvision auth owner dbgMax ev kek).fuses = s.fuses := by
  simp [Dev.lcProvision]

@[simp] theorem Dev.lcSeal_fuses (auth : Bool) : (s.lcSeal auth).fuses = s.fuses := by
  simp [Dev.lcSeal]

@[simp] theorem Dev.resetSlots_fuses (zero : Bool) : (s.resetSlots zero).fuses = s.fuses := by
  simp [Dev.resetSlots]

@[simp] theorem Dev.zeroAs_fuses : (s.zeroAs).fuses = s.fuses := by
  simp [Dev.zeroAs]

@[simp] theorem Dev.lcDecom_fuses (auth : Bool) : (s.lcDecom auth).fuses = s.fuses := by
  simp [Dev.lcDecom]

@[simp] theorem Dev.chalRead_fuses : (s.chalRead).2.fuses = s.fuses := by
  simp [Dev.chalRead]

@[simp] theorem Dev.dbgRefuse_fuses (why : Nat) : (s.dbgRefuse why).fuses = s.fuses := by
  simp [Dev.dbgRefuse]

@[simp] theorem Dev.dbgUnlock_fuses (tap : Bool) (tok : List Byte) (sig : Bool) : (s.dbgUnlock tap tok sig).fuses = s.fuses := by
  simp [Dev.dbgUnlock]

@[simp] theorem Dev.dbgZero_fuses (lv : Nat) : (s.dbgZero lv).fuses = s.fuses := by
  simp [Dev.dbgZero]

@[simp] theorem Dev.dbgOpened_fuses : (s.dbgOpened).fuses = s.fuses := by
  unfold Dev.dbgOpened
  split <;> simp

@[simp] theorem Dev.dbgLock_fuses (v : Word) : (s.dbgLock v).fuses = s.fuses := by
  simp [Dev.dbgLock]

@[simp] theorem Dev.dbgCore_fuses (k : Nat) : (s.dbgCore k).fuses = s.fuses := by
  simp [Dev.dbgCore]

@[simp] theorem Dev.dbgRead_fuses (req : Nat) (core : Option Nat) (a len : Nat) : (s.dbgRead req core a len).fuses = s.fuses := by
  simp only [Dev.dbgRead]
  repeat' split
  all_goals simp

@[simp] theorem Dev.spdmAnswer_fuses (code : Nat) (x : List Nat) : (s.spdmAnswer code x).fuses = s.fuses := by
  unfold Dev.spdmAnswer
  split <;> simp

@[simp] theorem Dev.spdm_fuses (code : Nat) (x : List Nat) : (s.spdm code x).fuses = s.fuses := by
  simp [Dev.spdm]

@[simp] theorem Dev.doeRelease_fuses : (s.doeRelease).fuses = s.fuses := by
  unfold Dev.doeRelease
  split <;> simp

/-! ### Mgmt -/

@[simp] theorem Dev.sensorCheck_fuses : (s.sensorCheck).fuses = s.fuses := by
  unfold Dev.sensorCheck
  refine foldl_fuses (fun s k => ?_) _ _
  dsimp only
  repeat' split
  all_goals simp

@[simp] theorem Dev.updFail_fuses (why : Nat) : (s.updFail why).fuses = s.fuses := by
  simp [Dev.updFail]

@[simp] theorem Dev.watchdog_fuses : (s.watchdog).fuses = s.fuses := by
  simp [Dev.watchdog]

@[simp] theorem Dev.restarted_fuses (img : ImageCheck) : (s.restarted img).fuses = s.fuses := by
  simp [Dev.restarted]

@[simp] theorem Dev.imageIn_fuses (img : ImageCheck) : (s.imageIn img).fuses = s.fuses := by
  simp [Dev.imageIn]

@[simp] theorem Dev.updStart_fuses : (s.updStart).fuses = s.fuses := by
  simp [Dev.updStart]

@[simp] theorem Dev.updDone_fuses (img : ImageCheck) (flashOk : Bool) : (s.updDone img flashOk).fuses = s.fuses := by
  simp [Dev.updDone]

@[simp] theorem Dev.smbRead_fuses (code : Nat) (data : List Byte) (withPec : Bool) : (s.smbRead code data withPec).fuses = s.fuses := by
  simp [Dev.smbRead]

@[simp] theorem Dev.alertClear_fuses (v : Word) : (s.alertClear v).fuses = s.fuses := by
  simp [Dev.alertClear]

@[simp] theorem Dev.smbClear_fuses (v : Word) (p : Option Byte) : (s.smbClear v p).fuses = s.fuses := by
  simp [Dev.smbClear]

@[simp] theorem Dev.alertResponse_fuses : (s.alertResponse).fuses = s.fuses := by
  simp [Dev.alertResponse]

@[simp] theorem Dev.mctpSay_fuses (first : Bool) (r : MgmtReply) : (s.mctpSay first r).fuses = s.fuses := by
  simp [Dev.mctpSay]

@[simp] theorem Dev.setEid_fuses (eid : Nat) : (s.setEid eid).fuses = s.fuses := by
  simp [Dev.setEid]

@[simp] theorem Dev.sensorRead_fuses (id : Nat) : (s.sensorRead id).fuses = s.fuses := by
  simp [Dev.sensorRead]

@[simp] theorem Dev.pdr_fuses (h : Nat) : (s.pdr h).fuses = s.fuses := by
  unfold Dev.pdr
  split <;> simp

@[simp] theorem Dev.setReceiver_fuses (eid : Nat) : (s.setReceiver eid).fuses = s.fuses := by
  simp [Dev.setReceiver]

/-! ### RegRead -/

theorem Dev.openReg_fuses {s t : Dev} {off : Nat} {v : Word} (h : s.openReg off = some (v, t)) : t.fuses = s.fuses := by
  unfold Dev.openReg at h
  dsimp only at h
  repeat' split at h
  all_goals cases h
  all_goals simp

@[simp] theorem Dev.regClear_fuses (off : Nat) : (s.regClear off).fuses = s.fuses := by
  fun_cases Dev.regClear s off <;> simp

@[simp] theorem Dev.regRead_fuses (off : Nat) : (s.regRead off).2.fuses = s.fuses := by
  unfold Dev.regRead
  split
  · rfl
  · split
    · simp
    · split
      · simp
      · dsimp only
        split
        · rfl
        · split
          · simp
          · split
            · simp
            · cases h : s.openReg off with
              | some r => simp [Dev.openReg_fuses h]
              | none => simp

/-! ### Regs -/

@[simp] theorem Dev.irqWritten_fuses (page o : Nat) (v : Word) : (s.irqWritten page o v).fuses = s.fuses := by
  simp [Dev.irqWritten]

@[simp] theorem Dev.irqStatWrite_fuses (page : Nat) (v : Word) : (s.irqStatWrite page v).fuses = s.fuses := by
  simp [Dev.irqStatWrite]

@[simp] theorem Dev.irqEnWrite_fuses (page : Nat) (v : Word) : (s.irqEnWrite page v).fuses = s.fuses := by
  simp [Dev.irqEnWrite]

@[simp] theorem Dev.irqSetWrite_fuses (page : Nat) (v : Word) : (s.irqSetWrite page v).fuses = s.fuses := by
  simp [Dev.irqSetWrite]

@[simp] theorem Dev.captWrite_fuses (page : Nat) (v : Word) : (s.captWrite page v).fuses = s.fuses := by
  simp [Dev.captWrite]

@[simp] theorem Dev.srstRegs_fuses (page : Nat) : (s.srstRegs page).fuses = s.fuses := by
  simp [Dev.srstRegs]

@[simp] theorem Dev.failCtxs_fuses (l : List Nat) (blk core : Nat) : (s.failCtxs l blk core).fuses = s.fuses := by
  simp [Dev.failCtxs]

@[simp] theorem Dev.srstVdec_fuses (n : Nat) : (s.srstVdec n).fuses = s.fuses := by
  simp [Dev.srstVdec]

@[simp] theorem Dev.srstVenc_fuses : (s.srstVenc).fuses = s.fuses := by
  simp [Dev.srstVenc]

@[simp] theorem Dev.srstJobs_fuses (q : Nat) : (s.srstJobs q).fuses = s.fuses := by
  simp only [Dev.srstJobs]
  repeat' split
  all_goals simp

@[simp] theorem Dev.srstCore_fuses (k : Nat) : (s.srstCore k).fuses = s.fuses := by
  simp [Dev.srstCore]

@[simp] theorem Dev.srstSched_fuses : (s.srstSched).fuses = s.fuses := by
  simp [Dev.srstSched]

@[simp] theorem Dev.srstHif_fuses : (s.srstHif).fuses = s.fuses := by
  simp [Dev.srstHif]

@[simp] theorem Dev.srstChain_fuses : (s.srstChain).fuses = s.fuses := by
  simp [Dev.srstChain]

@[simp] theorem Dev.srstPwr_fuses : (s.srstPwr).fuses = s.fuses := by
  simp [Dev.srstPwr]

@[simp] theorem Dev.srstWork_fuses (page : Nat) : (s.srstWork page).fuses = s.fuses := by
  simp [Dev.srstWork]

@[simp] theorem Dev.srstStart_fuses (page : Nat) : (s.srstStart page).fuses = s.fuses := by
  simp [Dev.srstStart]

@[simp] theorem Dev.blkBack_fuses (page : Nat) : (s.blkBack page).fuses = s.fuses := by
  simp [Dev.blkBack]

@[simp] theorem Dev.ctlStore_fuses (page w : Nat) : (s.ctlStore page w).fuses = s.fuses := by
  simp [Dev.ctlStore]

@[simp] theorem Dev.ctlWrite_fuses (page : Nat) (v : Word) : (s.ctlWrite page v).fuses = s.fuses := by
  simp [Dev.ctlWrite]

@[simp] theorem Dev.srstEnd_fuses (page : Nat) : (s.srstEnd page).fuses = s.fuses := by
  simp [Dev.srstEnd]

@[simp] theorem Dev.quiesceEnd_fuses (page : Nat) : (s.quiesceEnd page).fuses = s.fuses := by
  simp [Dev.quiesceEnd]

@[simp] theorem Dev.hdrWrite_fuses (off : Nat) (v : Word) : (s.hdrWrite off v).fuses = s.fuses := by
  simp [Dev.hdrWrite]

@[simp] theorem Dev.isoSet_fuses (v : Word) : (s.isoSet v).fuses = s.fuses := by
  simp [Dev.isoSet]

@[simp] theorem Dev.isoClr_fuses (v : Word) : (s.isoClr v).fuses = s.fuses := by
  simp [Dev.isoClr]

@[simp] theorem Dev.regStore_fuses (off : Nat) (d : RegDesc) (v : Word) : (s.regStore off d v).fuses = s.fuses := by
  simp [Dev.regStore]

@[simp] theorem Dev.wrUnit_fuses (off : Nat) (v : Word) {u : Dev} (hu : u.fuses = s.fuses) :
    ((s.wrUnit off v).getD u).fuses = s.fuses := by
  simp [Dev.wrUnit, hu, ↓Dev.fuses_ite, ↓Dev.fuses_ite_getD, ↓Dev.fuses_getD_some, ↓Dev.fuses_getD_none]

@[simp] theorem Dev.lcReqWrite_fuses (v : Word) : (s.lcReqWrite v).fuses = s.fuses := by
  unfold Dev.lcReqWrite
  dsimp only
  split <;> simp

@[simp] theorem Dev.unlockWrite_fuses (v : Word) : (s.unlockWrite v).fuses = s.fuses := by
  simp [Dev.unlockWrite]

@[simp] theorem Dev.wrMem_fuses (src : Src) (off : Nat) (v : Word) {u : Dev} (hu : u.fuses = s.fuses) :
    ((s.wrMem src off v).getD u).fuses = s.fuses := by
  simp [Dev.wrMem, hu]

@[simp] theorem Dev.wrEng_fuses (src : Src) (off : Nat) (v : Word) {u : Dev} (hu : u.fuses = s.fuses) :
    ((s.wrEng src off v).getD u).fuses = s.fuses := by
  simp [Dev.wrEng, hu]

@[simp] theorem Dev.wrCore_fuses (off : Nat) (v : Word) {u : Dev} (hu : u.fuses = s.fuses) :
    ((s.wrCore off v).getD u).fuses = s.fuses := by
  simp [Dev.wrCore, hu]

@[simp] theorem Dev.wrCtx_fuses (src : Src) (off : Nat) (v : Word) {u : Dev} (hu : u.fuses = s.fuses) :
    ((s.wrCtx src off v).getD u).fuses = s.fuses := by
  simp [Dev.wrCtx, hu]

/-! ### Bars -/

@[simp] theorem Dev.remoteRead_fuses (req u a : Nat) : (s.remoteRead req u a).fuses = s.fuses := by
  simp [Dev.remoteRead]

@[simp] theorem Dev.remoteTimeout_fuses (txid : Nat) : (s.remoteTimeout txid).fuses = s.fuses := by
  unfold Dev.remoteTimeout
  dsimp only
  split <;> simp

@[simp] theorem Dev.msixWrite_fuses (fn d : Nat) (v : Word) : (s.msixWrite fn d v).fuses = s.fuses := by
  simp [Dev.msixWrite]

@[simp] theorem Dev.bar4Write_fuses (n off : Nat) (v : Word) (be : Nat) : (s.bar4Write n off v be).fuses = s.fuses := by
  fun_cases Dev.bar4Write s n off v be <;> simp

@[simp] theorem Dev.wordRead_fuses (req n bar off : Nat) : (s.wordRead req n bar off).2.fuses = s.fuses := by
  fun_cases Dev.wordRead s req n bar off <;> simp

@[simp] theorem Dev.wordsRead_fuses (req n bar : Nat) (l : List Nat) : (s.wordsRead req n bar l).2.fuses = s.fuses := by
  induction l generalizing s with
  | nil => rfl
  | cons o l ih => simp [Dev.wordsRead, ih]

@[simp] theorem Dev.acquireRead_fuses (req n bar off len : Nat) (ecrcBad : Bool) :
    (s.acquireRead req n bar off len ecrcBad).fuses = s.fuses := by
  simp [Dev.acquireRead]

/-! ### Frames -/

@[simp] theorem Dev.dataWrite_fuses (b : List Byte) : (s.dataWrite b).2.fuses = s.fuses := by
  unfold Dev.dataWrite
  dsimp only
  split <;> simp

@[simp] theorem Dev.dataFetch_fuses (b : List Byte) : (s.dataFetch b).2.2.2.fuses = s.fuses := by
  unfold Dev.dataFetch
  dsimp only
  split <;> simp

@[simp] theorem Dev.dataRead_fuses (u : Nat) (b : List Byte) : (s.dataRead u b).2.2.fuses = s.fuses := by
  simp only [Dev.dataRead]
  repeat' split
  all_goals simp

@[simp] theorem Dev.dataBpm_fuses (f : Frame) : (s.dataBpm f).fuses = s.fuses := by
  unfold Dev.dataBpm
  dsimp only
  split <;> simp

@[simp] theorem Dev.dataRecord_fuses (f : Frame) : (s.dataRecord f).fuses = s.fuses := by
  simp [Dev.dataRecord]

@[simp] theorem Dev.farRead_fuses (off : Nat) : (s.farRead off).2.2.fuses = s.fuses := by
  simp [Dev.farRead]

@[simp] theorem Dev.corePort_fuses (f : Frame) {act : Dev → Dev} (hf : ∀ t, (act t).fuses = t.fuses) :
    (s.corePort f act).fuses = s.fuses := by
  simp [Dev.corePort, hf]

@[simp] theorem Dev.dataFailed_fuses (tag : Nat) (st : Status) : (s.dataFailed tag st).fuses = s.fuses := by
  unfold Dev.dataFailed
  split <;> simp

@[simp] theorem Dev.txFor_fuses (what : TxFor) (status : Nat) (payload : List Byte) : (s.txFor what status payload).fuses = s.fuses := by
  unfold Dev.txFor
  split <;> simp

@[simp] theorem Dev.orphanAlloc_fuses (t : Txn) (status : Nat) (payload : List Byte) :
    (s.orphanAlloc t status payload).fuses = s.fuses := by
  unfold Dev.orphanAlloc
  split <;> simp

@[simp] theorem Dev.txDone_fuses (t : Txn) (status : Nat) (payload : List Byte) : (s.txDone t status payload).fuses = s.fuses := by
  unfold Dev.txDone
  dsimp only
  split <;> simp

@[simp] theorem Dev.txAnswer_fuses (f : Frame) : (s.txAnswer f).fuses = s.fuses := by
  unfold Dev.txAnswer
  split <;> simp

@[simp] theorem Dev.takeRoutes_fuses (e : Nat) (table : List Nat) : (s.takeRoutes e table).fuses = s.fuses := by
  simp [Dev.takeRoutes]

@[simp] theorem Dev.takeCmd_fuses (c prio quota coreset seq : Nat) (words : List Word) (data : List Byte) :
    (s.takeCmd c prio quota coreset seq words data).fuses = s.fuses := by
  simp [Dev.takeCmd]

@[simp] theorem Dev.takeTeardown_fuses (c : Nat) : (s.takeTeardown c).fuses = s.fuses := by
  simp [Dev.takeTeardown]

@[simp] theorem Dev.portOff_fuses (p : Nat) : (s.portOff p).fuses = s.fuses := by
  simp [Dev.portOff]

@[simp] theorem Dev.fwWorker_fuses (m : FwMsg) : (s.fwWorker m).fuses = s.fuses := by
  cases m
  all_goals simp [Dev.fwWorker]

@[simp] theorem Dev.cmdAnswer_fuses (u c seq : Nat) (st : Status) (result : Nat) (data : List Byte) :
    (s.cmdAnswer u c seq st result data).fuses = s.fuses := by
  unfold Dev.cmdAnswer
  split <;> simp

@[simp] theorem Dev.boundRing_fuses (u k base size : Nat) : (s.boundRing u k base size).fuses = s.fuses := by
  fun_cases Dev.boundRing s u k base size <;> simp

@[simp] theorem Dev.attestTell_fuses (u : Nat) (ok : Bool) (check : Nat) : (s.attestTell u ok check).fuses = s.fuses := by
  simp [Dev.attestTell]

@[simp] theorem Dev.unitAgain_fuses (u : Nat) : (s.unitAgain u).fuses = s.fuses := by
  simp [Dev.unitAgain]

@[simp] theorem Dev.fwManager_fuses (u : Nat) (m : FwMsg) : (s.fwManager u m).fuses = s.fuses := by
  cases m
  all_goals simp [Dev.fwManager]

@[simp] theorem Dev.coreEnded_fuses (r core : Nat) : (s.coreEnded r core).fuses = s.fuses := by
  fun_cases Dev.coreEnded s r core <;> simp

@[simp] theorem Dev.intakeFailed_fuses (r addr seat : Nat) : (s.intakeFailed r addr seat).fuses = s.fuses := by
  unfold Dev.intakeFailed
  split <;> simp

@[simp] theorem Dev.fwMsg_fuses (u : Nat) (m : FwMsg) : (s.fwMsg u m).fuses = s.fuses := by
  cases m
  all_goals simp [Dev.fwMsg]

@[simp] theorem Dev.relay_fuses (p : Nat) (f : Frame) : (s.relay p f).fuses = s.fuses := by
  fun_cases Dev.relay s p f <;> simp

@[simp] theorem Dev.afterFrame_fuses : (s.afterFrame).fuses = s.fuses := by
  simp [Dev.afterFrame]

/-! ### PcieCfg -/

@[simp] theorem Dev.msixRelease_fuses (fn : Nat) : (s.msixRelease fn).fuses = s.fuses := by
  simp [Dev.msixRelease]

@[simp] theorem Dev.vfEnableWrite_fuses (on : Bool) : (s.vfEnableWrite on).fuses = s.fuses := by
  simp [Dev.vfEnableWrite]

@[simp] theorem Dev.barSizeWrite_fuses (enc : Nat) : (s.barSizeWrite enc).fuses = s.fuses := by
  simp [Dev.barSizeWrite]

@[simp] theorem Dev.cfgAct_fuses (d : Nat) (x : Word) (be : Nat) : (s.cfgAct d x be).fuses = s.fuses := by
  simp [Dev.cfgAct]

@[simp] theorem Dev.pfCfgWrite_fuses (d : Nat) (v : Word) (be : Nat) : (s.pfCfgWrite d v be).fuses = s.fuses := by
  simp [Dev.pfCfgWrite]

@[simp] theorem Dev.vfCfgWrite_fuses (n d : Nat) (v : Word) (be : Nat) : (s.vfCfgWrite n d v be).fuses = s.fuses := by
  simp [Dev.vfCfgWrite]

@[simp] theorem Dev.configRequest_fuses (fn d : Nat) (wr : Option (Word × Nat)) : (s.configRequest fn d wr).fuses = s.fuses := by
  fun_cases Dev.configRequest s fn d wr <;> simp

@[simp] theorem Dev.cfgField_fuses {f : Dev → Dev} (hf : ∀ t, (f t).fuses = t.fuses) : (s.cfgField f).fuses = s.fuses := by
  simp [Dev.cfgField, hf]

@[simp] theorem Dev.busMaster_fuses (fn : Nat) : (s.busMaster fn).fuses = s.fuses := by
  simp [Dev.busMaster]

@[simp] theorem Dev.pcieUp_fuses (speed width : Nat) : (s.pcieUp speed width).fuses = s.fuses := by
  simp [Dev.pcieUp]

end Sys2Proof.Machine
end

