-- ==== Sys2Proof/Proofs/SecCommit.lean ====
section
/-! PROOFS. R404: SEC_COMMIT raises the floors and sets revocation bits, a register write can do no more, and no command undoes either. -/

namespace Sys2Proof.Machine

/-- The fuses `b` can follow the fuses `a`: no floor fell and no revocation bit cleared (R404). -/
def FusesLe (a b : Nat × Nat × Nat) : Prop :=
  a.1 ≤ b.1 ∧ a.2.1 ≤ b.2.1 ∧ ∀ j, bitN a.2.2 j = true → bitN b.2.2 j = true

@[simp] theorem FusesLe.refl (a : Nat × Nat × Nat) : FusesLe a a := ⟨le_rfl, le_rfl, fun _ h => h⟩

theorem FusesLe.of_eq {a b : Nat × Nat × Nat} (h : b = a) : FusesLe a b := h ▸ .refl b

theorem FusesLe.trans {a b c : Nat × Nat × Nat} (h : FusesLe a b) (h' : FusesLe b c) : FusesLe a c :=
  ⟨h.1.trans h'.1, h.2.1.trans h'.2.1, fun j hj => h'.2.2 j (h.2.2 j hj)⟩

@[simp] theorem FusesLe.ite_iff {p : Prop} [Decidable p] {a b c : Nat × Nat × Nat} :
    FusesLe a (if p then b else c) ↔ if p then FusesLe a b else FusesLe a c :=
  iff_of_eq (apply_ite (FusesLe a) p b c)

theorem fusesLe_foldl {α : Type} {f : Dev → α → Dev} (h : ∀ s x, FusesLe s.fuses (f s x).fuses) (l : List α) (s : Dev) :
    FusesLe s.fuses (l.foldl f s).fuses := by
  induction l generalizing s with
  | nil => exact .refl _
  | cons x l ih => exact (h s x).trans (ih (f s x))

section
variable {a : Nat × Nat × Nat} {s : Dev} (h : FusesLe a s.fuses)
include h

@[simp] theorem Dev.secCommit_fusesLe : FusesLe a s.secCommit.fuses := by
  refine h.trans ?_
  unfold Dev.secCommit
  split
  · exact .refl _
  · refine ⟨le_max_left _ _, ?_, fun j hj => ?_⟩
    · show s.sec.floorC ≤ if s.boot.codecOk then _ else _
      split
      · exact le_max_left _ _
      · exact le_rfl
    · show (s.sec.revoked ||| _).testBit j = true
      rw [Nat.testBit_or, Bool.or_eq_true]
      exact .inl hj

@[simp] theorem Dev.wrMgr_fusesLe {u : Dev} (hu : FusesLe a u.fuses) (src : Src) (off : Nat) (v : Word) :
    FusesLe a ((s.wrMgr src off v).getD u).fuses := by
  simp [Dev.wrMgr, h, hu]

@[simp] theorem Dev.wrSpecial_fusesLe (src : Src) (off off' : Nat) (d : RegDesc) (v : Word) :
    FusesLe a ((s.wrSpecial src off v).getD (s.regStore off' d v)).fuses := by
  simp [Dev.wrSpecial, h]

@[simp] theorem Dev.regWrite_fusesLe (src : Src) (off : Nat) (v : Word) : FusesLe a (s.regWrite src off v).fuses := by
  unfold Dev.regWrite
  split
  · simp [h]
  · split
    · simp [h]
    · split <;> simp [h]
      split <;> simp [h]

@[simp] theorem Dev.pfWrite_fusesLe (off : Nat) (v : Word) : FusesLe a (s.pfWrite off v).fuses := by
  simp [Dev.pfWrite, h]

@[simp] theorem Dev.remoteWrite_fusesLe (src : Src) (u c : Nat) (v : Word) (be : Nat) : FusesLe a (s.remoteWrite src u c v be).fuses := by
  simp [Dev.remoteWrite, h]

@[simp] theorem Dev.bar0Write_fusesLe (src : Src) (off : Nat) (v : Word) (be : Nat) : FusesLe a (s.bar0Write src off v be).fuses := by
  simp [Dev.bar0Write, h]

@[simp] theorem Dev.wordWrite_fusesLe (src : Src) (bar off : Nat) (v : Word) (be : Nat) :
    FusesLe a (s.wordWrite src bar off v be).fuses := by
  unfold Dev.wordWrite
  split
  · split
    · simp [h]
    · split
      · exact h
      · split
        · simp [h]
        · split <;> simp [h]
  · simp [h]

@[simp] theorem Dev.barWrite_fusesLe (src : Src) (bar off : Nat) (ws : List (Word × Nat)) (poisoned ecrcBad : Bool) :
    FusesLe a (s.barWrite src bar off ws poisoned ecrcBad).fuses := by
  have hbus : FusesLe a (s.busPosted src).fuses := by simp [h]
  have hfold := fusesLe_foldl (fun t (x : (Word × Nat) × Nat) =>
    t.wordWrite_fusesLe (.refl _) src bar (off / 4 * 4 + 4 * x.2) x.1.1 x.1.2) ws.zipIdx (s.busPosted src)
  have h' := hbus.trans hfold
  simp [Dev.barWrite, h, h']

@[simp] theorem Dev.farWrite_fusesLe (off : Nat) (v : Word) : FusesLe a (s.farWrite off v).fuses := by
  simp [Dev.farWrite, h]

@[simp] theorem Dev.txEffect_fusesLe (f : Frame) : FusesLe a (s.txEffect f).fuses := by
  unfold Dev.txEffect
  dsimp only
  split
  · simp [h]
  · split <;> simp [h]

@[simp] theorem Dev.txApply_fusesLe (f : Frame) : FusesLe a (s.txApply f).fuses := by
  simp [Dev.txApply, h]

@[simp] theorem Dev.txEarly_fusesLe (src vc n : Nat) : FusesLe a (s.txEarly src vc n).fuses := by
  induction n generalizing s with
  | zero => exact h
  | succ n ih =>
    simp only [Dev.txEarly]
    split
    · exact h
    · exact ih (Dev.txApply_fusesLe (by simpa using h) _)

@[simp] theorem Dev.txRecv_fusesLe (f : Frame) : FusesLe a (s.txRecv f).fuses := by
  unfold Dev.txRecv
  dsimp only
  split
  · simp [h]
  · split
    · simp [h]
    · split
      · split <;> simp [h]
      · simp [h]

@[simp] theorem Dev.frameHere_fusesLe (p : Nat) (f : Frame) : FusesLe a (s.frameHere p f).fuses := by
  unfold Dev.frameHere
  split
  · simp [h]
  · split
    case h_6 =>
      split <;> simp [h]
    all_goals simp [h]

@[simp] theorem Dev.routed_fusesLe (p : Nat) (f : Frame) : FusesLe a (s.routed p f).fuses := by
  simp [Dev.routed, h]

@[simp] theorem Dev.frameIn_fusesLe (p : Nat) (f : Frame) : FusesLe a (s.frameIn p f).fuses := by
  simp [Dev.frameIn, h]

@[simp] theorem Dev.rowIn_fusesLe (cls sub p : Nat) (f : Frame) : FusesLe a (s.rowIn cls sub p f).fuses := by
  simp [Dev.rowIn, h]

@[simp] theorem Dev.bpmRow_fusesLe (op : Nat) (via : Option (Nat × Frame)) {f : Dev → Dev} (hf : ∀ t, (f t).fuses = t.fuses) :
    FusesLe a (s.bpmRow op via f).fuses := by
  unfold Dev.bpmRow
  split <;> simp [h, hf]

end

/-- Where an outcome goes on, its fuses can follow those of `d`. -/
def FusesUp (d : Dev) : Host.Outcome State Fault Refusal → Prop
  | .next t => FusesLe d.fuses t.fuses
  | _ => True

theorem FusesUp.next {d u : Dev} {rest : List Instr} (h : FusesLe d.fuses u.fuses) : FusesUp d (.next ⟨u, rest⟩) := h

/-- R404 for every command. What most do leaves the fuses as they are; the others reach SEC_COMMIT at the end of a register write. -/
theorem exec_fusesUp (c : Instr) (d : Dev) (rest : List Instr) : FusesUp d (exec c ⟨d, rest⟩) := by
  cases c
  all_goals refine .next ?_
  case vld core => exact .of_eq (d.vecRun_fuses core _ (vecLoad_keepsFuses core))
  case vst core => exact .of_eq (d.vecRun_fuses core _ (vecStore_keepsFuses core))
  case sld core => exact .of_eq (d.vecRun_fuses core _ (vecSld_keepsFuses core))
  case sst core => exact .of_eq (d.vecRun_fuses core _ (vecSst_keepsFuses core))
  case vtin core => exact .of_eq (d.vecRun_fuses core _ (vecTin_keepsFuses core))
  case vsend core => exact .of_eq (d.vecRun_fuses core _ (vecSend_keepsFuses core))
  case vend core => exact .of_eq (d.vecRun_fuses core _ fun _ _ _ _ _ _ => trivial)
  case message core ch via =>
    cases via <;> simp
  case credit core via =>
    cases via <;> simp
  case sleep fr =>
    cases fr <;> simp
  case fumaroleExit req =>
    cases req <;> simp
  all_goals simp

/-- The slots that SEC_COMMIT revokes: those the REVOKE mask names, without the one that signed the image. -/
theorem testBit_revokeMask_sub_signSlot {m j : Nat} (hm : m < 16) (hj : j < 4) (k : Nat) :
    (m % 16 - if bitN m k then 2 ^ k else 0).testBit j = (bitN m j && j != k) := by
  rcases lt_or_ge k 4 with hk | hk
  · have hall : ∀ m < 16, ∀ k < 4, ∀ j < 4, (m % 16 - if bitN m k then 2 ^ k else 0).testBit j = (bitN m j && j != k) := by decide
    exact hall m hm k hk j hj
  · have hoff : bitN m k = false := Nat.testBit_lt_two_pow (hm.trans_le (Nat.pow_le_pow_right (n := 2) (by decide) hk))
    have hne : (j != k) = true := by simp; omega
    rw [hoff, hne, Nat.mod_eq_of_lt hm, Bool.and_true]
    rfl

/-- What SEC_COMMIT writes once an image has booted. -/
theorem Dev.secCommit_of_started {s : Dev} (hs : s.boot.started = true) :
    s.secCommit = { s with sec := { s.sec with
      floorM := max s.sec.floorM s.sec.runM
      floorC := if s.boot.codecOk then max s.sec.floorC s.sec.runC else s.sec.floorC
      revoked := s.sec.revoked |||
        (s.sec.revokeMask % 16 - if bitN s.sec.revokeMask s.sec.signSlot then 2 ^ s.sec.signSlot else 0)
      audit := s.sec.audit + 1 } } := by
  simp [Dev.secCommit, hs]

theorem Dev.secCommit_of_not_started {s : Dev} (hs : s.boot.started = false) : s.secCommit = s := by
  simp [Dev.secCommit, hs]

/-- Settles O12. A commit is `Dev.secCommit_of_started`; that no command lowers a floor or clears a revocation bit is
`exec_fusesUp`. -/
theorem aCommitRaisesFloorsThatNeverFall : Obligations.ACommitRaisesFloorsThatNeverFall := by
  refine ⟨?commit, ?idle, ?monotone⟩
  case commit =>
    intro s v hv hs hm
    refine ⟨s.secCommit, ?_, ?_⟩
    · rw [exec_secCommit, if_pos hv]
    · rw [Dev.secCommit_of_started hs]
      refine ⟨rfl, rfl, fun j hj => ?_, rfl, rfl, (Dev.Keeps.refl _ _).put_sec (by simp) _⟩
      exact (Nat.testBit_or ..).trans (congrArg _ (testBit_revokeMask_sub_signSlot hm hj _))
  case idle =>
    rintro ⟨d, rest⟩ v (hv | hs)
    · simp [exec_secCommit, hv]
    · simp [exec_secCommit, Dev.secCommit_of_not_started (s := d) hs]
  case monotone =>
    intro c s t h
    have hup := exec_fusesUp c s.toDev s.pending
    rw [h] at hup
    exact hup

end Sys2Proof.Machine
end
